-- ==== Sys2Proof/Word.lean ====
section
/-! DEFINITION. The machine's words and the names of its units (00_scope Names; R22, R25, R32, R33). -/

namespace Sys2Proof

/-- Eight bits: the smallest unit the device addresses. -/
abbrev Byte := BitVec 8
/-- A 32-bit register, lane or word of control space. -/
abbrev Word := BitVec 32
/-- A 64-bit register, predicate or word of memory. -/
abbrev DWord := BitVec 64
/-- A 256-bit bundle (R131). -/
abbrev Bundle := BitVec 256

/-- A site of the 12 by 12 grid, numbered 12y + x (R22). -/
abbrev Site := Fin 144
/-- A logical core (R32). -/
abbrev LCore := Fin 12288
/-- A physical core id, 104 * site + 13 * row + physical column (R33). -/
abbrev PCore := Fin 14976
/-- A logical die LD0 to LD127. -/
abbrev LDie := Fin 128
/-- An erg E0 to E15 (R24). -/
abbrev Erg := Fin 16
/-- A gateway GW0 to GW7 (R25). -/
abbrev Gateway := Fin 8
/-- A Plosen stack PS0 to PS15. -/
abbrev Stack := Fin 16
/-- A Zilusk port ZP0 to ZP31. -/
abbrev Port := Fin 32
/-- A NAND channel NC0 to NC31. -/
abbrev Chan := Fin 32
/-- A mailbox MB0 to MB31. -/
abbrev Mbx := Fin 32
/-- A command queue 0 to 63. -/
abbrev Queue := Fin 64
/-- A Jisto link JL0 or JL1. -/
abbrev HostLink := Fin 2
/-- A row of a compute die (R32). -/
abbrev Row := Fin 8
/-- A check-value unit: 0 to 7 at the gateways, 8 to 23 at the base dies. -/
abbrev Cvu := Fin 24

end Sys2Proof
end

