-- ==== Sys2Proof/Syntax.lean ====
section
/-! DEFINITION. The commands of the block, one constructor per row of the opcode table, with the data they
carry. A core operation's command is the issue, by a physical core, of a bundle that holds only that
operation (log entry 2); HOLD_EXPIRY issues the whole bundle that stands at the program counter. -/

namespace Sys2Proof

/-- A bundle's header (R133). -/
structure Header where
  stop : Bool
  tsm : Bool
  pgm : Bool
  hold : BitVec 5
  deriving DecidableEq, Repr

/-- A direction of the mesh; the inputs of R275 are these and the local port. -/
inductive Dir where | local | north | east | south | west
  deriving DecidableEq, Repr

/-- Where a tag entry sends its partial (R275). -/
inductive TagOut where
  | send (d : Dir)
  | land (dest : Nat) (doff : Nat)
  deriving DecidableEq, Repr

/-- A tag entry of a route version (R275): the inputs it waits for, by name, and its output. -/
structure TagEntry where
  expLocal : Bool
  expNorth : Bool
  expEast : Bool
  expSouth : Bool
  expWest : Bool
  out : TagOut
  deriving DecidableEq, Repr

/-- A circuit record of a program image (R270). -/
structure Circuit where
  src : Nat
  dest : Nat
  start : Nat
  len : Nat
  count : Nat
  first : Nat
  deriving DecidableEq, Repr

/-- A route version (R265), as firmware lays it. Positions are numbered 156 * Q + P, channels 2 * Q + (1 when
westbound) for row ring Q and 192 + 2 * P + (1 when northbound) for column ring P. What is not listed takes
R266's route, an open mask with bits 1 to 15 set, and no entry. -/
structure RouteVersion where
  ldSite : List (Nat × Nat)
  rest : List (Nat × Nat)
  detours : List (Nat × Dir)
  masks : List (Nat × BitVec 16)
  circuits : List (Nat × Circuit)
  tags : List (Nat × TagEntry)
  deriving DecidableEq, Repr

/-- The head unit of a Jisto transaction but for its TYPE (R438): `badType` tells a TYPE that is none of the three, `rest` that
bytes 0x12 to 0x3F are 0. -/
structure HostHead where
  badType : Bool
  cls : BitVec 8
  tag : BitVec 16
  len : BitVec 32
  addr : BitVec 64
  code : BitVec 16
  rest : Bool
  deriving DecidableEq, Repr

/-- A signed image (R596): what its header says, and its measurement (SHA-384 of header and body, R597). -/
structure FwImage where
  type : Nat
  flags : Nat
  svn : Nat
  key : Nat
  length : Nat
  version : List (BitVec 8)
  build : Nat
  digest : List (BitVec 8)
  deriving DecidableEq, Repr

/-- A failure that BIST finds, with the place that DIE_BIST_FAIL gives (R570): failing 64-byte rows of a scratchpad bank, an
instruction-memory word, a core datapath, a router buffer, steward SRAM, a D2D link end with its direction and wire, a PLL, a sensor, a
stack region, a base die's SRAM or PLL, and a port (0 to 31) or Jisto link (32, 33) with the SerDes lanes that are left. -/
inductive BistFailure where
  | spad (site core bank rows word bit : Nat)
  | imem (site core word bit : Nat)
  | datapath (site core : Nat)
  | router (site : Nat)
  | steward (site : Nat)
  | d2d (site dir wire : Nat)
  | pll (site : Nat)
  | sensor (site : Nat)
  | region (stack region : Nat)
  | baseDie (stack : Nat)
  | serdes (link : Nat) (lanes : BitVec 8)
  deriving DecidableEq, Repr

/-- What the ONFI parameter page of a target says (R403), with the blocks that its factory markings call bad: channel and target; its cell type (3 TLC, 4
QLC); its interface, its rate in MT/s and its three calibrations; the main and spare bytes of a page; its LUNs and its capacity in bytes; SLC mode; its
read-level sets; ONFI bad-block marking; its endurance limit. -/
structure ParamPage where
  chan : Nat
  target : Nat
  cell : Nat
  lpddr4 : Bool
  rate : Nat
  dutyCycle : Bool
  dqTraining : Bool
  zq : Bool
  main : Nat
  spare : Nat
  luns : Nat
  capacity : Nat
  slc : Bool
  readSets : Nat
  marking : Bool
  endurance : Nat
  factoryBad : Nat
  deriving DecidableEq, Repr

/-- A link frame as the line delivers it (R360, R361): the codewords under it that were corrected and that could not be, and its bytes. -/
structure LineFrame where
  corr : Nat
  uncorr : Nat
  bytes : List (BitVec 8)
  deriving DecidableEq, Repr

/-- A refresh of a block (R410): the free block that takes the data, and whether the old one is past its retention limit. -/
structure RefreshWork where
  into : Nat
  aged : Bool
  deriving DecidableEq, Repr

/-- What a cold start meets outside the device and on its parts (R559 to R573): whether each root of trust passes its self-check; the
firmware area and the spare sites as the part left manufacture, taken where the device holds none of its own (R31, R598); the firmware
slots that a signature, a key hash or a torn write spoils (keyed as the area is); the map copies and the commit areas that do not decode; the ergs whose stage 1 does
not pass, and the controllers that do in the others (unlisted: all); silent dies and base dies (R564); whether any link trained from its
defaults; the parameter pages of the NAND targets whose channels train; the Jisto links with their lanes;
BIST's failures; link ends that pass only on their retry, and those that fail it, with their bit errors (R572); the reference inputs that are good; the clock plan (site, primary, secondary, none when it has a primary
only); the receivers that the firmware broadcasts do not reach (stack PSn as 144 + n); the address straps; and the time taken in units of 10 ms. -/
structure StartFacts where
  rootA : Bool
  rootB : Bool
  firmware : List (Nat × FwImage)
  spoiled : List Nat
  spares : List Nat
  badMapA : Bool
  badMapB : Bool
  badAreaA : Bool
  badAreaB : Bool
  stage1Out : List Nat
  ctrls : List (Nat × BitVec 4)
  silent : List Nat
  silentStacks : List Nat
  fullTrain : Bool
  media : List ParamPage
  jisto : List (Nat × BitVec 8)
  bist : List BistFailure
  d2dRetry : List (Nat × Nat × Nat)
  d2dFail : List (Nat × Nat × Nat)
  refA : Bool
  refB : Bool
  plan : List (Nat × Nat × Option Nat)
  unreached : List Nat
  straps : BitVec 2
  time : Nat
  deriving DecidableEq, Repr

/-- What a sensor of an erg shows in a 64-cycle window: site, sensor, and its droop and the droop expected of it, in microvolts (R524). -/
structure Droop where
  site : Nat
  sensor : Nat
  droop : Nat
  expected : Nat
  deriving DecidableEq, Repr

/-- A die's junctions at a forecast (R547), in °C: site (stack PSn as 144 + n), the highest reading with its sensor, the forecast 5 ms ahead, the forecast at the next faster step,
and the forecast under full load at THM_STAT.LIMIT (R555); `west` and `east` are the highest readings of the half-dies (R549). -/
structure Junction where
  unit : Nat
  tj : Nat
  sensor : Nat
  fc : Nat
  fcFaster : Nat
  fcFull : Nat
  west : Nat
  east : Nat
  deriving DecidableEq, Repr

/-- Which register a command reaches, by its offset in the panel control space (R19), and the agent of R469 (or a manager device's number from
0x10000 on, R395) that reaches it. -/
structure RegAccess where
  agent : Nat
  off : Nat
  deriving DecidableEq, Repr

/-- What an uncorrectable or corrected flit error meets (R257). -/
inductive FlitError where | corrected | payload | header
  deriving DecidableEq, Repr

/-! The slots of a bundle (R138 to R152), by name; register and format fields keep their widths. -/

/-- ALU functions (R174). -/
inductive AluFn where
  | add | sub | mul | and | or | xor | shl | shr | sra | min | max | minu | maxu | fadd | fsub | fmul | fmin | fmax
  deriving DecidableEq, Repr

/-- CMP conditions (R176). -/
inductive CmpFn where | eq | ne | lt | le | ltu | leu | feq | flt | fle | nan
  deriving DecidableEq, Repr

/-- PLOG functions (R177). -/
inductive PlogFn where | and | or | xor | andn | not | mov | setall | clrall | any | all
  deriving DecidableEq, Repr

/-- CSRRD values (R193). -/
inductive CsrFn where | lcore | tickLo | tickHi | cycle | mapGen | tickLen
  deriving DecidableEq, Repr

/-- A CTRL-slot operation (R173). -/
inductive CtrlOp where
  | nop
  | alu (fn : AluFn) (dst s1 s2 : BitVec 5)
  | movi (dst : BitVec 5) (imm : BitVec 16)
  | movhi (dst : BitVec 5) (imm : BitVec 16)
  | addi (dst : BitVec 5) (imm : BitVec 16)
  | cmp (fn : CmpFn) (dst s1 s2 : BitVec 5)
  | plog (fn : PlogFn) (dst s1 s2 : BitVec 5)
  | jmp (imm : BitVec 21)
  | jmpr (s1 : BitVec 5)
  | loop (dst : BitVec 5) (imm : BitVec 16)
  | tsync (imm : BitVec 21)
  | accswap
  | pagein (imm : BitVec 21)
  | loadhint (imm : BitVec 21)
  | srseed (s1 s2 : BitVec 5)
  | waitstr (dst s1 : BitVec 5) (fn : BitVec 6)
  | strcnt (dst : BitVec 5) (fn : BitVec 6)
  | csrrd (fn : CsrFn) (dst : BitVec 5)
  deriving DecidableEq, Repr

/-- A TENSOR-slot operation (R148, R194). -/
inductive TensorOp where
  | nop
  | mma (va vb : BitVec 5) (afmt bfmt : BitVec 4) (scale : BitVec 3) (agrp bgrp : BitVec 2) (accz : Bool)
  deriving DecidableEq, Repr

/-- A VECTOR-slot operation name (R197). -/
inductive VecOp where
  | nop | fadd | fsub | fmul | fma | fms | fnma | fmin | fmax | fabs | fneg
  | feq | flt | fle | funord | fnonfin | ieq | ilt | iltu
  | iadd | isub | imul | and | or | xor | shl | shr | sra | imin | imax
  | mov | sel | splat | extr | perm | iota | ins8 | ext8 | fsumr | fmaxr
  | rcp | rsqrt | exp2 | exp | log2 | log | expo | scalb
  | cvt | cvtu | qnt | bcvt | bscl | bunp
  deriving DecidableEq, Repr

/-- The VECTOR slot's fields below its opcode and guard (R149). -/
structure VecArgs where
  vd : BitVec 6 := 0#6
  va : BitVec 6 := 0#6
  vb : BitVec 6 := 0#6
  vc : BitVec 6 := 0#6
  rm : BitVec 2 := 0#2
  sr : Bool := false
  nsat : Bool := false
  fmt : BitVec 4 := 0#4
  part : BitVec 3 := 0#3
  deriving DecidableEq, Repr

/-- An LD0-slot or LS1-slot operation (R205). -/
inductive MemOp where
  | nop | ldw | ldd | ldq (q : BitVec 2) | ldh (hi : Bool) | ldv | ldsc64 | ldsc256
  | stw | std | stq (q : BitVec 2) | sth (hi : Bool) | stv
  deriving DecidableEq, Repr

/-- A ROUTE-slot operation (R208). -/
inductive RouteOp where
  | nop | sendv | sendq (q : BitVec 2) | sendw | wsendv | wsendq (q : BitVec 2) | redv | circv
  | strm | saecmd | wopen | wclose | rdma
  deriving DecidableEq, Repr

/-- A bundle taken apart: its header, and in each slot the operation, the guard (R140) and the fields. `bad`
names the slots whose bits are no defined encoding whatever their operation (R139: an unassigned opcode or
function, or a reserved or unused field that is not 0), by R96's slot numbers. -/
structure Slots where
  hdr : Header
  ctrl : CtrlOp := .nop
  ctrlG : BitVec 5 := 0#5
  tensor : TensorOp := .nop
  tensorG : BitVec 5 := 0#5
  vec : VecOp := .nop
  vecG : BitVec 5 := 0#5
  vargs : VecArgs := {}
  ld0 : MemOp := .nop
  ld0G : BitVec 5 := 0#5
  ld0Reg : BitVec 6 := 0#6
  ld0Base : BitVec 4 := 0#4
  ld0Off : BitVec 16 := 0#16
  ls1 : MemOp := .nop
  ls1G : BitVec 5 := 0#5
  ls1Reg : BitVec 6 := 0#6
  ls1Base : BitVec 4 := 0#4
  ls1Off : BitVec 16 := 0#16
  route : RouteOp := .nop
  routeG : BitVec 5 := 0#5
  cls : BitVec 2 := 0#2
  rreg : BitVec 6 := 0#6
  target : BitVec 14 := 0#14
  doff : BitVec 15 := 0#15
  bad : List Nat := []
  deriving DecidableEq, Repr

/-- Where a packet is held (R382): received and not yet forwarded, on its way between two gateways, or in a port's queue. -/
inductive HeldPacket where
  | rx (id : Nat)
  | transit (id : Nat)
  | tx (port : Port) (index : Nat)
  deriving DecidableEq, Repr

/-- The tier that a codeword's decode passed at (R407): 1 with or without corrections, 2 with how many read-level sets, 3, 4, or
none. -/
inductive ReadTier where
  | clean
  | tier1
  | tier2 (sets : Nat)
  | tier3
  | tier4
  | failed
  deriving DecidableEq, Repr

/-- A command of the block. -/
inductive Instr where
  /-- R41: firmware commits the live binding as a new record; `readbackOk` is whether the copy read back verifies. -/
  | mapCommit (readbackOk : Bool)
  /-- R53, R54: the fit test in progress ends; `added` is the largest delay the new routes add to any landing (R228). -/
  | fitTestComplete (pass : Bool) (added : Nat)
  /-- R57: a gateway's router fails; `fitPass` is the result of the fit test for the routes around it. -/
  | gatewayRouterFail (g : Gateway) (fitPass : Bool) (added : Nat)
  /-- R90 tick T: the self-check of the row's resting core ends. -/
  | restingSelfcheckDone (site : Site) (row : Row) (pass : Bool)
  /-- R90: bulk copy of the row's move completes. -/
  | bulkCopyDone (site : Site) (row : Row)
  /-- R90, R91, R240: the handover of the row's move. -/
  | handover (site : Site) (row : Row)
  /-- R76: a bundle held by bank conflicts issues once its last access is served. -/
  | heldBundleIssue (p : PCore)
  /-- R134: the core's next bundle becomes ready; it is fetched at the program counter and meets its first request cycle. -/
  | holdExpiry (p : PCore)
  /-- R136: the core issues a bundle of NOPs with STOP set. -/
  | stop (p : PCore) (hold : BitVec 5)
  /-- R134: the core issues a bundle of NOPs with PGM set. -/
  | pageMark (p : PCore) (hold : BitVec 5)
  /-- R135: the core arrives at TSYNC after its TSM bundle and its hold. -/
  | tsyncArrival (p : PCore)
  /-- R210: a scheduled flit lands at its destination core. -/
  | scheduledDelivery (flit : Nat)
  /-- R658: a check outside any bundle finds ST_CORE_HW. -/
  | coreHwCheck (p : PCore)
  /-- R98, R100: the die steward reports the core's recorded fault; `selfcheckOk` is the result of the self-check that R100 asks for. -/
  | coreFaultReport (p : PCore) (selfcheckOk : Bool)
  /-- R96 CORE_CTL CMD 0x1. -/
  | hold (p : PCore)
  /-- R96 CORE_CTL CMD 0x2. -/
  | resume (p : PCore)
  /-- R96 CORE_CTL CMD 0x3. -/
  | selfcheck (p : PCore)
  /-- R100: a core self-check ends. -/
  | selfcheckDone (p : PCore) (pass : Bool)
  /-- R96 CORE_CTL CMD 0x4. -/
  | sweep (p : PCore)
  /-- R85: the page-in in progress reads its last granule and completes. -/
  | pageinComplete (p : PCore)
  /-- R138: a bundle whose slots are all NOP. -/
  | nop (p : PCore) (h : Header) (g : BitVec 5)
  /-- R173 MOVI. -/
  | movi (p : PCore) (h : Header) (g : BitVec 5) (dst : BitVec 5) (imm : BitVec 16)
  /-- R173 MOVHI. -/
  | movhi (p : PCore) (h : Header) (g : BitVec 5) (dst : BitVec 5) (imm : BitVec 16)
  /-- R173 ADDI. -/
  | addi (p : PCore) (h : Header) (g : BitVec 5) (dst : BitVec 5) (imm : BitVec 16)
  /-- R174 ALU FN ADD. -/
  | aluAdd (p : PCore) (h : Header) (g : BitVec 5) (dst s1 s2 : BitVec 5)
  /-- R174 ALU FN SUB. -/
  | aluSub (p : PCore) (h : Header) (g : BitVec 5) (dst s1 s2 : BitVec 5)
  /-- R174 ALU FN MUL. -/
  | aluMul (p : PCore) (h : Header) (g : BitVec 5) (dst s1 s2 : BitVec 5)
  /-- R174 ALU FN AND. -/
  | aluAnd (p : PCore) (h : Header) (g : BitVec 5) (dst s1 s2 : BitVec 5)
  /-- R174 ALU FN OR. -/
  | aluOr (p : PCore) (h : Header) (g : BitVec 5) (dst s1 s2 : BitVec 5)
  /-- R174 ALU FN XOR. -/
  | aluXor (p : PCore) (h : Header) (g : BitVec 5) (dst s1 s2 : BitVec 5)
  /-- R174 ALU FN SHL. -/
  | aluShl (p : PCore) (h : Header) (g : BitVec 5) (dst s1 s2 : BitVec 5)
  /-- R174 ALU FN SHR. -/
  | aluShr (p : PCore) (h : Header) (g : BitVec 5) (dst s1 s2 : BitVec 5)
  /-- R174 ALU FN SRA. -/
  | aluSra (p : PCore) (h : Header) (g : BitVec 5) (dst s1 s2 : BitVec 5)
  /-- R174 ALU FN MIN. -/
  | aluMin (p : PCore) (h : Header) (g : BitVec 5) (dst s1 s2 : BitVec 5)
  /-- R174 ALU FN MAX. -/
  | aluMax (p : PCore) (h : Header) (g : BitVec 5) (dst s1 s2 : BitVec 5)
  /-- R174 ALU FN MINU. -/
  | aluMinu (p : PCore) (h : Header) (g : BitVec 5) (dst s1 s2 : BitVec 5)
  /-- R174 ALU FN MAXU. -/
  | aluMaxu (p : PCore) (h : Header) (g : BitVec 5) (dst s1 s2 : BitVec 5)
  /-- R174 ALU FN FADD. -/
  | aluFadd (p : PCore) (h : Header) (g : BitVec 5) (dst s1 s2 : BitVec 5)
  /-- R174 ALU FN FSUB. -/
  | aluFsub (p : PCore) (h : Header) (g : BitVec 5) (dst s1 s2 : BitVec 5)
  /-- R174 ALU FN FMUL. -/
  | aluFmul (p : PCore) (h : Header) (g : BitVec 5) (dst s1 s2 : BitVec 5)
  /-- R174 ALU FN FMIN. -/
  | aluFmin (p : PCore) (h : Header) (g : BitVec 5) (dst s1 s2 : BitVec 5)
  /-- R174 ALU FN FMAX. -/
  | aluFmax (p : PCore) (h : Header) (g : BitVec 5) (dst s1 s2 : BitVec 5)
  /-- R176 CMP EQ. -/
  | cmpEq (p : PCore) (h : Header) (g : BitVec 5) (dst s1 s2 : BitVec 5)
  /-- R176 CMP NE. -/
  | cmpNe (p : PCore) (h : Header) (g : BitVec 5) (dst s1 s2 : BitVec 5)
  /-- R176 CMP LT. -/
  | cmpLt (p : PCore) (h : Header) (g : BitVec 5) (dst s1 s2 : BitVec 5)
  /-- R176 CMP LE. -/
  | cmpLe (p : PCore) (h : Header) (g : BitVec 5) (dst s1 s2 : BitVec 5)
  /-- R176 CMP LTU. -/
  | cmpLtu (p : PCore) (h : Header) (g : BitVec 5) (dst s1 s2 : BitVec 5)
  /-- R176 CMP LEU. -/
  | cmpLeu (p : PCore) (h : Header) (g : BitVec 5) (dst s1 s2 : BitVec 5)
  /-- R176 CMP FEQ. -/
  | cmpFeq (p : PCore) (h : Header) (g : BitVec 5) (dst s1 s2 : BitVec 5)
  /-- R176 CMP FLT. -/
  | cmpFlt (p : PCore) (h : Header) (g : BitVec 5) (dst s1 s2 : BitVec 5)
  /-- R176 CMP FLE. -/
  | cmpFle (p : PCore) (h : Header) (g : BitVec 5) (dst s1 s2 : BitVec 5)
  /-- R176 CMP NAN. -/
  | cmpNan (p : PCore) (h : Header) (g : BitVec 5) (dst s1 s2 : BitVec 5)
  /-- R177 PLOG AND. -/
  | plogAnd (p : PCore) (h : Header) (g : BitVec 5) (dst s1 s2 : BitVec 5)
  /-- R177 PLOG OR. -/
  | plogOr (p : PCore) (h : Header) (g : BitVec 5) (dst s1 s2 : BitVec 5)
  /-- R177 PLOG XOR. -/
  | plogXor (p : PCore) (h : Header) (g : BitVec 5) (dst s1 s2 : BitVec 5)
  /-- R177 PLOG ANDN. -/
  | plogAndn (p : PCore) (h : Header) (g : BitVec 5) (dst s1 s2 : BitVec 5)
  /-- R177 PLOG NOT. -/
  | plogNot (p : PCore) (h : Header) (g : BitVec 5) (dst s1 : BitVec 5)
  /-- R177 PLOG MOV. -/
  | plogMov (p : PCore) (h : Header) (g : BitVec 5) (dst s1 : BitVec 5)
  /-- R177 PLOG SETALL. -/
  | plogSetall (p : PCore) (h : Header) (g : BitVec 5) (dst : BitVec 5)
  /-- R177 PLOG CLRALL. -/
  | plogClrall (p : PCore) (h : Header) (g : BitVec 5) (dst : BitVec 5)
  /-- R177 PLOG ANY. -/
  | plogAny (p : PCore) (h : Header) (g : BitVec 5) (dst s1 : BitVec 5)
  /-- R177 PLOG ALL. -/
  | plogAll (p : PCore) (h : Header) (g : BitVec 5) (dst s1 : BitVec 5)
  /-- R173 JMP. -/
  | jmp (p : PCore) (h : Header) (g : BitVec 5) (imm : BitVec 21)
  /-- R178 JMPR. -/
  | jmpr (p : PCore) (h : Header) (g : BitVec 5) (s1 : BitVec 5)
  /-- R179 LOOP. -/
  | loop (p : PCore) (h : Header) (g : BitVec 5) (dst : BitVec 5) (imm : BitVec 16)
  /-- R180 TSYNC. -/
  | tsync (p : PCore) (h : Header) (g : BitVec 5) (imm : BitVec 21)
  /-- R181 ACCSWAP. -/
  | accswap (p : PCore) (h : Header) (g : BitVec 5)
  /-- R182 PAGEIN. -/
  | pagein (p : PCore) (h : Header) (g : BitVec 5) (imm : BitVec 21)
  /-- R183 LOADHINT. -/
  | loadhint (p : PCore) (h : Header) (g : BitVec 5) (imm : BitVec 21)
  /-- R192 SRSEED. -/
  | srseed (p : PCore) (h : Header) (g : BitVec 5) (s1 s2 : BitVec 5)
  /-- R188 WAITSTR. -/
  | waitstr (p : PCore) (h : Header) (g : BitVec 5) (dst s1 : BitVec 5) (fn : BitVec 6)
  /-- R188, R190: a bundle held by WAITSTR is let issue. -/
  | waitstrRelease (p : PCore)
  /-- R191 STRCNT. -/
  | strcnt (p : PCore) (h : Header) (g : BitVec 5) (dst : BitVec 5) (fn : BitVec 6)
  /-- R193 CSRRD FN 0x00. -/
  | csrrdLcore (p : PCore) (h : Header) (g : BitVec 5) (dst : BitVec 5)
  /-- R193 CSRRD FN 0x01. -/
  | csrrdTickLo (p : PCore) (h : Header) (g : BitVec 5) (dst : BitVec 5)
  /-- R193 CSRRD FN 0x02. -/
  | csrrdTickHi (p : PCore) (h : Header) (g : BitVec 5) (dst : BitVec 5)
  /-- R193 CSRRD FN 0x03. -/
  | csrrdCycle (p : PCore) (h : Header) (g : BitVec 5) (dst : BitVec 5)
  /-- R193 CSRRD FN 0x04. -/
  | csrrdMapGen (p : PCore) (h : Header) (g : BitVec 5) (dst : BitVec 5)
  /-- R193 CSRRD FN 0x05. -/
  | csrrdTickLen (p : PCore) (h : Header) (g : BitVec 5) (dst : BitVec 5)
  /-- R194 MMA. -/
  | mma (p : PCore) (h : Header) (g : BitVec 5) (va vb : BitVec 5) (afmt bfmt : BitVec 4) (scale : BitVec 3) (agrp bgrp : BitVec 2) (accz : Bool)
  /-- R197 FADD. -/
  | fadd (p : PCore) (h : Header) (g : BitVec 5) (vd va vb : BitVec 6) (rm : BitVec 2)
  /-- R197 FSUB. -/
  | fsub (p : PCore) (h : Header) (g : BitVec 5) (vd va vb : BitVec 6) (rm : BitVec 2)
  /-- R197 FMUL. -/
  | fmul (p : PCore) (h : Header) (g : BitVec 5) (vd va vb : BitVec 6) (rm : BitVec 2)
  /-- R197 FMA. -/
  | fma (p : PCore) (h : Header) (g : BitVec 5) (vd va vb vc : BitVec 6) (rm : BitVec 2)
  /-- R197 FMS. -/
  | fms (p : PCore) (h : Header) (g : BitVec 5) (vd va vb vc : BitVec 6) (rm : BitVec 2)
  /-- R197 FNMA. -/
  | fnma (p : PCore) (h : Header) (g : BitVec 5) (vd va vb vc : BitVec 6) (rm : BitVec 2)
  /-- R197 FMIN, R200. -/
  | fmin (p : PCore) (h : Header) (g : BitVec 5) (vd va vb : BitVec 6)
  /-- R197 FMAX, R200. -/
  | fmax (p : PCore) (h : Header) (g : BitVec 5) (vd va vb : BitVec 6)
  /-- R197 FABS. -/
  | fabs (p : PCore) (h : Header) (g : BitVec 5) (vd va : BitVec 6)
  /-- R197 FNEG. -/
  | fneg (p : PCore) (h : Header) (g : BitVec 5) (vd va : BitVec 6)
  /-- R197 FEQ. -/
  | feq (p : PCore) (h : Header) (g : BitVec 5) (vd va vb : BitVec 6)
  /-- R197 FLT. -/
  | flt (p : PCore) (h : Header) (g : BitVec 5) (vd va vb : BitVec 6)
  /-- R197 FLE. -/
  | fle (p : PCore) (h : Header) (g : BitVec 5) (vd va vb : BitVec 6)
  /-- R197 FUNORD. -/
  | funord (p : PCore) (h : Header) (g : BitVec 5) (vd va vb : BitVec 6)
  /-- R197 FNONFIN. -/
  | fnonfin (p : PCore) (h : Header) (g : BitVec 5) (vd va : BitVec 6)
  /-- R197 IEQ. -/
  | ieq (p : PCore) (h : Header) (g : BitVec 5) (vd va vb : BitVec 6)
  /-- R197 ILT. -/
  | ilt (p : PCore) (h : Header) (g : BitVec 5) (vd va vb : BitVec 6)
  /-- R197 ILTU. -/
  | iltu (p : PCore) (h : Header) (g : BitVec 5) (vd va vb : BitVec 6)
  /-- R197 IADD. -/
  | iadd (p : PCore) (h : Header) (g : BitVec 5) (vd va vb : BitVec 6)
  /-- R197 ISUB. -/
  | isub (p : PCore) (h : Header) (g : BitVec 5) (vd va vb : BitVec 6)
  /-- R197 IMUL. -/
  | imul (p : PCore) (h : Header) (g : BitVec 5) (vd va vb : BitVec 6)
  /-- R197 AND. -/
  | vand (p : PCore) (h : Header) (g : BitVec 5) (vd va vb : BitVec 6)
  /-- R197 OR. -/
  | vor (p : PCore) (h : Header) (g : BitVec 5) (vd va vb : BitVec 6)
  /-- R197 XOR. -/
  | vxor (p : PCore) (h : Header) (g : BitVec 5) (vd va vb : BitVec 6)
  /-- R197 SHL. -/
  | vshl (p : PCore) (h : Header) (g : BitVec 5) (vd va vb : BitVec 6)
  /-- R197 SHR. -/
  | vshr (p : PCore) (h : Header) (g : BitVec 5) (vd va vb : BitVec 6)
  /-- R197 SRA. -/
  | vsra (p : PCore) (h : Header) (g : BitVec 5) (vd va vb : BitVec 6)
  /-- R197 IMIN. -/
  | imin (p : PCore) (h : Header) (g : BitVec 5) (vd va vb : BitVec 6)
  /-- R197 IMAX. -/
  | imax (p : PCore) (h : Header) (g : BitVec 5) (vd va vb : BitVec 6)
  /-- R197 MOV. -/
  | vmov (p : PCore) (h : Header) (g : BitVec 5) (vd va : BitVec 6)
  /-- R197 SEL. -/
  | sel (p : PCore) (h : Header) (g : BitVec 5) (vd va vb vc : BitVec 6)
  /-- R197 SPLAT. -/
  | splat (p : PCore) (h : Header) (g : BitVec 5) (vd va : BitVec 6)
  /-- R197 EXTR. -/
  | extr (p : PCore) (h : Header) (g : BitVec 5) (vd va vb : BitVec 6)
  /-- R197 PERM. -/
  | perm (p : PCore) (h : Header) (g : BitVec 5) (vd va vb : BitVec 6)
  /-- R197 IOTA. -/
  | iota (p : PCore) (h : Header) (g : BitVec 5) (vd : BitVec 6)
  /-- R197 INS8. -/
  | ins8 (p : PCore) (h : Header) (g : BitVec 5) (vd va : BitVec 6) (part : BitVec 3)
  /-- R197 EXT8. -/
  | ext8 (p : PCore) (h : Header) (g : BitVec 5) (vd va : BitVec 6) (part : BitVec 3)
  /-- R197 FSUMR. -/
  | fsumr (p : PCore) (h : Header) (g : BitVec 5) (vd va : BitVec 6)
  /-- R197 FMAXR. -/
  | fmaxr (p : PCore) (h : Header) (g : BitVec 5) (vd va : BitVec 6)
  /-- R197 RCP. -/
  | rcp (p : PCore) (h : Header) (g : BitVec 5) (vd va : BitVec 6)
  /-- R197 RSQRT. -/
  | rsqrt (p : PCore) (h : Header) (g : BitVec 5) (vd va : BitVec 6)
  /-- R197 EXP2. -/
  | exp2 (p : PCore) (h : Header) (g : BitVec 5) (vd va : BitVec 6)
  /-- R197 EXP. -/
  | exp (p : PCore) (h : Header) (g : BitVec 5) (vd va : BitVec 6)
  /-- R197 LOG2. -/
  | log2 (p : PCore) (h : Header) (g : BitVec 5) (vd va : BitVec 6)
  /-- R197 LOG. -/
  | log (p : PCore) (h : Header) (g : BitVec 5) (vd va : BitVec 6)
  /-- R197 EXPO. -/
  | expo (p : PCore) (h : Header) (g : BitVec 5) (vd va : BitVec 6)
  /-- R197 SCALB. -/
  | scalb (p : PCore) (h : Header) (g : BitVec 5) (vd va vb : BitVec 6) (rm : BitVec 2)
  /-- R201 CVT. -/
  | cvt (p : PCore) (h : Header) (g : BitVec 5) (vd va : BitVec 6) (rm : BitVec 2) (sr nsat : Bool) (fmt : BitVec 4) (part : BitVec 3)
  /-- R201 CVTU. -/
  | cvtu (p : PCore) (h : Header) (g : BitVec 5) (vd va : BitVec 6) (rm : BitVec 2) (fmt : BitVec 4) (part : BitVec 3)
  /-- R202 QNT. -/
  | qnt (p : PCore) (h : Header) (g : BitVec 5) (vd va vb : BitVec 6) (rm : BitVec 2) (fmt : BitVec 4) (part : BitVec 3)
  /-- R203 BCVT. -/
  | bcvt (p : PCore) (h : Header) (g : BitVec 5) (vd va : BitVec 6) (fmt : BitVec 4) (part : BitVec 3)
  /-- R203 BSCL. -/
  | bscl (p : PCore) (h : Header) (g : BitVec 5) (vd va vb : BitVec 6) (fmt : BitVec 4)
  /-- R203 BUNP. -/
  | bunp (p : PCore) (h : Header) (g : BitVec 5) (vd va vb vc : BitVec 6) (fmt : BitVec 4) (part : BitVec 3)
  /-- R205 LDW, in the LD0 slot or the LS1 slot. -/
  | ldw (p : PCore) (h : Header) (g : BitVec 5) (ls1 : Bool) (reg : BitVec 6) (base : BitVec 4) (off : BitVec 16)
  /-- R205 LDD. -/
  | ldd (p : PCore) (h : Header) (g : BitVec 5) (ls1 : Bool) (reg : BitVec 6) (base : BitVec 4) (off : BitVec 16)
  /-- R205 LDQ0 to LDQ3. -/
  | ldq (p : PCore) (h : Header) (g : BitVec 5) (ls1 : Bool) (q : BitVec 2) (reg : BitVec 6) (base : BitVec 4) (off : BitVec 16)
  /-- R205 LDH0, LDH1. -/
  | ldh (p : PCore) (h : Header) (g : BitVec 5) (ls1 : Bool) (hi : Bool) (reg : BitVec 6) (base : BitVec 4) (off : BitVec 16)
  /-- R205 LDV. -/
  | ldv (p : PCore) (h : Header) (g : BitVec 5) (ls1 : Bool) (reg : BitVec 6) (base : BitVec 4) (off : BitVec 16)
  /-- R207 LDSC64. -/
  | ldsc64 (p : PCore) (h : Header) (g : BitVec 5) (ls1 : Bool) (reg : BitVec 6) (base : BitVec 4) (off : BitVec 16)
  /-- R207 LDSC256. -/
  | ldsc256 (p : PCore) (h : Header) (g : BitVec 5) (ls1 : Bool) (reg : BitVec 6) (base : BitVec 4) (off : BitVec 16)
  /-- R205 STW. -/
  | stw (p : PCore) (h : Header) (g : BitVec 5) (reg : BitVec 6) (base : BitVec 4) (off : BitVec 16)
  /-- R205 STD. -/
  | std (p : PCore) (h : Header) (g : BitVec 5) (reg : BitVec 6) (base : BitVec 4) (off : BitVec 16)
  /-- R205 STQ0 to STQ3. -/
  | stq (p : PCore) (h : Header) (g : BitVec 5) (q : BitVec 2) (reg : BitVec 6) (base : BitVec 4) (off : BitVec 16)
  /-- R205 STH0, STH1. -/
  | sth (p : PCore) (h : Header) (g : BitVec 5) (hi : Bool) (reg : BitVec 6) (base : BitVec 4) (off : BitVec 16)
  /-- R205 STV. -/
  | stv (p : PCore) (h : Header) (g : BitVec 5) (reg : BitVec 6) (base : BitVec 4) (off : BitVec 16)
  /-- R208 SENDV. -/
  | sendv (p : PCore) (h : Header) (g : BitVec 5) (cls : BitVec 2) (reg : BitVec 6) (target : BitVec 14) (doff : BitVec 15)
  /-- R208 SENDQ0 to SENDQ3. -/
  | sendq (p : PCore) (h : Header) (g : BitVec 5) (cls : BitVec 2) (reg : BitVec 6) (q : BitVec 2) (target : BitVec 14) (doff : BitVec 15)
  /-- R208 SENDW. -/
  | sendw (p : PCore) (h : Header) (g : BitVec 5) (cls : BitVec 2) (reg : BitVec 6) (target : BitVec 14) (doff : BitVec 15)
  /-- R211 WSENDV. -/
  | wsendv (p : PCore) (h : Header) (g : BitVec 5) (cls : BitVec 2) (reg : BitVec 6) (target : BitVec 14) (doff : BitVec 15)
  /-- R211 WSENDQ0 to WSENDQ3. -/
  | wsendq (p : PCore) (h : Header) (g : BitVec 5) (cls : BitVec 2) (reg : BitVec 6) (q : BitVec 2) (target : BitVec 14) (doff : BitVec 15)
  /-- R276 REDV. -/
  | redv (p : PCore) (h : Header) (g : BitVec 5) (cls : BitVec 2) (reg : BitVec 6) (target : BitVec 14)
  /-- R272 CIRCV. -/
  | circv (p : PCore) (h : Header) (g : BitVec 5) (cls : BitVec 2) (reg : BitVec 6) (target : BitVec 14) (doff : BitVec 15)
  /-- R290 STRM. -/
  | strm (p : PCore) (h : Header) (g : BitVec 5) (cls : BitVec 2) (reg : BitVec 6) (target : BitVec 14)
  /-- R307 SAECMD. -/
  | saecmd (p : PCore) (h : Header) (g : BitVec 5) (cls : BitVec 2) (reg : BitVec 6) (target : BitVec 14)
  /-- R327 WOPEN. -/
  | wopen (p : PCore) (h : Header) (g : BitVec 5) (reg : BitVec 6) (target : BitVec 14)
  /-- R212 WCLOSE. -/
  | wclose (p : PCore) (h : Header) (g : BitVec 5) (target : BitVec 14)
  /-- R336 RDMA. -/
  | rdma (p : PCore) (h : Header) (g : BitVec 5) (cls : BitVec 2) (reg : BitVec 6)
  /-- R217, R167: the boundary that ends the current tick. -/
  | tickBoundary
  /-- R221, R278 kind 0x3: the first cycle of the quiet window. -/
  | quietWindowStart
  /-- R231 to R238: the decision of cycle D. -/
  | lateDecision
  /-- R234: the check at D + STRETCH_LEN. -/
  | stretchCheck
  /-- R230: the cycle in which a core's stall sum first exceeds B + M. -/
  | marginFault (p : PCore)
  /-- R261: a flit at an arbitration point takes the first empty slot open to it. -/
  | arbitration (flit : Nat)
  /-- R262: an unscheduled flit past its seventh lap is dropped. -/
  | flitLapDrop (flit : Nat)
  /-- R257: a position of the site finds an error in the flit. -/
  | meshFlitError (flit : Nat) (site : Site) (kind : FlitError)
  /-- R268 step 1: firmware writes a route version into the inactive epoch. -/
  | routeVersionLoad (v : RouteVersion)
  /-- R268 step 2: a die steward checks the load against its check value. -/
  | tableLoadCheck (site : Site) (ok : Bool)
  /-- R268 step 3: the panel steward names a flip tick. -/
  | flipNotice (flipTick : BitVec 64)
  /-- R268 step 4: the boundary that starts the flip tick. -/
  | epochFlip
  /-- R268 step 6: HOLD reaches 0. -/
  | oldEpochHoldEnd
  /-- R272: a circuit's window opens in this tick. -/
  | circuitWindowOpen (circ : Nat)
  /-- R272: a circuit's window closes. -/
  | circuitWindowClose (circ : Nat)
  /-- R276: a RED flit arrives at a position with an entry for its tag. -/
  | redFlitArrival (flit : Nat)
  /-- R290, R296, R297: a stream descriptor arrives at a base die, which admits or refuses it. -/
  | streamDescriptor (flit : Nat)
  /-- R298: a refusal notice reaches its context. -/
  | refusalNotice (notice : Nat)
  /-- R292: the next granule of an admitted read stream lands. -/
  | streamGranuleLand (stream : Nat)
  /-- R292, R293: the next granule of an admitted write stream is read from the scratchpad. -/
  | writeGranuleReadout (stream : Nat)
  /-- R292, R293: a write granule arrives at the base die. -/
  | writeGranuleAccept (stream : Nat)
  /-- R299: the attach positions of a stack in service change. -/
  | attachLoss (stack : Stack)
  /-- R306: a steward's access to stack memory arrives at the base die; `data` is none for a read. -/
  | unscheduledStackAccess (cls : Fin 4) (addr len : Nat) (data : Option (List (BitVec 8)))
  /-- R306: the base die serves the next waiting access. -/
  | unscheduledAccessServe (stack : Stack)
  /-- R305: a bank is refreshed. -/
  | stackRefresh (stack : Stack)
  /-- R318: a region copy ends; `spareOk` is false when the spare failed during it. -/
  | regionCopyDone (stack : Stack) (spareOk : Bool)
  /-- R321: firmware declares a stack lost. -/
  | stackLost (stack : Stack)
  /-- R307, R314: an SAE command arrives at its base die, which admits or refuses it. -/
  | saeCommand (flit : Nat)
  /-- R314: the engine begins a command at its START cycle. -/
  | saeStart (cmd : Nat)
  /-- R312, R315: the next result granule is delivered. -/
  | saeResult (cmd : Nat)
  /-- R313: the command's context becomes DONE. -/
  | saeDone (cmd : Nat)
  /-- R287: host software writes PLS_MODE. -/
  | plsModeWrite (placed : Bool)
  /-- R331, R333: a wadi flit leaves its channel into the unscheduled-write buffer, or is dropped. -/
  | wadiFlitArrival (flit : Nat)
  /-- R331, R333: the oldest buffered unscheduled write of a core lands, or fails its second check. -/
  | wadiFlitLand (p : PCore)
  /-- R329: wadis whose EXPIRY tick has begun close. -/
  | wadiExpiry
  /-- R340: the destination's report of a remote DMA arrives. -/
  | rdmaReport (l : LCore) (slot : Fin 4)
  /-- R340: 2^25 cycles have passed since an RDMA's issue with no report. -/
  | rdmaTimeout (l : LCore) (slot : Fin 4)
  /-- R343: the sweep of core `k` of a site completes, or (none) of every core of the site that is still sweeping. -/
  | sweepComplete (site : Site) (k : Option (Fin 104))
  /-- R346: a core's sweep has not completed within 8,448 cycles. -/
  | sweepTimeout (p : PCore)
  /-- R348: every written region of a stack is swept. -/
  | stackSweepDone (stack : Stack)
  /-- R352, R353: a stream asks a check-value unit for a value. `expect` is the trailer's value when the unit receives. -/
  | cvuRequest (unit : Cvu) (node rseq : Nat) (mode : Fin 4) (crc64 : Bool) (expect : Option Nat)
  /-- R355: a stream ends; the unit posts its result over the stream's bytes. -/
  | cvuStreamEnd (unit : Cvu) (bytes : List (BitVec 8)) (abandoned : Bool)
  /-- R357: a write of ZFP_PORT_CTL with its ENABLE and MEDIUM. -/
  | portEnable (port : Port) (enable : Bool) (medium : BitVec 2)
  /-- R575, R578: CMD RETRAIN. -/
  | retrain (port : Port)
  /-- R357: CMD DISABLE. -/
  | disable (port : Port)
  /-- R358, R437, R572: a full training of a port (0 to 31) or Jisto link (32, 33) ends, with what its test found and the device number
  that the peer reported. -/
  | trainingComplete (link : Fin 34) (pass : Bool) (lanesOk : BitVec 8) (peer : BitVec 16)
  /-- R359, R437: lanes of a link fail; `lanesOk` are the good ones. -/
  | laneFailure (link : Fin 34) (lanesOk : BitVec 8)
  /-- R360 to R363: a DATA frame arrives over codewords that were corrected or could not be, with the fields of its header, and `body` the
  units and FCS that follow it (R361). -/
  | dataFrame (link : Fin 34) (corr uncorr : Nat) (seq ack : BitVec 12) (crclass : BitVec 2) (credits : BitVec 6) (cls : BitVec 2) (body : List (BitVec 8))
  /-- R360 to R362: an ACK frame arrives. -/
  | ackFrame (link : Fin 34) (corr uncorr : Nat) (frame : List (BitVec 8))
  /-- R360 to R363: a NAK arrives. -/
  | nakFrame (link : Fin 34) (frame : LineFrame)
  /-- R364: a frame has been resent 8 times. -/
  | portDown (link : Fin 34)
  /-- R371 to R375, R378, R388: a packet for another device, or for every device, leaves its ingress gateway. -/
  | transitPacket (rx : Nat)
  /-- R382: a packet that has been held past its limit is dropped. -/
  | packetAged (held : HeldPacket)
  /-- R389: a transit flit reaches its egress gateway. -/
  | transitReassembly (flit : Nat)
  /-- R389: a missing transit number is passed over. -/
  | transitGapTimeout (ingress egress : Gateway)
  /-- R392, R332, R393: a WRITE packet for this device. -/
  | writePacket (rx : Nat)
  /-- R394. -/
  | redPacket (rx : Nat)
  /-- R392, R393. -/
  | reportPacket (rx : Nat)
  /-- R395. -/
  | mgmtReq (rx : Nat)
  /-- R392. -/
  | mgmtResp (rx : Nat)
  /-- R392. -/
  | mgmtNote (rx : Nat)
  /-- R369: a write of ZFP_DEV_NUM. -/
  | devNumWrite (dev : BitVec 16)
  /-- R370, R380, R384: a write into a routing table window: a device's entry, or the broadcast entry of an input (32 local). -/
  | routeTableWrite (bcast : Bool) (index : Fin 65536) (value : BitVec 64)
  /-- R380 step 3: CMD COMMIT. -/
  | routeCommit
  /-- R380 step 4: CMD FLIP. -/
  | routeFlip
  /-- R380 step 5: the boundary of the flip tick. -/
  | zfpFlip
  /-- R381: the drain time of an ordering domain has passed since its last packet of the old epoch. -/
  | drainExpiry (dev : BitVec 16) (cls : Fin 4) (chan : BitVec 4)
  /-- R376, R378: a circuit entry meets its first tick, or has run its count. -/
  | circEntryActivate (entry : Fin 64)
  /-- R397: a write of ZFP_PAIR. -/
  | pairSet (enable : Bool) (portA portB : Port) (partner : BitVec 16)
  /-- R391: a port loses its link because the peer's gateway left service. -/
  | linkLoss (port : Port)
  /-- R407, R408: a codeword of a block is decoded; `stripe` is the group of a striped page. -/
  | codewordRead (chan : Chan) (block : Nat) (tier : ReadTier) (stripe : Option (Fin 4))
  /-- R409: patrol reads a page. -/
  | patrolRead (chan : Chan) (block : Nat) (tier : ReadTier) (stripe : Option (Fin 4))
  /-- R410: a block's valid data is to go into a free block. -/
  | blockRefresh (chan : Chan) (block : Nat) (work : RefreshWork)
  /-- R411: wear move within a LUN. -/
  | wearMove (chan : Chan) (lun : Nat)
  /-- R406, R413, R424: a program of a block ends, with its status, for the page of its channel in stripe `stripe` of its group; a data page takes up to
  `granules` of what waits. -/
  | programComplete (chan : Chan) (block : Nat) (ok : Bool) (stripe granules : Nat)
  /-- R411 to R413: an erase ends. -/
  | eraseComplete (chan : Chan) (block : Nat) (ok : Bool)
  /-- R417: a full half of side A (false) or B of the system area is copied forward. -/
  | systemAreaCopy (sideB : Bool)
  /-- R489: the base die that holds the mark granule reports a mark. -/
  | stepMark
  /-- R420, R489: the boundary at which the next requested step closes. -/
  | stepClose
  /-- R422, R423, R507: the stack steward drains a ring's oldest granules. -/
  | stagingDrain (stack : Stack) (n : Nat)
  /-- R425. -/
  | deltaCommit
  /-- R429. -/
  | snapshotCommit
  /-- R431: the restore ends; `uncorr` says that a codeword failed tier 4, `check` that every STACK_CHECK matched. -/
  | restoreDone (uncorr check : Bool)
  /-- R432. -/
  | imageCommit
  /-- R434, R435: a target, or (none) a whole channel, leaves service. -/
  | channelOut (chan : Chan) (target : Option (Fin 8))
  /-- R439, R660: a host write arrives on a link, or a transaction of no TYPE. -/
  | mwr (link : HostLink) (head : HostHead) (data : List (BitVec 8))
  /-- R439, R660: a host read. -/
  | mrd (link : HostLink) (head : HostHead)
  /-- R454, R660: a host completion. -/
  | hostCpl (link : HostLink) (head : HostHead) (data : List (BitVec 8))
  /-- R445, R446: a write of HIF_QDB.TAIL. -/
  | doorbell (q : Queue) (tail : BitVec 12)
  /-- R447: the device takes the slot at HEAD. -/
  | slotTake (q : Queue)
  /-- A write of HIF_QCTL (12). -/
  | hifQctlWrite (q : Queue) (value : BitVec 32)
  /-- R451: the queue's NOP begins. -/
  | queueNop (q : Queue)
  /-- R463: the queue's START begins. `desc` is the job descriptor and `image` the program image as the host's reads return them,
  none where the host answers an error; `fitPass` is the verdict of the fit test of R44, and `left` the margin it leaves. -/
  | start (q : Queue) (desc image : Option (List (BitVec 8))) (fitPass : Bool) (left : Nat)
  /-- R661: the START whose turn it is begins. -/
  | startBegin (desc image : Option (List (BitVec 8))) (fitPass : Bool) (left : Nat)
  /-- R465: the device takes the slot at HEAD, which holds an ABORT, and acts on it. -/
  | abort (q : Queue)
  /-- R453: the queue's COPY begins. -/
  | copy (q : Queue)
  /-- R451: the queue's SNAPSHOT begins. -/
  | snapshot (q : Queue)
  /-- R451, R432: the queue's IMAGE_WRITE begins; `image` is the program image and `extents` each extent's stack address and bytes,
  none where the host answers a read with an error. -/
  | imageWrite (q : Queue) (image : Option (List (BitVec 8))) (extents : Option (List (Nat × List (BitVec 8))))
  /-- R463 step 7: the boundary that ends the job's last tick. -/
  | jobDrain
  /-- R463 step 8: every result extent has been copied. -/
  | resultCopyDone
  /-- R468. -/
  | abortSweepDeadline
  /-- R444: the other gateway takes over a lost home gateway's queues. -/
  | queueTakeover (gw7 : Bool)
  /-- R454: the transfer under a tag has found no link UP for 100 ms. -/
  | hostLinkWaitTimeout (tag : BitVec 16)
  /-- R470. -/
  | mbxLockRead (m : Mbx) (agent : Nat)
  /-- R471. -/
  | mbxLockWrite (m : Mbx) (agent value : Nat)
  /-- R471, R472. -/
  | mbxDbWrite (m : Mbx) (agent service : Nat)
  /-- R472, R474. -/
  | mbxAckWrite (m : Mbx) (agent : Nat) (rcode : BitVec 16)
  /-- R471. -/
  | mbxDataWrite (m : Mbx) (agent : Nat) (w : Fin 16) (value : BitVec 32)
  /-- R475: an owner is dead, or both links of host software are down. -/
  | mbxForced (agent : Nat)
  /-- R476. -/
  | echo (m : Mbx)
  /-- R476. -/
  | version (m : Mbx)
  /-- R476. -/
  | overrun (m : Mbx)
  /-- R493: `desc` is the group descriptor as the host's reads return it, none where the host answers an error. -/
  | groupSet (m : Mbx) (desc : Option (List (BitVec 8)))
  /-- R493. -/
  | groupLeave (m : Mbx)
  /-- R586: what BIST finds. -/
  | selftest (m : Mbx) (found : List BistFailure)
  /-- R583, R586. -/
  | dietest (m : Mbx)
  /-- R585: what the test found, and whether the die's four links retrain. -/
  | dieTestEnd (found : List BistFailure) (linksOk : Bool)
  /-- R603, R609. -/
  | ident (m : Mbx)
  /-- R610, R611. -/
  | attest (m : Mbx)
  /-- R605: the image's 128-byte header as the host's reads return it (none: an error), whether the rest came, its measurement, and whether SHA-384 of PUBKEY
  equals KEANOV_KEY in slot KEY and the signature verifies (R597). -/
  | fwUpdate (m : Mbx) (header : Option (List (BitVec 8))) (whole : Bool) (digest : List (BitVec 8)) (keyOk sigOk : Bool)
  /-- R607: as FW_UPDATE, with the owner key in place of a Keanov key. -/
  | extLoad (m : Mbx) (header : Option (List (BitVec 8))) (whole : Bool) (digest : List (BitVec 8)) (keyOk sigOk : Bool)
  /-- R603. -/
  | extUnload (m : Mbx)
  /-- R603, R606. -/
  | ownerEnroll (m : Mbx)
  /-- R612. -/
  | debugChallenge (m : Mbx)
  /-- R612, R613: the token's 128 bytes as the host's reads return it (none: an error), and whether its key hash and signature verify. -/
  | debugUnlock (m : Mbx) (token : Option (List (BitVec 8))) (keyOk sigOk : Bool)
  /-- R608: the extension in this slot breaks a limit, or misses its watchdog. -/
  | extFault (slot : Fin 4)
  /-- R478: the watchdog of the steward with this agent number (R469) expires. -/
  | stewardWdt (agent : Nat)
  /-- R479. -/
  | panelStewardSilence
  /-- R495: a beacon period ends. -/
  | beaconPeriod
  /-- R495: the waiting packet `rx`, a BEACON, is taken in. The same operand names the packet of the ten rows of R496's sub-kinds. -/
  | beacon (rx : Nat)
  /-- R497: a neighbour has been silent for SILENCE periods. -/
  | beaconSilence (rank : Nat)
  /-- R497, R498. -/
  | suspect (rx : Nat)
  /-- R498 step 2. -/
  | propose (rx : Nat)
  /-- R498 step 3. -/
  | ack (rx : Nat)
  /-- R498 step 4, R501. -/
  | commit (rx : Nat)
  /-- R486. -/
  | fenced (rx : Nat)
  /-- R498, R488. -/
  | join (rx : Nat)
  /-- R498, R502. -/
  | leave (rx : Nat)
  /-- R498, R502. -/
  | rewind (rx : Nat)
  /-- R504, R507. -/
  | gstep (rx : Nat)
  /-- R507 step 3. -/
  | stepLog (rx : Nat)
  /-- R507 step 4. -/
  | apply (rx : Nat)
  /-- R499: 2 ms after its PROPOSE. -/
  | proposeTimeout
  /-- R499: 2 ms after a SUSPECT. -/
  | suspectRetry
  /-- R499: 4 ms after a SUSPECT. -/
  | suspectTimeout
  /-- R505. -/
  | stragglerCheck (rank : Nat)
  /-- R510: an unanswered C0 request is 100 µs old. -/
  | c0RequestTimeout (n : Nat)
  /-- R511: the input stands at this voltage, in units of 10 mV, long enough for R511 to act. -/
  | inputVoltageEvent (volts : BitVec 16)
  /-- R511: 5 ms after the input fell below 50 V. -/
  | stage1Stop
  /-- R511: the input has been within 54 to 64 V for 1 s. -/
  | inputRecovery
  /-- R513: input power in W averaged over the last 1 s and the last 10 ms, the highest 10 ms average of the last 1 s, the input current in units of 10 mA, and the energy since the last sample in mJ. -/
  | powerSample (avg1s avg10ms max10ms iin : BitVec 16) (mj : Nat)
  /-- R520. -/
  | droopTrip (site : Site) (sensor : Fin 64)
  /-- R521 to R524: the erg's measured current in the window that ends, in A, its lowest sensor reading in mV, its bus in mV and stage-1 current in 10 mA, and its sensors' droops. -/
  | forecastWindow (erg : Erg) (current vmin vbus iin : Nat) (droops : List Droop)
  /-- R526, R528. -/
  | controllerFail (erg : Erg) (ctrl : Fin 4)
  /-- R527. -/
  | deratedMigration
  /-- R529. -/
  | ergShort (erg : Erg)
  /-- R535: the input (false A, true B) is lost. -/
  | refclkLoss (b : Bool)
  /-- R535: the input has been good for 100 ms. -/
  | refclkReturn (b : Bool)
  /-- R536. -/
  | pllLockLoss (g : Gateway)
  /-- R538, R540: a die's compute domain loses its primary; `secGood` tells whether its secondary delivers clock, and `links` which links do. -/
  | primaryClockLoss (site : Site) (secGood : Bool) (links : BitVec 4)
  /-- R537, R539, R542: the new plan (site, primary, secondary, none when it has a primary only). -/
  | clockPlanRelay (plan : List (Nat × Nat × Option Nat))
  /-- R541. -/
  | clockReturn (site : Site) (links : BitVec 4)
  /-- R543: a write of CLK_STEP. -/
  | stepRequest (value : BitVec 32)
  /-- R544 steps 1 and 2, R545, R546. -/
  | stepChangeRequest
  /-- R544 steps 3 and 4. -/
  | stepChange
  /-- R547 to R549: the junctions of every die that has any. -/
  | thermalForecast (junctions : List Junction)
  /-- R547: the measured junction of this die (stack PSn as 144 + n) reaches its trip level. -/
  | thermalTrip (unit : Fin 160) (tj : BitVec 8)
  /-- R555. -/
  | ergUnpark (erg : Erg)
  /-- R550. -/
  | rotationInterval
  /-- R557: the sensors' readings in units of 0.5 °C, none for one that does not answer. -/
  | waterSample (inlet outlet : Option (BitVec 8))
  /-- R559. -/
  | coldStart (facts : StartFacts)
  /-- R567: the entries that change (kind and index, lane, bytes 4 to 15). -/
  | settingsWrite (entries : List (Nat × Nat × List (BitVec 8)))
  /-- R574, R575: the live retrain of a port (0 to 31), a Jisto link (32, 33) or a NAND channel (64 + channel) ends; `pass` tells whether it qualifies and
  `fullPass` whether the single full training after a failure does. -/
  | retrainDone (link : Fin 96) (pass fullPass : Bool) (lanesOk : BitVec 8) (peer : BitVec 16)
  /-- R576: firmware retrains the D2D link at this end (0 north, 1 east, 2 south, 3 west); its bit errors. -/
  | d2dRetrain (site : Site) (dir : Fin 4) (pass : Bool) (errors : BitVec 16)
  /-- R579: the die's steward image and its MEMORY BIST. -/
  | computeResetDone (site : Site) (imageOk bistOk : Bool)
  /-- R582. -/
  | computeResetTimeout (site : Site)
  /-- R588, R589: the sending gateway opens a transfer of an object to receivers (site s as s, stack PSn as 144 + n), of which `heard` hear the announce; a code image has its number in the program. -/
  | bcastAnnounce (g : Gateway) (obj : BitVec 8) (image : Nat) (object : List (BitVec 8)) (sites plos heard : List Nat)
  /-- R588: a data packet as it reaches a receiver. -/
  | bcastData (g : Gateway) (unit : Fin 160) (num : BitVec 15) (bytes : List (BitVec 8))
  /-- R590: an end packet reaches a receiver. -/
  | bcastEnd (g : Gateway) (unit : Fin 160)
  /-- R590: a receiver's report reaches the sender. -/
  | bcastReport (g : Gateway) (unit : Fin 160)
  /-- R591, R592: 200 µs after the end. -/
  | reportWaitExpiry (g : Gateway)
  /-- R616, R617: an activity serves this much of its work, of the most-behind unit. For scrub (0), `unit` is the physical core that it reads, with the
  scratchpad granule, or 32,768 and the bundle; for stack patrol scrub (4), the stack, with the stack-local granule. -/
  | backgroundUnit (act : Fin 7) (served unit granule : Nat)
  /-- R621: an activity's period ends; `unit` is its most-behind unit, and `work` the work of the new period for it. -/
  | periodEnd (act : Fin 7) (unit : BitVec 16) (work : Nat)
  /-- R623: a write of 1 to the OVF flag of the register at this offset. -/
  | ovfClear (a : RegAccess)
  /-- R625. -/
  | lowWordRead (a : RegAccess)
  /-- R626. -/
  | lowWordWrite (a : RegAccess) (value : BitVec 32)
  /-- R626. -/
  | highWordWrite (a : RegAccess) (value : BitVec 32)
  /-- R632: the oldest EVENT flit on its way reaches the active panel steward. -/
  | eventFlit
  /-- R629. -/
  | eventWrite
  /-- R627. -/
  | evqCtlWrite (value : BitVec 32)
  /-- R627. -/
  | evqHeadWrite (value : BitVec 32)
  /-- R9 to R14. -/
  | registerWrite (a : RegAccess) (value : BitVec 32)
  /-- R649: the bus address and command code. -/
  | smbusBlockRead (addr : BitVec 7) (code : BitVec 8)
  /-- R649. -/
  | smbusWrite (addr : BitVec 7) (code : BitVec 8) (bytes : List (BitVec 8))
  /-- R645: the carrier of this bay is removed. -/
  | carrierRemoved (bay : Fin 8)
  /-- R645. -/
  | carrierInserted (bay : Fin 8)
  /-- R536. -/
  | pllRelock (g : Gateway)
  /-- R478: the steward with this agent number (R469) is back from its restart; of the cores whose faults it reports, `bad` fail their self-checks (R100). -/
  | stewardRestartDone (agent : Nat) (bad : List PCore)
  deriving DecidableEq, Repr

end Sys2Proof
end

