-- ==== Sys2Proof/Machine/Tab.lean ====
section
/-! DEFINITION. Sparse tables in one sorted form, and byte memory in its canonical form. -/

namespace Sys2Proof.Machine

/-- A sparse table: pairs of a key and a value, keys strictly rising. A key that is not listed holds
the table's default, which is the reset value of what the table holds. -/
abbrev Tab (α : Type) := List (Nat × α)

/-- The value at key `k`; `d` when `k` is not listed. -/
def tget {α : Type} (d : α) : Tab α → Nat → α
  | [], _ => d
  | (k', v) :: r, k => if k' = k then v else tget d r k

/-- List `v` at key `k`, in place of what was listed there. -/
def tput {α : Type} : Tab α → Nat → α → Tab α
  | [], k, v => [(k, v)]
  | (k', v') :: r, k, v =>
    if k < k' then (k, v) :: (k', v') :: r
    else if k = k' then (k, v) :: r
    else (k', v') :: tput r k v

/-- Drop key `k`. -/
def tdel {α : Type} : Tab α → Nat → Tab α
  | [], _ => []
  | (k', v') :: r, k => if k' = k then r else (k', v') :: tdel r k

/-- Write `v` at `k` and keep the canonical form: a default value is not listed. -/
def mset {α : Type} [DecidableEq α] (d : α) (t : Tab α) (k : Nat) (v : α) : Tab α :=
  if v = d then tdel t k else tput t k v

/-- Apply `f` to the value at `k`. -/
def tmod {α : Type} (d : α) (t : Tab α) (k : Nat) (f : α → α) : Tab α := tput t k (f (tget d t k))

/-- Whether key `k` is listed. -/
def tmem {α : Type} : Tab α → Nat → Bool
  | [], _ => false
  | (k', _) :: r, k => k' == k || tmem r k

/-- The listed value at `k`, when there is one. -/
def tfind {α : Type} : Tab α → Nat → Option α
  | [], _ => none
  | (k', v) :: r, k => if k' = k then some v else tfind r k

/-- Apply `f` to every listed value. -/
def tmap {α : Type} (f : Nat → α → α) : Tab α → Tab α
  | [] => []
  | (k, v) :: r => (k, f k v) :: tmap f r

/-- Keep the listed entries that satisfy `p`. -/
def tfilter {α : Type} (p : Nat → α → Bool) : Tab α → Tab α
  | [] => []
  | (k, v) :: r => if p k v then (k, v) :: tfilter p r else tfilter p r

/-- The `n` keys from `k` on, each listed with its value in a table changed by `f`. -/
def tfillIn {α : Type} (d : α) (f : Nat → α → α) : Nat → Nat → Tab α → Tab α
  | 0, _, _ => []
  | n + 1, k, t => (k, f k (tget d t k)) :: tfillIn d f n (k + 1) t

/-- Change the values of the `n` keys from `lo` on, and list them all. -/
def tfill {α : Type} (d : α) (f : Nat → α → α) (lo n : Nat) (t : Tab α) : Tab α :=
  tfilter (fun k _ => decide (k < lo)) t ++
  tfillIn d f n lo (tfilter (fun k _ => decide (lo ≤ k) && decide (k < lo + n)) t) ++
  tfilter (fun k _ => decide (lo + n ≤ k)) t

/-- Keys strictly rising from `lo` on, and no listed value equal to the default. -/
def wfFrom {α : Type} [DecidableEq α] (d : α) : Nat → Tab α → Bool
  | _, [] => true
  | lo, (k, v) :: r => decide (lo ≤ k) && !decide (v = d) && wfFrom d (k + 1) r

/-- The canonical form of a table whose default is `d`. -/
def twf {α : Type} [DecidableEq α] (d : α) (t : Tab α) : Bool := wfFrom d 0 t

/-- Byte memory. An address that is not listed reads as zero. -/
abbrev Memory := Tab (BitVec 8)

/-- What a byte that nothing has written reads as (DESIGN CHOICE, log entry 3: the sweeps of 09 write zeros). -/
def Memory.blank : BitVec 8 := 0#8

/-- The canonical form of a memory. -/
def Memory.wf (m : Memory) : Bool := twf Memory.blank m

/-- One byte of memory. -/
def Memory.read (m : Memory) (a : Nat) : BitVec 8 := tget Memory.blank m a

/-- Write one byte of memory, keeping the canonical form. -/
def Memory.write (m : Memory) (a : Nat) (b : BitVec 8) : Memory := mset Memory.blank m a b

/-- Write consecutive bytes from `a` on. -/
def Memory.writeBytes (m : Memory) (a : Nat) : List (BitVec 8) → Memory
  | [] => m
  | b :: bs => Memory.writeBytes (Memory.write m a b) (a + 1) bs

/-- Read `n` consecutive bytes from `a` on. -/
def Memory.readBytes (m : Memory) (a : Nat) : Nat → List (BitVec 8)
  | 0 => []
  | n + 1 => Memory.read m a :: Memory.readBytes m (a + 1) n

/-- Drop every byte from `lo` up to, not including, `hi`: they read as zero again. -/
def Memory.clear (m : Memory) (lo hi : Nat) : Memory := tfilter (fun k _ => decide (k < lo) || decide (hi ≤ k)) m

/-- The little-endian value of a list of bytes (R6). -/
def leNat : List (BitVec 8) → Nat
  | [] => 0
  | b :: bs => b.toNat + 256 * leNat bs

/-- The `n` little-endian bytes of a value (R6). -/
def leBytes : Nat → Nat → List (BitVec 8)
  | 0, _ => []
  | n + 1, v => BitVec.ofNat 8 v :: leBytes n (v / 256)

/-- Byte `i` of a list, zero past its end. -/
def byteAt : List (BitVec 8) → Nat → BitVec 8
  | [], _ => 0#8
  | b :: _, 0 => b
  | _ :: bs, i + 1 => byteAt bs i

/-- The little-endian field of `n` bytes at offset `o` of a descriptor (R6). -/
def leField (bs : List (BitVec 8)) (o n : Nat) : Nat := leNat ((bs.drop o).take n)

/-- Bits `[lo + n - 1 : lo]` of a natural number. -/
def bitsOf (x lo n : Nat) : Nat := x / 2 ^ lo % 2 ^ n

/-- Bit `i` of a natural number. -/
def bitOf (x i : Nat) : Bool := x / 2 ^ i % 2 == 1

/-- One bit as a number. -/
def b2n (b : Bool) : Nat := if b then 1 else 0

end Sys2Proof.Machine
end

