-- ==== Sys2Proof/Machine/Geometry.lean ====
section
/-! DEFINITION. Where things are: sites, ergs, gateways, stacks, cores, positions and distances (01, 07). -/

namespace Sys2Proof.Machine

open Sys2Proof

/-- Column of a site (R22). -/
def siteX (s : Nat) : Nat := s % 12
/-- Row of a site (R22). -/
def siteY (s : Nat) : Nat := s / 12
/-- The erg of a site (R24). -/
def ergOf (s : Nat) : Nat := 4 * (siteY s / 3) + siteX s / 3
/-- Hops between two sites (R23). -/
def hops (a b : Nat) : Nat := ((siteX a : Int) - siteX b).natAbs + ((siteY a : Int) - siteY b).natAbs

/-- The site of gateway `g` (R25). -/
def gwSite (g : Nat) : Nat :=
  match g with
  | 0 => 13
  | 1 => 19
  | 2 => 52
  | 3 => 58
  | 4 => 85
  | 5 => 91
  | 6 => 124
  | _ => 130

/-- The gateway at a site, if there is one (R25). -/
def gwAt (s : Nat) : Option Nat := (List.range 8).find? fun g => gwSite g == s

/-- Whether a site is a gateway site. -/
def isGw (s : Nat) : Bool := (gwAt s).isSome

/-- The attach sites of a stack (R26). -/
def attachSites (n : Nat) : List Nat :=
  if n < 4 then [3 * n, 3 * n + 1, 3 * n + 2]
  else if n < 8 then let k := n - 4; [12 * (3 * k) + 11, 12 * (3 * k + 1) + 11, 12 * (3 * k + 2) + 11]
  else if n < 12 then let k := n - 8; [132 + 9 - 3 * k, 132 + 10 - 3 * k, 132 + 11 - 3 * k]
  else let k := n - 12; [12 * (9 - 3 * k), 12 * (10 - 3 * k), 12 * (11 - 3 * k)]

/-- The stacks a site attaches to, in rising order (R26, GLB_SITE_INFO of R62). -/
def stacksAt (s : Nat) : List Nat := (List.range 16).filter fun n => (attachSites n).contains s

/-- The stacks an erg borders (R24): those whose attach sites lie in it. -/
def stacksOfErg (e : Nat) : List Nat := (List.range 16).filter fun n => (attachSites n).any fun s => ergOf s == e

/-- The sites of an erg. -/
def ergSites (e : Nat) : List Nat := (List.range 144).filter fun s => ergOf s == e

/-- Site of a physical core (R33). -/
def pSite (p : Nat) : Nat := p / 104
/-- Core index k within the die (R95). -/
def pIdx (p : Nat) : Nat := p % 104
/-- Row of a physical core. -/
def pRow (p : Nat) : Nat := p % 104 / 13
/-- Physical column of a physical core. -/
def pCol (p : Nat) : Nat := p % 13
/-- Physical core id (R33). -/
def pcoreAt (site row col : Nat) : Nat := 104 * site + 13 * row + col

/-- Logical die of a logical core (R32). -/
def lDie (l : Nat) : Nat := l / 96
/-- Row of a logical core (R32). -/
def lRow (l : Nat) : Nat := l % 96 / 12
/-- Logical column of a logical core (R32). -/
def lCol (l : Nat) : Nat := l % 12

/-- The physical column of a logical column when the row rests at `r` (R34). -/
def physCol (r c : Nat) : Nat := if c < r then c else c + 1

/-- Global column P of a core's position (R249). -/
def posP (p : Nat) : Nat := 13 * siteX (pSite p) + pCol p
/-- Global row Q of a core's position (R249). -/
def posQ (p : Nat) : Nat := 8 * siteY (pSite p) + pRow p
/-- The number of position (P, Q). -/
def posOf (P Q : Nat) : Nat := 156 * Q + P
/-- The site that holds a position. -/
def siteOfPos (x : Nat) : Nat := 12 * (x / 156 / 8) + x % 156 / 13
/-- The physical core beside a position, which names no core at a gateway site (R33). -/
def pcoreOfPos (x : Nat) : Nat := pcoreAt (siteOfPos x) (x / 156 % 8) (x % 156 % 13)
/-- The position of a physical core. -/
def posOfPcore (p : Nat) : Nat := posOf (posP p) (posQ p)

/-- Eastbound distance of column P from the west end: positions, D2D crossings and seif crossings (R251). -/
def distE (P : Nat) : Nat := P + 4 * (P / 13) + 2 * (P / 13 + (if 6 < P % 13 then 1 else 0))
/-- Southbound distance of row Q from the north end. -/
def distS (Q : Nat) : Nat := Q + 4 * (Q / 8)

/-- The channel a flit leaves position (P, Q) on in direction `d`: 2Q + west for rows, 192 + 2P + north for columns. -/
def chanOf (d : Dir) (P Q : Nat) : Nat :=
  match d with
  | .east => 2 * Q
  | .west => 2 * Q + 1
  | .south => 192 + 2 * P
  | .north => 192 + 2 * P + 1
  | .local => 0

/-- Distance of position (P, Q) from the origin of its channel in direction `d` (R252, R258). -/
def distOn (d : Dir) (P Q : Nat) : Nat :=
  match d with
  | .east => distE P
  | .west => 223 - distE P
  | .south => distS Q
  | .north => 139 - distS Q
  | .local => 0

/-- Length of the ring a direction belongs to (R252). -/
def ringLen (d : Dir) : Nat :=
  match d with
  | .east => 448
  | .west => 448
  | _ => 288

/-- The neighbour of (P, Q) in direction `d`, none at the panel's edge. -/
def stepDir (d : Dir) (P Q : Nat) : Option (Nat × Nat) :=
  match d with
  | .east => if P < 155 then some (P + 1, Q) else none
  | .west => if 0 < P then some (P - 1, Q) else none
  | .south => if Q < 95 then some (P, Q + 1) else none
  | .north => if 0 < Q then some (P, Q - 1) else none
  | .local => none

/-- Device-local address of the panel control space (R19). -/
def ctlBase : Nat := 0x7F0000000000
/-- Length of the panel control space (R19). -/
def ctlSize : Nat := 0x4000000
/-- Whether `n` bytes at `a` touch the panel control space. -/
def inCtl (a n : Nat) : Bool := decide (a < ctlBase + ctlSize) && decide (ctlBase < a + n)

/-- Offset of a die window (R19). -/
def dieWin (site : Nat) : Nat := 0x1000000 + 0x10000 * site
/-- Offset of a stack window (R19). -/
def stackWin (st : Nat) : Nat := 0x2000000 + 0x40000 * st
/-- Offset of a core's registers (R95). -/
def coreWin (p : Nat) : Nat := dieWin (pSite p) + 0x1000 + 0x200 * pIdx p

/-- Node code of non-core node `u` at a site (R254). -/
def nodeAt (site u : Nat) : Nat := 0x3000 + 16 * site + u
/-- Node code of a base die (R254). -/
def nodeOfStack (n : Nat) : Nat := 0x3C00 + n

/-- Stack and stack-local offset of a stack address, by the mode in force (R286). -/
def stackAddr (placed : Bool) (a : Nat) : Nat × Nat :=
  if placed then (a / 0x1800000000, a % 0x1800000000)
  else (a / 4096 % 16, a / 65536 * 4096 + a % 4096)

end Sys2Proof.Machine
end

