-- ==== Sys2Proof/Config.lean ====
section
/-! DEFINITION. What a part fixes and what the spec leaves open. Every constant here has no body: nothing
can evaluate it, and a statement that meets one holds for every value of it. -/

namespace Sys2Proof.Config

/-- Silicon stepping of the panel, "Per part" (R62). -/
opaque stepping : BitVec 8

/-- The vector unit's result for a special function (`op` is its opcode, R197) on an input for which R118
lists no exact result; R118 bounds its error only. Log entry 10. -/
opaque specialFn : Nat → BitVec 32 → BitVec 32

/-- A stack attention engine's exponential of the difference of two FP32 values, which R311 states only to the accuracy of
R118. Log entry 11. -/
opaque saeExp : BitVec 32 → BitVec 32 → BitVec 32

/-- Whether the row shift stage at a position costs 1 cycle or 0 (R38, R251), by the position and the rest position of its row, which alone
move it (R128). Log entry 12. -/
opaque shiftStage : Nat → Nat → Bool

/-- Whether a stream read returns a granule's old contents, where R294 leaves old or new open. The
arguments are the stream number and the granule number. Log entry 13. -/
opaque readsOld : Nat → Nat → Bool

/-- A byte that a unit computes by a rule whose value the spec does not state (a digest, a MAC, a signature,
a random challenge). The arguments name the use and the byte. Log entry 14. -/
opaque secretByte : Nat → Nat → BitVec 8

/-- The per-part identity bytes held in fuses (R595, R609): the argument numbers the byte. Log entry 15. -/
opaque fuseByte : Nat → BitVec 8

/-- The setpoint fused for a frequency step, in mV (R517), which gives a range only. Log entry 16. -/
opaque setpoint : Nat → Nat

/-- The base current of a core and its tensor current per load level, in mA, by frequency step (R521): fused per part. Log entry 16. -/
opaque baseCurrent : Nat → Nat
opaque tensorCurrent : Nat → Nat

/-- How many phases a forecast current in mA needs, and the feed-forward offset in mV that a step from one forecast to the next calls for
(R522), which the spec does not state. Log entry 16. -/
opaque phasesFor : Nat → Nat
opaque feedForward : Nat → Nat → Nat

/-- The fused peak current of the die at a site, in A, in a role (coded as SITE_ROLE) and at a frequency step (R527). Log entry 16. -/
opaque peakCurrent : Nat → Nat → Nat → Nat

/-- Which of every 8 cycles a stretched half-die swallows when it swallows `k` of them (R244), by half-die and `k`. Log entry 223. -/
opaque swallowed : Nat → Nat → BitVec 8

/-- The identifier in a codeword's TAG (R405), by kind, object and step, which the spec does not state; the byte `i` of the LDPC parity over some bytes
(R404), whose code it does not give. Log entry 253. -/
opaque nvmId : Nat → Nat → Nat → BitVec 56
opaque ldpcByte : List (BitVec 8) → Nat → BitVec 8

/-- Byte `i` of a table of the system area of a type (R415), whose layout the spec does not state. Log entry 254. -/
opaque tableByte : Nat → Nat → BitVec 8

end Sys2Proof.Config
end

