-- ==== Sys2Proof/Machine/Arith.lean ====
section
/-! DEFINITION. The arithmetic of 03_number_formats (R101 to R126): every format's values, one exact result
and one explicit rounding at the end. -/

namespace Sys2Proof.Machine

/-- The rounding modes of R116, with the codes of R146. -/
inductive Rm where | rne | rtz | rup | rdn
  deriving DecidableEq, Repr

/-- The RM field (R146). -/
def Rm.ofCode (c : BitVec 2) : Rm :=
  if c = 0#2 then .rne else if c = 1#2 then .rtz else if c = 2#2 then .rup else .rdn

/-- An exact value: not a number, an infinity, or plus or minus `m * 2 ^ e` (R102, R103). -/
inductive Fv where
  | nan
  | inf (neg : Bool)
  | fin (neg : Bool) (m : Nat) (e : Int)
  deriving DecidableEq, Repr

/-- A rounding target: precision with the hidden bit, the exponent of its least subnormal, the exponent of
the last place in its top binade, and the largest significand there (R101). -/
structure FpFmt where
  p : Nat
  emin : Int
  qmax : Int
  mMax : Nat
  deriving DecidableEq, Repr

def FpFmt.f32 : FpFmt := ⟨24, -149, 104, 16777215⟩
def FpFmt.bf16 : FpFmt := ⟨8, -133, 120, 255⟩
def FpFmt.e4m3 : FpFmt := ⟨4, -9, 5, 14⟩
def FpFmt.e5m2 : FpFmt := ⟨3, -16, 13, 7⟩
def FpFmt.e3m2 : FpFmt := ⟨3, -4, 2, 7⟩
def FpFmt.e2m3 : FpFmt := ⟨4, -3, -1, 15⟩
def FpFmt.e2m1 : FpFmt := ⟨2, -1, 1, 3⟩

/-- The number of significant bits of `m`. -/
def bitLen (m : Nat) : Nat := if m = 0 then 0 else Nat.log2 m + 1

/-- `m * 2 ^ e` in whole units of `2 ^ q`, rounded in mode `rm`; `neg` is the sign of the value. -/
def roundQ (rm : Rm) (neg : Bool) (m : Nat) (e q : Int) : Nat :=
  if q ≤ e then m * 2 ^ (e - q).toNat
  else
    let d := (q - e).toNat
    if m = 0 then 0
    else if d > bitLen m + 1 then
      match rm with
      | .rne => 0
      | .rtz => 0
      | .rup => if neg then 0 else 1
      | .rdn => if neg then 1 else 0
    else
      let f := m / 2 ^ d
      let r := m % 2 ^ d
      let up : Bool := match rm with
        | .rne => decide (r > 2 ^ (d - 1)) || (decide (r = 2 ^ (d - 1)) && f % 2 == 1)
        | .rtz => false
        | .rup => decide (r ≠ 0) && !neg
        | .rdn => decide (r ≠ 0) && neg
      f + b2n up

/-- Round to a format with no upper limit on the exponent: the significand and the exponent of its last place. -/
def roundUnbounded (f : FpFmt) (rm : Rm) (neg : Bool) (m : Nat) (e : Int) : Nat × Int :=
  let q := max (e + (bitLen m : Int) - f.p) f.emin
  let m' := roundQ rm neg m e q
  if m' = 2 ^ f.p then (2 ^ (f.p - 1), q + 1) else (m', q)

/-- The magnitude code (exponent and mantissa fields) of a rounded value, or none when it lies beyond the
format's largest finite magnitude. -/
def magCode (f : FpFmt) (rm : Rm) (neg : Bool) (m : Nat) (e : Int) : Option Nat :=
  if m = 0 then some 0
  else
    let r := roundUnbounded f rm neg m e
    if r.2 > f.qmax ∨ (r.2 = f.qmax ∧ r.1 > f.mMax) then none
    else if r.1 < 2 ^ (f.p - 1) then some r.1
    else some ((r.2 - f.emin + 1).toNat * 2 ^ (f.p - 1) + (r.1 - 2 ^ (f.p - 1)))

/-- The magnitude code of the largest finite value. -/
def maxCode (f : FpFmt) : Nat := (f.qmax - f.emin + 1).toNat * 2 ^ (f.p - 1) + (f.mMax - 2 ^ (f.p - 1))

/-- A mode that rounds away from the infinity of that sign (R119). -/
def awayFromInf (rm : Rm) (neg : Bool) : Bool :=
  match rm with
  | .rne => false
  | .rtz => true
  | .rup => neg
  | .rdn => !neg

/-- The value of a code with `eb` exponent bits and `mb` mantissa bits and no reserved encoding (R102). -/
def finVal (eb mb : Nat) (bias : Int) (x : Nat) : Fv :=
  let s := bitOf x (eb + mb)
  let ex := bitsOf x mb eb
  let mt := bitsOf x 0 mb
  if ex = 0 then .fin s mt (1 - bias - mb) else .fin s (2 ^ mb + mt) ((ex : Int) - bias - mb)

/-- The value of a code whose all-ones exponent holds the infinities and the NaNs (R103). -/
def ieeeVal (eb mb : Nat) (bias : Int) (x : Nat) : Fv :=
  if bitsOf x mb eb = 2 ^ eb - 1 then
    if bitsOf x 0 mb = 0 then .inf (bitOf x (eb + mb)) else .nan
  else finVal eb mb bias x

/-- The value of an FP32 bit pattern. -/
def f32Val (x : BitVec 32) : Fv := ieeeVal 8 23 127 x.toNat

/-- The value of an E4M3 code, whose only reserved code is S.1111.111 (R103). -/
def e4m3Val (x : Nat) : Fv := if bitsOf x 0 7 = 127 then .nan else finVal 4 3 7 x

/-- A signed integer as an exact value with last place `2 ^ e`. -/
def intVal (i : Int) (e : Int) : Fv := .fin (decide (i < 0)) i.natAbs e

/-- The signed value of the low `n` bits. -/
def signedOf (x n : Nat) : Int := if bitOf x (n - 1) then (bitsOf x 0 n : Int) - 2 ^ n else bitsOf x 0 n

/-- The NaN the device writes in FP32 (R103, R117). -/
def nan32 : BitVec 32 := 0x7FC00000#32

/-- Round an exact value into FP32 (R115, R117). -/
def toF32 (rm : Rm) (v : Fv) : BitVec 32 :=
  match v with
  | .nan => nan32
  | .inf neg => BitVec.ofNat 32 (b2n neg * 2 ^ 31 + 0x7F800000)
  | .fin neg m e =>
    match magCode .f32 rm neg m e with
    | some c => BitVec.ofNat 32 (b2n neg * 2 ^ 31 + c)
    | none => BitVec.ofNat 32 (b2n neg * 2 ^ 31 + (if awayFromInf rm neg then 0x7F7FFFFF else 0x7F800000))

/-- Negation of an exact value. -/
def Fv.neg : Fv → Fv
  | .nan => .nan
  | .inf s => .inf (!s)
  | .fin s m e => .fin (!s) m e

/-- The sum of two finite values, exactly; `rm` settles the sign of a zero (IEEE 754-2019, R102). -/
def addFin (rm : Rm) (sa : Bool) (ma : Nat) (ea : Int) (sb : Bool) (mb : Nat) (eb : Int) : Fv :=
  let e := min ea eb
  let x : Int := (if sa then -1 else 1) * (ma * 2 ^ (ea - e).toNat : Nat)
  let y : Int := (if sb then -1 else 1) * (mb * 2 ^ (eb - e).toNat : Nat)
  let z := x + y
  if z = 0 then .fin (if sa = sb then sa else decide (rm = .rdn)) 0 e else .fin (decide (z < 0)) z.natAbs e

/-- IEEE addition, before rounding. -/
def Fv.add (rm : Rm) : Fv → Fv → Fv
  | .nan, _ => .nan
  | _, .nan => .nan
  | .inf s, .inf t => if s = t then .inf s else .nan
  | .inf s, .fin .. => .inf s
  | .fin .., .inf t => .inf t
  | .fin sa ma ea, .fin sb mb eb => addFin rm sa ma ea sb mb eb

/-- IEEE multiplication, before rounding. -/
def Fv.mul : Fv → Fv → Fv
  | .nan, _ => .nan
  | _, .nan => .nan
  | .inf s, .inf t => .inf (s != t)
  | .inf s, .fin t m _ => if m = 0 then .nan else .inf (s != t)
  | .fin s m _, .inf t => if m = 0 then .nan else .inf (s != t)
  | .fin s m e, .fin t n f => .fin (s != t) (m * n) (e + f)

/-- FP32 addition (R115). -/
def fadd32 (rm : Rm) (a b : BitVec 32) : BitVec 32 := toF32 rm ((f32Val a).add rm (f32Val b))
/-- FP32 subtraction (R115). -/
def fsub32 (rm : Rm) (a b : BitVec 32) : BitVec 32 := toF32 rm ((f32Val a).add rm (f32Val b).neg)
/-- FP32 multiplication (R115). -/
def fmul32 (rm : Rm) (a b : BitVec 32) : BitVec 32 := toF32 rm ((f32Val a).mul (f32Val b))
/-- Fused multiply-add with one rounding: the product exactly, then the sum (R115). -/
def fma32 (rm : Rm) (a b c : Fv) : BitVec 32 := toF32 rm ((a.mul b).add rm c)

/-- Whether a pattern is an FP32 NaN. -/
def isNan32 (x : BitVec 32) : Bool := decide (f32Val x = .nan)

/-- An order key of a non-NaN FP32 pattern: equal for the two zeros. -/
def key32 (x : BitVec 32) : Int :=
  let mag : Int := bitsOf x.toNat 0 31
  if x.msb then -mag else mag

/-- FP32 equality, false on NaN, with +0 = -0 (R176, R197). -/
def feq32 (a b : BitVec 32) : Bool := !isNan32 a && !isNan32 b && decide (key32 a = key32 b)
/-- FP32 less-than, false on NaN. -/
def flt32 (a b : BitVec 32) : Bool := !isNan32 a && !isNan32 b && decide (key32 a < key32 b)
/-- FP32 less-or-equal, false on NaN. -/
def fle32 (a b : BitVec 32) : Bool := !isNan32 a && !isNan32 b && decide (key32 a ≤ key32 b)
/-- Infinite or NaN. -/
def fnonfin32 (a : BitVec 32) : Bool := decide (bitsOf a.toNat 23 8 = 255)

/-- Whether `a` comes before `b` in the order of R200, in which -0 lies below +0. -/
def before32 (a b : BitVec 32) : Bool := decide (key32 a < key32 b) || (decide (key32 a = key32 b) && a.msb)

/-- FMIN by R200. -/
def fmin32 (a b : BitVec 32) : BitVec 32 :=
  if isNan32 a then (if isNan32 b then nan32 else b)
  else if isNan32 b then a
  else if before32 a b then a else b

/-- FMAX by R200. -/
def fmax32 (a b : BitVec 32) : BitVec 32 :=
  if isNan32 a then (if isNan32 b then nan32 else b)
  else if isNan32 b then a
  else if before32 a b then b else a

/-- Round an exact value to an integer in units of 1, as a signed integer. -/
def roundInt (rm : Rm) (neg : Bool) (m : Nat) (e : Int) : Int :=
  let r : Int := roundQ rm neg m e 0
  if neg then -r else r

/-- Round to an integer and saturate to `lo` to `hi`; NaN gives 0 (R119, R202). -/
def toIntSat (rm : Rm) (lo hi : Int) (v : Fv) : Int :=
  match v with
  | .nan => 0
  | .inf neg => if neg then lo else hi
  | .fin neg m e =>
    if m = 0 then 0
    else if e + (bitLen m : Int) > 40 then (if neg then lo else hi)
    else max lo (min hi (roundInt rm neg m e))

/-- A signed integer as `n` two's-complement bits. -/
def intBits (n : Nat) (i : Int) : Nat := (i % (2 ^ n : Int)).toNat

/-- FP32 to BF16 (R119). -/
def toBf16 (rm : Rm) (v : Fv) : Nat :=
  match v with
  | .nan => 0x7FC0
  | .inf neg => b2n neg * 0x8000 + 0x7F80
  | .fin neg m e =>
    match magCode .bf16 rm neg m e with
    | some c => b2n neg * 0x8000 + c
    | none => b2n neg * 0x8000 + (if awayFromInf rm neg then 0x7F7F else 0x7F80)

/-- FP32 to E4M3, saturating or not (R119). -/
def toE4m3 (rm : Rm) (nsat : Bool) (v : Fv) : Nat :=
  match v with
  | .nan => 0x7F
  | .inf neg => if nsat then 0x7F else b2n neg * 0x80 + 0x7E
  | .fin neg m e =>
    match magCode .e4m3 rm neg m e with
    | some c => b2n neg * 0x80 + c
    | none => if nsat then 0x7F else b2n neg * 0x80 + 0x7E

/-- FP32 to E5M2, saturating or not (R119). -/
def toE5m2 (rm : Rm) (nsat : Bool) (v : Fv) : Nat :=
  match v with
  | .nan => 0x7E
  | .inf neg => b2n neg * 0x80 + (if nsat then 0x7C else 0x7B)
  | .fin neg m e =>
    match magCode .e5m2 rm neg m e with
    | some c => b2n neg * 0x80 + c
    | none => b2n neg * 0x80 + (if nsat && !awayFromInf rm neg then 0x7C else 0x7B)

/-- A conversion into a format with no infinity and no NaN, saturating; NaN gives code 0 (R201 item 6). -/
def toSmall (f : FpFmt) (width : Nat) (rm : Rm) (v : Fv) : Nat :=
  match v with
  | .nan => 0
  | .inf neg => b2n neg * 2 ^ (width - 1) + maxCode f
  | .fin neg m e =>
    match magCode f rm neg m e with
    | some c => b2n neg * 2 ^ (width - 1) + c
    | none => b2n neg * 2 ^ (width - 1) + maxCode f

/-- The value of an element code in the format `fmt` of R145. An INT8 element of MXINT8 is read as value/64 (R105). -/
def elemVal (fmt x : Nat) : Fv :=
  match fmt with
  | 0 => ieeeVal 8 23 127 x
  | 1 => ieeeVal 8 7 127 x
  | 2 => e4m3Val x
  | 3 => ieeeVal 5 2 15 x
  | 4 => intVal (signedOf x 8) 0
  | 5 => e4m3Val x
  | 6 => ieeeVal 5 2 15 x
  | 7 => finVal 2 3 1 x
  | 8 => finVal 3 2 3 x
  | 9 => finVal 2 1 1 x
  | 10 => intVal (signedOf x 8) (-6)
  | 11 => finVal 2 1 1 x
  | 12 => intVal (signedOf x 32) 0
  | 13 => finVal 2 3 1 x
  | 14 => finVal 3 2 3 x
  | _ => finVal 2 1 1 x

/-- Bits of one element of a format (R101, R145). -/
def elemBits (fmt : Nat) : Nat :=
  match fmt with
  | 0 => 32
  | 1 => 16
  | 7 => 6
  | 8 => 6
  | 9 => 4
  | 11 => 4
  | 12 => 32
  | 13 => 6
  | 14 => 6
  | 15 => 4
  | _ => 8

/-- Whether a format code is an MX or IB4 block format (R145). -/
def isBlock (fmt : Nat) : Bool := decide (5 ≤ fmt) && decide (fmt ≤ 11)

/-- The depth of an operand class (R65). -/
def depthOf (fmt : Nat) : Nat := if fmt = 1 then 2 else if fmt = 9 ∨ fmt = 11 then 8 else 4

/-- Value `j` of a lane of a tensor operand (R109). -/
def operandVal (fmt : Nat) (lane : BitVec 32) (j : Nat) : Fv :=
  if fmt = 1 then elemVal fmt (bitsOf lane.toNat (16 * j) 16)
  else if fmt = 9 ∨ fmt = 11 then elemVal fmt (bitsOf lane.toNat (4 * j) 4)
  else if fmt = 7 ∨ fmt = 8 then elemVal fmt (bitsOf lane.toNat (8 * j) 6)
  else elemVal fmt (bitsOf lane.toNat (8 * j) 8)

/-- One term of R112, or the exact sum of terms with R113's special cases. -/
def sumTerms : List Fv → Fv
  | [] => .fin false 0 0
  | t :: ts => t.add .rne (sumTerms ts)

/-- Multiply an exact value by a power of two. -/
def Fv.scale (v : Fv) (k : Int) : Fv :=
  match v with
  | .nan => .nan
  | .inf s => .inf s
  | .fin s m e => .fin s m (e + k)

/-- The depth-k dot product of one row with one column, scaled: the exact value that R112 adds to an
accumulator element, or the special value of R113. `ea` and `eb` are the operands' scale exponents, none for
a scale code of 0xFF. -/
def mmaTerm (afmt bfmt k : Nat) (a b : BitVec 32) (ea eb : Option Int) : Fv :=
  match ea, eb with
  | some x, some y =>
    (sumTerms ((List.range k).map fun j => (operandVal afmt a j).mul (operandVal bfmt b j))).scale (x + y)
  | _, _ => .nan

/-- An operand's scale exponent from its scale code `x` and micro-exponent byte `u` (R112, R106); the 6 of
MXINT8 stands in `elemVal`. -/
def scaleExp (fmt : Nat) (x u : Nat) (grp : Nat) : Option Int :=
  if !isBlock fmt then some 0
  else if x = 255 then none
  else if fmt = 11 then some ((x : Int) - 127 - bitsOf u (2 * grp) 2)
  else some ((x : Int) - 127)

/-- An accumulator element after one tensor operation (R112, R113). The exact sum starts from +0. -/
def accAdd (acc : BitVec 32) (term : Fv) : BitVec 32 :=
  match f32Val acc, term with
  | .fin sa ma ea, .fin sb mb eb =>
    match addFin .rne sa ma ea sb mb eb with
    | .fin s m e => if m = 0 then 0#32 else toF32 .rne (.fin s m e)
    | v => toF32 .rne v
  | a, t => toF32 .rne (a.add .rne t)

/-- The floor of the base-2 logarithm of `m * 2 ^ e`, for nonzero `m`. -/
def log2Floor (m : Nat) (e : Int) : Int := (Nat.log2 m : Int) + e

/-- EXPO by R200. -/
def expo32 (x : BitVec 32) : BitVec 32 :=
  match f32Val x with
  | .nan => 0x7FFFFFFF#32
  | .inf _ => 0x7FFFFFFF#32
  | .fin _ m e => if m = 0 then 0x80000000#32 else BitVec.ofInt 32 (log2Floor m e)

/-- Largest magnitude's floor of log2 over a list of finite values; none when all are zero. -/
def maxLog : List Fv → Option Int
  | [] => none
  | .fin _ m e :: r =>
    if m = 0 then maxLog r
    else match maxLog r with
      | none => some (log2Floor m e)
      | some l => some (max l (log2Floor m e))
  | _ :: r => maxLog r

/-- Whether some value is NaN or infinite. -/
def anySpecial : List Fv → Bool
  | [] => false
  | .fin .. :: r => anySpecial r
  | _ :: _ => true

/-- The element maximum exponent of a block format (R104). -/
def elemMaxExp (fmt : Nat) : Int :=
  match fmt with
  | 5 => 8
  | 6 => 15
  | 7 => 2
  | 8 => 4
  | 9 => 2
  | 10 => 0
  | _ => 2

/-- One element of a block conversion: `v / 2 ^ k`, ties to even, saturated (R110 step 4, R111 step 3). -/
def blockElem (fmt : Nat) (v : Fv) (k : Int) : Nat :=
  match fmt with
  | 5 => toE4m3 .rne false (v.scale (-k))
  | 6 => toE5m2 .rne false (v.scale (-k))
  | 7 => toSmall .e2m3 6 .rne (v.scale (-k))
  | 8 => toSmall .e3m2 6 .rne (v.scale (-k))
  | 10 => intBits 8 (toIntSat .rne (-127) 127 (v.scale (6 - k)))
  | _ => toSmall .e2m1 4 .rne (v.scale (-k))

/-- A block of one MX format from its 32 values: the scale code and the element codes (R110). -/
def mxBlock (fmt : Nat) (vs : List Fv) : Nat × List Nat :=
  if anySpecial vs then (255, vs.map fun _ => 0)
  else match maxLog vs with
    | none => (0, vs.map fun _ => 0)
    | some l =>
      let s := max (-127) (min 127 (l - elemMaxExp fmt))
      ((s + 127).toNat, vs.map fun v => blockElem fmt v s)

/-- The micro-exponent of one IB4 group (R111): `l` belongs to the block, `g` to the group. -/
def microExp (l : Int) (g : Option Int) : Nat :=
  match g with
  | none => 0
  | some lg => (min 3 (l - lg)).toNat

/-- An IB4 block from its 64 values: X, U and the element codes (R111). -/
def ib4Block (vs : List Fv) : Nat × Nat × List Nat :=
  if anySpecial vs then (255, 0, vs.map fun _ => 0)
  else match maxLog vs with
    | none => (0, 0, vs.map fun _ => 0)
    | some l =>
      let s := max (-127) (min 127 (l - 2))
      let grp (g : Nat) := (vs.drop (16 * g)).take 16
      let mg (g : Nat) := microExp l (maxLog (grp g))
      let part (g : Nat) := (grp g).map fun v => blockElem 11 v (s - mg g)
      ((s + 127).toNat, mg 0 + 4 * mg 1 + 16 * mg 2 + 64 * mg 3, part 0 ++ part 1 ++ part 2 ++ part 3)

/-- The value of one block element with its scale, into FP32 by ties to even, once (R105, R106, R119). -/
def blockToF32 (fmt x u grp code : Nat) : BitVec 32 :=
  match scaleExp fmt x u grp with
  | none => nan32
  | some k => toF32 .rne ((elemVal fmt code).scale k)

/-- Elements of `w` bits packed from the low end: element i at bits [w(i+1)-1 : wi] (R107). -/
def packBits (w : Nat) : List Nat → Nat
  | [] => 0
  | c :: cs => c + 2 ^ w * packBits w cs

/-- The mixing function of the stochastic-rounding generator (R122). -/
def srMix (z : BitVec 64) : BitVec 64 :=
  let z1 := (z ^^^ (z >>> 30)) * 0xBF58476D1CE4E5B9#64
  let z2 := (z1 ^^^ (z1 >>> 27)) * 0x94D049BB133111EB#64
  z2 ^^^ (z2 >>> 31)

/-- The generator's step constant G (R122). -/
def srG : BitVec 64 := 0x9E3779B97F4A7C15#64

/-- The 16-bit random value of lane `i` (R122). -/
def srDraw (state : BitVec 64) (i : Nat) : Nat := (srMix (state + BitVec.ofNat 64 (i + 1) * srG)).toNat % 65536

/-- Stochastic rounding of a lane to BF16 (R121); NaN and infinite inputs convert as in R119. -/
def srToBf16 (x : BitVec 32) (r : Nat) : Nat :=
  if fnonfin32 x then toBf16 .rne (f32Val x) else bitsOf (x + BitVec.ofNat 32 r).toNat 16 16

/-- Whether the special functions of R118 list an exact result for this input, and which. `op` is the
opcode of R197: 0x40 RCP, 0x41 RSQRT, 0x42 EXP2, 0x43 EXP, 0x44 LOG2, 0x45 LOG. -/
def specialExact (op : Nat) (x : BitVec 32) : Option (BitVec 32) :=
  match f32Val x with
  | .nan => some nan32
  | .inf neg =>
    if op = 0x40 then some (if neg then 0x80000000#32 else 0#32)
    else if op = 0x41 then some (if neg then nan32 else 0#32)
    else if op = 0x42 ∨ op = 0x43 then some (if neg then 0#32 else 0x7F800000#32)
    else some (if neg then nan32 else 0x7F800000#32)
  | .fin neg m _ =>
    if m = 0 then
      if op = 0x40 ∨ op = 0x41 then some (if neg then 0xFF800000#32 else 0x7F800000#32)
      else if op = 0x42 ∨ op = 0x43 then none
      else some 0xFF800000#32
    else if neg ∧ (op = 0x41 ∨ op = 0x44 ∨ op = 0x45) then some nan32
    else none

/-! ### The bounds of R118

A special function's exact value is enclosed between two dyadic numbers `lo * 2 ^ e` and `hi * 2 ^ e`; a free result is
taken only within R118's error of that enclosure. -/

/-- An enclosure of a real number. -/
structure Encl where
  lo : Int
  hi : Int
  e : Int
  deriving DecidableEq, Repr

/-- The integer square root by its bits, from bit `k` down. -/
def isqrtFrom : Nat → Nat → Nat → Nat
  | 0, r, _ => r
  | k + 1, r, n => if (r + 2 ^ k) * (r + 2 ^ k) ≤ n then isqrtFrom k (r + 2 ^ k) n else isqrtFrom k r n

/-- The integer square root of a number below 2 ^ 200. -/
def isqrt (n : Nat) : Nat := isqrtFrom 100 0 n

/-- `⌊m * 2 ^ e * 2 ^ k⌋`, with the sign of the value. -/
def fixFloor (neg : Bool) (m : Nat) (e k : Int) : Int :=
  let x := e + k
  let v : Int := if neg then -(m : Int) else m
  if 0 ≤ x then v * (2 ^ x.toNat : Nat) else v / ((2 ^ (-x).toNat : Nat) : Int)

/-- Lower and upper bounds, in units of 2 ^ -80, of 2 to the power of a 60-bit fraction, whose bits are taken from the top;
`s` bounds the root of 2 reached so far from below. -/
def exp2Frac : Nat → Nat → Nat → Nat → Nat → Nat × Nat
  | 0, _, _, lo, hi => (lo, hi)
  | k + 1, f, s, lo, hi =>
    let r := isqrt (s * 2 ^ 80)
    if f / 2 ^ k % 2 = 1 then exp2Frac k f r (lo * r / 2 ^ 80) (hi * (r + 2) / 2 ^ 80 + 1) else exp2Frac k f r lo hi

/-- An enclosure of 2 to the power `y * 2 ^ -60`, `y` cut to a range in which FP32 has over- or underflowed. -/
def exp2Encl (ylo yhi : Int) : Encl :=
  let cut (y : Int) : Int := max (-400 * 2 ^ 60) (min (400 * 2 ^ 60) y)
  let part (y : Int) : Int × Nat × Nat :=
    let r := exp2Frac 60 (cut y % 2 ^ 60).toNat (2 * 2 ^ 80) (2 ^ 80) (2 ^ 80)
    (cut y / 2 ^ 60, r.1, r.2)
  let a := part ylo
  let b := part yhi
  ⟨a.2.1, b.2.2 * (2 ^ (b.1 - a.1).toNat : Nat), a.1 - 80⟩

/-- `⌊log₂ e * 2 ^ 90⌋`. -/
def log2eFix : Int := 1785969955594906662541213686
/-- `⌊ln 2 * 2 ^ 90⌋`. -/
def ln2Fix : Int := 858074647932929271111585486

/-- The product of an enclosure's integer with a positive constant known between `c` and `c + 1`. -/
def mulLo (a c : Int) : Int := if 0 ≤ a then a * c else a * (c + 1)
/-- As `mulLo`, from above. -/
def mulHi (a c : Int) : Int := if 0 ≤ a then a * (c + 1) else a * c

/-- An enclosure of 2 to the power of an exact value. -/
def exp2Of (neg : Bool) (m : Nat) (e : Int) : Encl :=
  let y := if e + (bitLen m : Int) > 12 then (if neg then -(2 : Int) ^ 72 else 2 ^ 72) else fixFloor neg m e 60
  exp2Encl y (y + 1)

/-- An enclosure of e to the power of an exact value. -/
def expOf (neg : Bool) (m : Nat) (e : Int) : Encl :=
  let y := if e + (bitLen m : Int) > 12 then (if neg then -(2 : Int) ^ 132 else 2 ^ 132) else fixFloor neg m e 120
  exp2Encl (mulLo y log2eFix / 2 ^ 150) (mulHi (y + 1) log2eFix / 2 ^ 150 + 1)

/-- The first `k` bits of the base-2 logarithm of `t * 2 ^ -80`, `t` from 2 ^ 80 to 2 ^ 81, by repeated squaring, from below. -/
def log2Bits : Nat → Nat → Nat → Nat
  | 0, _, acc => acc
  | k + 1, t, acc =>
    let q := t * t / 2 ^ 80
    if 2 ^ 81 ≤ q then log2Bits k (q / 2) (2 * acc + 1) else log2Bits k q (2 * acc)

/-- An enclosure of the base-2 logarithm of a positive value. -/
def log2Of (m : Nat) (e : Int) : Encl :=
  let b := bitLen m
  let t := if 81 ≤ b then m / 2 ^ (b - 81) else m * 2 ^ (81 - b)
  let l := (e + b - 1) * 2 ^ 60 + (log2Bits 60 t 0 : Int)
  ⟨l, l + 2, -60⟩

/-- An enclosure of the natural logarithm of a positive value. -/
def lnOf (m : Nat) (e : Int) : Encl :=
  let v := log2Of m e
  ⟨mulLo v.lo ln2Fix, mulHi v.hi ln2Fix, -150⟩

/-- An enclosure of `1 / x`, given `|x| = m * 2 ^ e`. -/
def rcpOf (neg : Bool) (m : Nat) (e : Int) : Encl :=
  let q : Int := (2 ^ 120 / m : Nat)
  if neg then ⟨-(q + 1), -q, -120 - e⟩ else ⟨q, q + 1, -120 - e⟩

/-- An enclosure of `1 / √x`, given `x = m * 2 ^ e`. -/
def rsqrtOf (m : Nat) (e : Int) : Encl :=
  let m2 := if e % 2 = 0 then m else 2 * m
  let e2 := if e % 2 = 0 then e else e - 1
  let q : Int := isqrt (2 ^ 180 / m2)
  ⟨q, q + 1, -90 - e2 / 2⟩

/-- The enclosure that belongs to a special function's opcode in R197, for a finite input with no exact result. -/
def specialOf (op : Nat) (neg : Bool) (m : Nat) (e : Int) : Encl :=
  if op = 0x40 then rcpOf neg m e
  else if op = 0x41 then rsqrtOf m e
  else if op = 0x42 then exp2Of neg m e
  else if op = 0x43 then expOf neg m e
  else if op = 0x44 then log2Of m e
  else lnOf m e

/-- A dyadic number in units of 2 ^ q, for a `q` not above its exponent. -/
def unitsOf (v : Int) (e q : Int) : Int := v * (2 ^ (e - q).toNat : Nat)

/-- Whether an FP32 result lies within `n` units in its last place of an enclosed value, or within 2 ^ -22 where the error is
`abs`. An infinity stands where the next number of the format's row would. -/
def nearEncl (n : Nat) (abs : Bool) (v : Encl) (c : BitVec 32) : Bool :=
  let near (sc : Bool) (mc : Nat) (ec : Int) : Bool :=
    let te : Int := if abs then -22 else ec
    let tol : Int := if abs then 1 else n
    let q := min te (min ec v.e)
    let x := unitsOf (if sc then -(mc : Int) else mc) ec q
    let t := unitsOf tol te q
    decide (x - t ≤ unitsOf v.hi v.e q) && decide (unitsOf v.lo v.e q ≤ x + t)
  match f32Val c with
  | .nan => false
  | .inf sc => near sc (2 ^ 24) 104
  | .fin sc mc ec => near sc mc ec

/-- Whether an input lies from 0.5 to 2. -/
def midInput (neg : Bool) (m : Nat) (e : Int) : Bool :=
  !neg && decide (-1 ≤ e + bitLen m - 1) && (decide (e + bitLen m - 1 < 1) || (decide (e + bitLen m - 1 = 1) && decide (m = 2 ^ (bitLen m - 1))))

/-- Whether a result keeps the accuracy of R118 for a finite input (log entry 10). -/
def specialNear (op : Nat) (neg : Bool) (m : Nat) (e : Int) (c : BitVec 32) : Bool :=
  let v := specialOf op neg m e
  if op = 0x40 then nearEncl 1 false v c
  else if op = 0x42 ∨ op = 0x43 then !c.msb && nearEncl 2 false v c
  else nearEncl 2 ((op = 0x44 ∨ op = 0x45) ∧ midInput neg m e) v c

/-- The enclosed value rounded to nearest: what the model takes where the free candidate breaks R118's bound. -/
def specialNearest (v : Encl) : BitVec 32 := toF32 .rne (intVal v.lo v.e)

/-- The result of a special function (R118): the exact result where R118 lists one, else a free value that keeps R118's error.
Log entry 10. -/
def specialFn (op : Nat) (x : BitVec 32) : BitVec 32 :=
  match specialExact op x with
  | some r => r
  | none =>
    match f32Val x with
    | .fin neg m e =>
      let c := Config.specialFn op x
      if specialNear op neg m e c then c else specialNearest (specialOf op neg m e)
    | _ => nan32

/-- The reversed polynomial of CRC-64/XZ. -/
def crc64Poly : BitVec 64 := 0xC96C5795D7870F42#64

/-- One bit of a reflected CRC. -/
def crcBit {w : Nat} (poly c : BitVec w) : BitVec w := if c.getLsbD 0 then (c >>> 1) ^^^ poly else c >>> 1

/-- Eight bits of a reflected CRC. -/
def crcByte {w : Nat} (poly c : BitVec w) (b : BitVec 8) : BitVec w :=
  let c0 := c ^^^ b.setWidth w
  let f := crcBit poly
  f (f (f (f (f (f (f (f c0)))))))

/-- A reflected CRC with all-ones start and final inversion, over a list of bytes. -/
def crcOf {w : Nat} (poly : BitVec w) (bs : List (BitVec 8)) : BitVec w :=
  ~~~ bs.foldl (crcByte poly) (BitVec.allOnes w)

/-- CRC-64/XZ (R39). -/
def crc64 (bs : List (BitVec 8)) : BitVec 64 := crcOf crc64Poly bs

/-- CRC-32C (09 R351, 10 R365). -/
def crc32c (bs : List (BitVec 8)) : BitVec 32 := crcOf 0x82F63B78#32 bs

end Sys2Proof.Machine
end

