-- ==== Sys2Proof/Machine/State.lean ====
section
/-! DEFINITION. Everything the spec gives the machine, as plain data, and the machine right after reset. A
structure's default values are the reset values of the rules its docstring cites. -/

namespace Sys2Proof.Machine

open Sys2Proof

/-- Why the machine stops. -/
inductive Fault where
  /-- Raised by INPUT_VOLTAGE_EVENT above 75 V, the absolute maximum: the device may be damaged (R511), so the
  spec gives it no behaviour. Safe: the machine stops where the spec promises nothing. -/
  | absoluteMaximum
  deriving DecidableEq, Repr

/-- Why the machine gives a command no meaning. -/
inductive Refusal where
  /-- Raised by the dispatch arm of a command that has no meaning yet. Safe: the machine stops. -/
  | notModelled (mnemonic : String)
  deriving DecidableEq, Repr

/-! ### The sliver core (02, 04, 05) -/

/-- A 32-bit lane or scalar with its poison mark (R82). Reset 0, good (R168). -/
structure Lane where
  bits : BitVec 32 := 0#32
  poison : Bool := false
  deriving DecidableEq, Repr

/-- CORE_STATE.RUN (R96). Reset RESTING. -/
inductive RunState where | resting | idle | running | held | faulted | sweeping | receiving | selfcheck
  deriving DecidableEq, Repr

/-- CORE_STATE but for PAGE, which the program counter gives (R96). -/
structure CoreStat where
  run : RunState := .resting
  valid : Bool := false
  mirror : Bool := false
  lcore : Nat := 0
  deriving DecidableEq, Repr

/-- CORE_FAULT, CORE_FAULT_PC and CORE_FAULT_TICK (R96), and whether its die steward has reported it (R98). Reset 0. -/
structure CoreFault where
  valid : Bool := false
  multi : Bool := false
  slot : Nat := 0
  bankV : Bool := false
  bank : Nat := 0
  code : Nat := 0
  paged : Bool := false
  pageSrc : Nat := 0
  bundle : Nat := 0
  tick : BitVec 64 := 0#64
  told : Bool := false
  deriving DecidableEq, Repr

/-- CORE_STALL_LAST, CORE_STALL_TOTAL and CORE_ECC (R96). Reset 0. -/
structure CoreCount where
  lastConflict : Nat := 0
  lastSeif : Nat := 0
  lastStream : Nat := 0
  total : Nat := 0
  totalOvf : Bool := false
  eccOvf : Bool := false
  corr : Nat := 0
  uncorr : Nat := 0
  lastBank : Nat := 0
  lastImem : Bool := false
  deriving DecidableEq, Repr

/-- A page-in in progress (R85, PAGEIN_CUR of R166): page, source offset / 8 KiB, granules read, and the cycle
in which it asks for the next granule. -/
structure PageIn where
  page : Nat
  src : Nat
  next : Nat
  cycle : Nat
  deriving DecidableEq, Repr

/-- A queued page-in (PAGEIN_QUEUE of R166). -/
structure PageInQ where
  page : Nat
  src : Nat
  deriving DecidableEq, Repr

/-- A place that a pipelined result is written to (R155). -/
inductive Loc where
  | v (r lane : Nat)
  | a (r : Nat)
  | s (r : Nat)
  | p (r bit : Nat)
  | acc (buf row col : Nat)
  | scale (entry byte : Nat)
  deriving DecidableEq, Repr

/-- What a pipelined result writes: a value, or a term added to the accumulator element as it then stands
(`zero`: taken as +0, ACCZ). -/
inductive Pending where
  | put (l : Lane)
  | add (zero : Bool) (poison : Bool) (t : Fv)
  deriving DecidableEq, Repr

/-- The results of one operation of one bundle, and the cycle in which they are written (R155). -/
structure Flight where
  due : Nat
  writes : List (Loc × Pending)
  deriving DecidableEq, Repr

/-- A delivery into a scratchpad granule (R75 ranks 1 and 2, R79): byte offset, bytes, poison bit of each
8-byte word, and the stream context that counts it (`96 * 128 * 8` contexts, keyed 8 * lcore + context). -/
structure Deliv where
  off : Nat
  bytes : List (BitVec 8)
  poison : BitVec 8
  ctx : Option Nat
  deriving DecidableEq, Repr

/-- An unscheduled write waiting in a core's 32-entry buffer (R81): offset, bytes, poison, class, source node, and the account
it reports to (a remote DMA's key, or 2^20 and the number of a remote device's). -/
structure UWrite where
  off : Nat
  bytes : List (BitVec 8)
  poison : BitVec 8
  cls : Nat
  src : Nat
  tag : Option Nat
  deriving DecidableEq, Repr

/-- One LD0-slot or LS1-slot access of a held bundle (R77): whether it is served, its banks, offset and, for
a load, the bytes and poison it staged. -/
structure Access where
  served : Bool
  banks : List Nat
  off : Nat
  size : Nat
  store : Bool
  bytes : List (BitVec 8)
  poison : List Bool
  badBank : Option Nat
  deriving DecidableEq, Repr

/-- A bundle that the core holds (R76, R188): the bundle, whether WAITSTR holds it, the cycle since which it is
held, and its accesses. -/
structure HeldBundle where
  bundle : Sys2Proof.Slots
  wait : Bool
  since : Nat
  ld0 : Access
  ls1 : Access
  deriving DecidableEq, Repr

/-- The control state of R166 with the times that drive it. `readyAt` is the earliest issue cycle of the
next bundle, none while the core waits at TSYNC or has no bundle to issue; HOLD_LEFT is what is left until
it. Reset by R168. -/
structure CoreCtl where
  pc : Nat := 0
  readyAt : Option Nat := none
  stopped : Bool := false
  atTsync : Bool := false
  accAct : Bool := false
  pageValid : BitVec 8 := 0#8
  c0Sent : Nat := 0
  pageSrc : Tab Nat := []
  pageFromIn : BitVec 8 := 0#8
  pagein : Option PageIn := none
  pageinQ : Option PageInQ := none
  srState : BitVec 64 := 0#64
  tickConflict : Nat := 0
  tickSeif : Nat := 0
  tickStream : Nat := 0
  stallSum : Nat := 0
  deriving DecidableEq, Repr

/-- The register files of R88. Vector lane key 64 * r + lane; accumulator key 2048 * buffer + 32 * row + column;
scale-file key 256 * entry + byte; predicate default 0. -/
structure CoreRegs where
  v : Tab Lane := []
  a : Tab (BitVec 32) := []
  s : Tab Lane := []
  p : Tab (BitVec 64) := []
  acc : Tab Lane := []
  scale : Tab (BitVec 8) := []
  deriving DecidableEq, Repr

/-- The units, buffers and pending moments of a core: results in flight, the cycles from which the tensor and
vector units accept (R157), the held bundle, the cycle up to which its banks have been worked, the banks that
ranks 1 to 3 hold in `claimCycle`, those that ranks 4, 5 and 7 take in `lowCycle`, completion records that wait for
their banks (R340: the cycle from which each asks, offset and bytes), one more than the last cycle in which the mesh source wrote, in which
a mesh flit entered the landing buffer, and in which the stream source wrote,
landing buffers (R79), off-ramp queues (R262), unscheduled writes (R81), messages in the send buffer (R211), and
the moments of arrival (R135) and stop (R136). -/
structure CorePipe where
  flights : List Flight := []
  tensorFree : Nat := 0
  vectorFree : Nat := 0
  held : Option HeldBundle := none
  synced : Nat := 0
  claimCycle : Nat := 0
  claims : List Nat := []
  lowCycle : Nat := 0
  lows : List Nat := []
  lowBuf : List (Nat × Nat × List (BitVec 8)) := []
  meshAt : Nat := 0
  meshIn : Nat := 0
  streamAt : Nat := 0
  meshBuf : List Deliv := []
  streamBuf : List Deliv := []
  ramp : List (Nat × Deliv) := []
  wbuf : List UWrite := []
  sendBuf : Nat := 0
  arriveAt : Option Nat := none
  stopAt : Option Nat := none
  arrived : Option Nat := none
  holdReq : Bool := false
  beforeCheck : RunState := .resting
  margin : Bool := false
  dropFirst : Nat := 0
  dropCount : Nat := 0
  c0Refused : Bool := false
  deriving DecidableEq, Repr

/-- A physical core (R64). -/
structure CoreRec where
  stat : CoreStat := {}
  fault : CoreFault := {}
  count : CoreCount := {}
  ctl : CoreCtl := {}
  regs : CoreRegs := {}
  pipe : CorePipe := {}
  deriving DecidableEq, Repr

/-- The scratchpads, instruction memories and their integrity state. Scratchpad byte key 2^21 * p + offset;
8-byte word key 2^18 * p + word; bundle key 2048 * p + index. A flip count of 1 is a single-bit error not yet
found, 2 or more a double-bit error (R82, R87). -/
structure Srams where
  spad : Memory := []
  poison : Tab Bool := []
  flips : Tab Nat := []
  imem : Tab (BitVec 256) := []
  imemFlips : Tab Nat := []
  deriving DecidableEq, Repr

/-- A stream context's state (R187). Reset IDLE. -/
inductive CtxState where | idle | active | done | error
  deriving DecidableEq, Repr

/-- A stream context (R187). Reset IDLE with count 0; `total` is the granules of the stream it was last made ACTIVE for (0 for
an SAE command). -/
structure Ctx where
  st : CtxState := .idle
  count : Nat := 0
  total : Nat := 0
  deriving DecidableEq, Repr

/-! ### The panel map (01) -/

/-- The role of a site (R29, R39). -/
inductive Role where | gateway | bound | spare | retired | dark
  deriving DecidableEq, Repr

/-- A panel map record (R39). `spares` holds STACK_SPARE, keyed 256-byte offset. -/
structure MapRecord where
  gen : BitVec 32
  commitTick : BitVec 64
  ldSite : Tab Nat
  role : Tab Role
  rowFault : Tab Nat
  spares : Tab Nat
  deriving DecidableEq, Repr

/-- GLB_PANEL_STATE.STATE (R62). Reset STARTING. -/
inductive PanelMode where | starting | ready | running | relay | short | test
  deriving DecidableEq, Repr

/-- One logical die on the move in a substitution: die, site it left, site it took (none: left unbound). -/
structure Moved where
  ld : Nat
  old : Nat
  new : Option Nat
  deriving DecidableEq, Repr

/-- DIE_STATE.STATE (R96). Reset OFF. -/
inductive DieMode where | off | test | ready | running | computeReset | fenced
  deriving DecidableEq, Repr

/-- GLB_RELAY_STAT (R62). Reset 0. -/
structure RelayStat where
  result : Nat := 0
  ld : Nat := 0
  oldSite : Nat := 0
  newSite : Nat := 0
  deriving DecidableEq, Repr

/-- The phase of a barchan move (R90): `checked` waits for the boundary at which mirroring begins, `copied` for the tick after
bulk copy, `ready` for its handover, `passing` for the boundary of tick H. -/
inductive MovePhase where | checking | checked | copying | copied | ready | passing
  deriving DecidableEq, Repr

/-- A row's barchan move (R90): its phase, the physical column it moves from, the resting column, and how
many bytes bulk copy has moved. -/
structure Move where
  phase : MovePhase
  src : Nat
  rest : Nat
  deriving DecidableEq, Repr

/-- The panel (R29, R39, R62). Rest positions are keyed 8 * LD + row and unlisted rows rest at 12 (R35); row
faults are keyed 8 * site + row and an unlisted row has none; moves are keyed 8 * site + row; `away` marks the
unbound dies with the site each held (R59, R655); `before` keeps the role a site had when it went dark (R61);
`restSeen` is what GLB_ROW_MAP.REST shows, brought up to date at each tick boundary (R63), and `resetAt` the cycle in which a
compute reset began, by site (R579); `returning` lists the ergs whose sites are swept before they return (R61), and `commitDue` tells that
the fit test under way commits a record at its end even where no die moves (R55, R56). -/
structure Panel where
  mode : PanelMode := .starting
  confirmed : Bool := false
  mapGen : BitVec 32 := 0#32
  role : Tab Role := []
  ldSite : Tab Nat := []
  routerUp : Tab Bool := []
  rowFault : Tab Nat := []
  rest : Tab Nat := []
  restDown : Tab Bool := []
  moves : Tab Move := []
  away : Tab Nat := []
  before : Tab Role := []
  copyA : Option MapRecord := none
  copyB : Option MapRecord := none
  inForceB : Bool := false
  relay : RelayStat := {}
  moving : List Moved := []
  restSeen : Tab Nat := []
  resetAt : Tab Nat := []
  die : Tab DieMode := []
  stackSpare : Tab Nat := []
  returning : List Nat := []
  commitDue : Bool := false
  deriving DecidableEq, Repr

/-! ### Time and the tick (06) -/

/-- The tick header in force (R218); the idle tick of R220 at reset. -/
structure TickHdr where
  len : Nat := 4096
  quiet : Nat := 4096
  budget : Nat := 0
  slack : Nat := 0
  margin : Nat := 0
  mapGen : Nat := 0
  test : Bool := false
  deriving DecidableEq, Repr

/-- The clock of the panel in cycles and the tick in progress. `now` counts every cycle since the common start;
`start` is the first cycle of the current tick and `ins` the cycles inserted into it so far; `decided` tells that its late decision has been
made (R232), `heldTick` that it was held open (R237). -/
structure Clock where
  now : Nat := 0
  start : Nat := 0
  tick : BitVec 64 := 0#64
  ins : Nat := 0
  quietIns : Nat := 0
  hdr : TickHdr := {}
  stretch : Bool := true
  stretchLen : Nat := 512
  late : List Nat := []
  lateOpen : Bool := false
  heldOpen : Bool := false
  decided : Bool := false
  heldTick : Bool := false
  heldJob : Bool := false
  overrunSent : Bool := false
  deriving DecidableEq, Repr

/-! ### The mesh (07) -/

/-- Where a flit is: waiting at an arbitration point from a cycle on, on its way to land, or on its way to a
tag entry's input. -/
inductive FlitPos where
  | ramp (pos : Nat) (ready : Nat)
  | land (pos : Nat) (due : Nat) (dir : Dir)
  | entry (pos : Nat) (due : Nat) (input : Dir)
  deriving DecidableEq, Repr

/-- A flit on the mesh: the header of R253 and its payload bytes. `inp` is the input on which it came to the arbitration point where it waits
(R261), `doff` the granule at which a circuit flit lands, whose ARG is the circuit's number. -/
structure Flit where
  cls : Nat
  kind : Nat
  epoch : Bool
  idx : Nat
  last : Bool
  sched : Bool
  poison : BitVec 8
  dest : Nat
  src : Nat
  inc : BitVec 8
  delay : Nat
  arg : Nat
  laps : Nat
  bytes : List (BitVec 8)
  pos : FlitPos
  fromBuf : Bool
  tag : Option Nat
  inp : Dir := .local
  doff : Nat := 0
  deriving DecidableEq, Repr

/-- A slot of a channel that a flit holds: channel, slot cycle at the channel's origin, and the stretch of
positions, as distances from the origin, over which it holds it (R250, R258); `c0` is 1 for a scheduled C0 flit, 2 for an
unscheduled one, else 0 (R283). -/
structure SlotUse where
  chan : Nat
  origin : Int
  lo : Nat
  hi : Nat
  c0 : Nat
  deriving DecidableEq, Repr

/-- A tag entry's partial for one flit index (R276): lanes so far, the inputs that have delivered, DELAY. -/
structure Partial where
  lanes : List (BitVec 32)
  poison : BitVec 8
  got : List Dir
  delay : Nat
  sent : Bool
  deriving DecidableEq, Repr

/-- The mesh registers of a site (07 Mesh registers), with the running maxima of the current tick. Reset 0. -/
structure MeshDie where
  active : Bool := false
  loaded : Bool := false
  pending : Bool := false
  hold : Nat := 0
  flipTick : BitVec 64 := 0#64
  routesOk : Bool := false
  loadOver : Bool := false
  worst : Nat := 0
  errOvf : Bool := false
  corr : Nat := 0
  uncorrPay : Nat := 0
  uncorrHdr : Nat := 0
  dropOvf : Bool := false
  lost : Nat := 0
  staleInc : Nat := 0
  oldEpoch : Nat := 0
  c0Refused : Nat := 0
  delayMax : Nat := 0
  late : Nat := 0
  curDelay : Nat := 0
  curLate : Nat := 0
  redOvf : Bool := false
  redFaults : Nat := 0
  tagsMax : Nat := 0
  deriving DecidableEq, Repr

/-- The mesh: flits by number, slots held, the two route versions, partials keyed 4 * (16384 * position + tag)
+ index, open circuit windows, and the seif entries towards stretched half-dies, each as the cycle of entry and that of leaving, keyed
16 * site + 2 * row, and 1 more westbound (R245), and a route version that waits for the hold to end (R269). The version pair's first part is the epoch in force. -/
structure Mesh where
  flits : Tab Flit := []
  nextFlit : Nat := 0
  slots : List SlotUse := []
  versions : Bool × Sys2Proof.RouteVersion × Sys2Proof.RouteVersion := (false, ⟨[], [], [], [], [], []⟩, ⟨[], [], [], [], [], []⟩)
  partials : Tab Partial := []
  windows : List Nat := []
  seif : Tab (List (Nat × Nat)) := []
  waiting : Option Sys2Proof.RouteVersion := none
  die : Tab MeshDie := []
  deriving DecidableEq, Repr

/-! ### Plosen stacks (08) -/

/-- PLS_STATE.STATE (R322). Reset OFF. -/
inductive StackMode where | off | ready | degraded | lost | test
  deriving DecidableEq, Repr

/-- A spare region of a stack (R319): the region it replaces, and whether it has failed itself. -/
structure SpareRec where
  used : Bool := false
  retired : Bool := false
  region : Nat := 0
  deriving DecidableEq, Repr

/-- A region copy (R318): the spare, the region, and whether it has ended and waits for the boundary. -/
structure RegionCopy where
  spare : Nat
  region : Nat
  done : Bool
  deriving DecidableEq, Repr

/-- A stack's registers, budgets and pending work (R296, R317 to R322, R348). Windows are numbered by absolute
schedule cycle / 256; before window `nAttFrom` the attach positions `nAttWas` count for L (R299); `landed` counts deliveries a window has made; channel counts are keyed 64 * window + channel; spares are keyed 0 to 7; `written` and
`toSweep` list physical regions 0 to 391. Reset by R322 and R348. -/
structure StackRec where
  mode : StackMode := .off
  nAtt : Nat := 0
  nAttWas : Nat := 0
  nAttFrom : Nat := 0
  spares : Tab SpareRec := []
  copy : Option RegionCopy := none
  retireQ : List Nat := []
  ifWin : Tab Nat := []
  intWin : Tab Nat := []
  chanWin : Tab Nat := []
  landed : Tab Nat := []
  refOvf : Bool := false
  refCount : Nat := 0
  refReason : Nat := 0
  refCore : Nat := 0
  eccOvf : Bool := false
  corr : Nat := 0
  uncorr : Nat := 0
  lastRegion : Nat := 0
  regCorr : Tab Nat := []
  regUncorr : Tab Nat := []
  badThisTick : List Nat := []
  deadRegions : List Nat := []
  saeOvf : Bool := false
  saeDone : Nat := 0
  saeFaults : Nat := 0
  saeKind : Nat := 0
  sweeping : Bool := false
  written : List Nat := []
  toSweep : List Nat := []
  lateWin : List Nat := []
  copying : Option Nat := none
  wdtMiss : Nat := 0
  deriving DecidableEq, Repr

/-- A write-stream granule on its way to the base die: index, bytes, poison. -/
structure OutGranule where
  idx : Nat
  bytes : List (BitVec 8)
  poison : BitVec 8
  deriving DecidableEq, Repr

/-- An admitted stream at one base die (R290, R292): `mine` lists the granules that lie in this stack, oldest first;
`outs` are write granules on their way. -/
structure StreamRec where
  stack : Nat
  lcore : Nat
  ctx : Nat
  cls : Nat
  write : Bool
  pace : Nat
  count : Nat
  addr : Nat
  rowLen : Nat
  rowStride : Nat
  doff : Nat
  issue : Nat
  defer : Nat
  mine : List Nat
  outs : List OutGranule
  deriving DecidableEq, Repr

/-- An admitted SAE command (R307, R314): its 64 bytes, issuing core, class, start and result cycles (absolute
schedule cycles), whether the engine has read, the fault kind of each faulted item, the result granules item by item,
each item's core and granule, and how many granules have been delivered. -/
structure SaeRec where
  stack : Nat
  lcore : Nat
  cls : Nat
  cmd : List (BitVec 8)
  issue : Nat
  start : Nat
  resultAt : Nat
  ran : Bool
  faults : List (Nat × Nat)
  out : List (List (BitVec 8))
  dests : List (Nat × Nat)
  next : Nat
  deriving DecidableEq, Repr

/-- Who waits for unscheduled access (R306): a host request with its link, tag, whether it reads and its
address within an 8-byte word, a COPY by queue, the
job's result copy, a remote DMA by key (R339), the pair shadow with its step and granules (R392, R507), a snapshot (R428), or a steward. -/
inductive Asker where
  | host (link tag : Nat) (read : Bool) (skew : Nat)
  | copy (queue : Nat)
  | result
  | rdma (key : Nat)
  | shadow (incoming : Option Nat) (step granules : Nat)
  | snapshot (stack : Nat)
  | steward
  deriving DecidableEq, Repr

/-- An unscheduled access waiting at a base die (R306): class, device-local address, stack, stack-local offset, length
within one 4 KiB block, the bytes and poison of a write, and the gathering it belongs to with its part number. -/
structure StackAccess where
  stack : Nat
  cls : Nat
  addr : Nat
  off : Nat
  len : Nat
  data : Option (List (BitVec 8) × List Bool)
  gather : Nat
  part : Nat
  deriving DecidableEq, Repr

/-- The parts of one request that spans several 4 KiB blocks: who asked, parts still to come, the bytes and the poison of
the 8-byte words read, by part, and the first code other than ST_OK. -/
structure Gather where
  asker : Asker
  left : Nat
  parts : Tab (List (BitVec 8) × List Bool)
  code : Nat
  deriving DecidableEq, Repr

/-- A write that a base die accepted (R294): granule key, cycle of acceptance, and what the granule held before. -/
structure Recent where
  key : Nat
  at_ : Nat
  old : List (BitVec 8)
  poison : BitVec 8
  deriving DecidableEq, Repr

/-- A refusal notice on its way to a context (R298), with the cycle by which it arrives. -/
structure RefusalRec where
  lcore : Nat
  ctx : Nat
  due : Nat
  deriving DecidableEq, Repr

/-- The stacks: contents keyed by 2^37 * stack + physical offset, poison keyed by 8-byte word, errors not yet
found keyed by 64-byte granule, admitted streams, SAE commands, waiting accesses and notices by number. -/
structure Stacks where
  placed : Bool := false
  mem : Memory := []
  poison : Tab Bool := []
  flips : Tab Nat := []
  rec_ : Tab StackRec := []
  streams : Tab StreamRec := []
  saes : Tab SaeRec := []
  accesses : Tab StackAccess := []
  gathers : Tab Gather := []
  recent : List Recent := []
  notices : Tab RefusalRec := []
  nextId : Nat := 0
  deriving DecidableEq, Repr

/-! ### Wadis, remote DMA, sweeps, check-value units (09) -/

/-- An open wadi (R327). -/
structure WadiRec where
  base : Nat
  size : Nat
  sources : Nat
  classes : Nat
  coreLo : Nat
  coreHi : Nat
  expiry : Nat
  deriving DecidableEq, Repr

/-- A busy RDMA slot (R336 to R340): class, destination, where its completion record goes, sequence, granules in all,
landed and dropped, what else the record's code depends on, whether the report has come; `deadline` is issue + 2^25. -/
structure RdmaRec where
  cls : Nat
  dest : Nat
  seq : Nat
  doneOff : Nat
  granules : Nat
  landed : Nat
  dropped : Nat
  poison : Bool
  mismatch : Bool
  cvuBusy : Bool
  cvu : Nat
  reported : Bool
  deadline : Nat
  deriving DecidableEq, Repr

/-- CORE_WADI_DROP and CORE_WADI_LAST (09), and the first drop of the tick (R333). Reset 0. -/
structure WadiDrop where
  ovf : Bool := false
  count : Nat := 0
  reason : Nat := 0
  src : Nat := 0
  granule : Nat := 0
  sentTick : Bool := false
  badTick : Bool := false
  deriving DecidableEq, Repr

/-- What a sweep is for (DIE_SWEEP.CAUSE, R346): job end, abort, fence, compute reset, return to service. -/
inductive SweepCause where | none_ | jobEnd | abort | fence | compute | back
  deriving DecidableEq, Repr

/-- DIE_SWEEP of a compute site (R346): cores still to complete, and the cores that failed; `own` tells that a trigger of this die alone
awaits its EV_SWEEP_DONE, and `panel` that the end of a job swept it (R345). Reset 0. -/
structure DieSweep where
  st : Nat := 0
  cause : SweepCause := .none_
  left : List Nat := []
  failed : List Nat := []
  discard : Nat := 0
  own : Bool := false
  panel : Bool := false
  deriving DecidableEq, Repr

/-- A request to a check-value unit (R352, R353). `covers` is the bytes of a stream that firmware has at hand and whose value `expect` is, 0 for every
other stream. -/
structure CvuReq where
  node : Nat
  rseq : Nat
  mode : Nat
  alg : Bool
  expect : Option Nat
  covers : Nat := 0
  deriving DecidableEq, Repr

/-- An entry of a CVU's result ring (R355). Reset EMPTY. -/
structure CvuEntry where
  node : Nat := 0
  rseq : Nat := 0
  status : Nat := 0
  mode : Nat := 0
  alg : Bool := false
  eseq : Nat := 0
  bytes : Nat := 0
  value : Nat := 0
  deriving DecidableEq, Repr

/-- A check-value unit (R353 to R355): the stream it works on, whether its job has ended before it, its queue of 8, its ring and counters. Reset 0. -/
structure CvuRec where
  busy : Option CvuReq := none
  cut : Bool := false
  queue : List CvuReq := []
  head : Nat := 0
  lastSeq : Nat := 0
  ovf : Bool := false
  mismatch : Nat := 0
  refused : Nat := 0
  ring : Tab CvuEntry := []
  deriving DecidableEq, Repr

/-- The wadi tables (key 16 * lcore + wadi), with what a change of cycle t found there, for the writes of that cycle (R212), drop registers by logical core, RDMA slots (key 4 * lcore + slot), sweeps
by site, CVUs (0 to 7 at the gateways, 8 to 23 at the base dies). -/
structure Windows where
  wadi : Tab WadiRec := []
  wadiWas : Tab (Nat × Option WadiRec) := []
  drop : Tab WadiDrop := []
  rdma : Tab RdmaRec := []
  sweep : Tab DieSweep := []
  cvu : Tab CvuRec := []
  deriving DecidableEq, Repr

/-! ### Zilusk ports and the Jisto links' link layer (10, 12) -/

/-- The state of a port or Jisto link (ZFP_PORT_STAT, HIF_LINK_STAT). Reset DOWN. -/
inductive LinkMode where | down | training | up | upHalf | disabled | failed
  deriving DecidableEq, Repr

/-- A packet (R365): its header fields and its inline and data bytes. -/
structure Packet where
  cls : Nat
  kind : Nat
  chan : Nat
  epoch : Bool
  circOn : Bool
  last : Bool
  rpt : Bool
  trailer : Bool
  hops : Nat
  srcDev : Nat
  srcInc : Nat
  gaddr : Nat
  srcNode : Nat
  circ : Nat
  arg : Nat
  poison : BitVec 32
  inl : List (BitVec 8)
  data : List (BitVec 8)
  deriving DecidableEq, Repr

/-- A packet in a port's queue: the circuit entry that carries it, and the cycle in which it arrived, for one that came in on a
port (R382). -/
structure TxPkt where
  pkt : Packet
  circ : Option Nat
  at_ : Option Nat
  deriving DecidableEq, Repr

/-- A DATA frame in a replay buffer (R363): SEQ, the packet as it waited, the ACK of its header (R361; its CREDITS are 0: ACK frames return
them), and how often it has been resent. -/
structure SentFrame where
  seq : Nat
  tx : TxPkt
  ack : Nat
  resends : Nat
  deriving DecidableEq, Repr

/-- An ACK or NAK frame that a port has sent (R361 to R363). -/
structure CtlFrame where
  nak : Bool
  ack : Nat
  crclass : Nat
  credits : Nat
  deriving DecidableEq, Repr

/-- A port or Jisto link. `credits` are the receive units its peer has returned, by class (R362), at reset all 256 of the
peer's buffer; `txq` holds packets that wait to be sent, oldest first; `trains` counts failed trainings in a row and `live` tells a live
retrain from a full training (R572 to R575);
`wrr` counts the slots of the C1 to C3 round of 13 and `circUse` the frames each circuit entry sent in the current
16; `rxHeld` counts the units of its receive buffer that are taken, by class (R362); `lastCtl` is the last ACK or NAK frame sent;
`c0At` keeps the cycles of the last four offers of C0 packets, newest first (R400, R401). -/
structure PortRec where
  enable : Bool := false
  medium : Nat := 0
  mode : LinkMode := .down
  lanesOk : BitVec 8 := 0#8
  peerDev : Nat := 0xFFFF
  fecOvf : Bool := false
  corr : Nat := 0
  uncorr : Nat := 0
  retryOvf : Bool := false
  replays : Nat := 0
  lastRun : Nat := 0
  downs : Nat := 0
  txSeq : Nat := 0
  rxSeq : Nat := 4095
  gapNak : Bool := false
  credits : Tab Nat := []
  replay : List SentFrame := []
  txq : List TxPkt := []
  wrr : Nat := 0
  slot16 : Nat := 0
  circUse : Tab Nat := []
  rxHeld : Tab Nat := []
  lastCtl : Option CtlFrame := none
  c0At : List Nat := []
  trains : Nat := 0
  live : Bool := false
  deriving DecidableEq, Repr

/-- A packet that has arrived on a port and waits in its gateway, with the cycle of its arrival.
Port 40 stands for this device itself. -/
structure RxPacket where
  port : Nat
  pkt : Packet
  at_ : Nat
  deriving DecidableEq, Repr

/-- A packet that crosses the mesh between two gateways (R388, R389): transit number, egress port, flits, whether it is
complete at the egress, and the cycle in which it became so. -/
structure Transit where
  ingress : Nat
  egress : Nat
  num : Nat
  port : Nat
  pkt : Packet
  circ : Option Nat
  flits : List Nat
  ready : Option Nat
  at_ : Nat
  aged : Bool
  deriving DecidableEq, Repr

/-- A fabric circuit entry (R376). Reset 0. -/
structure CircEntry where
  valid : Bool := false
  active : Bool := false
  circ : Nat := 0
  out : Nat := 0
  inp : Nat := 0
  share : Nat := 0
  chan : Nat := 0
  count : Nat := 0
  dest : Nat := 0
  first : Nat := 0
  deriving DecidableEq, Repr

/-- A version of the routing table (R370, R373): device entries and broadcast entries; an unlisted entry is 0. -/
structure RtVersion where
  dev : Tab Nat := []
  bcast : Tab Nat := []
  deriving DecidableEq, Repr

/-- A fabric reduction slot (R394). -/
structure RedSlot where
  tag : Nat
  len : Nat
  gaddr : Nat
  count : Nat
  got : Nat
  cls : Nat
  lanes : List (BitVec 32)
  poison : BitVec 32
  deriving DecidableEq, Repr

/-- The account of one remote device's RDMA at this device (R393): its source, gateway and return header, what has been
counted, and what a trailer covers, in ascending address order (R354). -/
structure Incoming where
  srcDev : Nat
  srcNode : Nat
  seq : Nat
  gw : Nat
  cls : Nat
  chan : Nat
  sent : Nat
  landed : Nat
  dropped : Nat
  last : Bool
  bytes : List (Nat × List (BitVec 8))
  mismatch : Bool
  cvuBusy : Bool
  shadow : Bool
  deriving DecidableEq, Repr

/-- A remote DMA on its way to its gateway (R339, R387): its number, key 4 * lcore + slot, class, destination, gateway, data with the poison of
each 8-byte word, check and sequence; whether its flits have set out (R353), the granules that have reached the gateway, and how many packets have
left it. -/
structure RdmaSend where
  id : Nat
  key : Nat
  cls : Nat
  dest : Nat
  gw : Nat
  bytes : List (BitVec 8)
  poison : List Bool
  cvu : Nat
  seq : Nat
  going : Bool
  granules : Nat
  got : Tab (List (BitVec 8) × BitVec 8)
  sent : Nat
  deriving DecidableEq, Repr

/-- The management reply that a node of this device has received (R392). -/
structure MgmtReply where
  node : Nat
  tag : Nat
  data : Nat
  code : Nat
  deriving DecidableEq, Repr

/-- The Zilusk side. `rt` holds the two routing versions, the first for epoch 0; `flipped` and `flipAt` keep the cycle of the last flip (R381); `heldTx` are new-epoch packets that R381 holds; `paced` are C0 packets of this device that firmware keeps
back for R401; `committing` tells that a COMMIT waits for its check-value unit (R380, R353); `lastSent` keeps for each ordering domain the
cycle and epoch of its last packet. -/
structure Zfp where
  ports : Tab PortRec := []
  devNum : Nat := 0xFFFF
  active : Bool := false
  loaded : Bool := false
  pending : Bool := false
  flipped : Bool := false
  hopsInit : Nat := 0x10
  drain : Nat := 0x200
  flipTick : BitVec 64 := 0#64
  flipAt : Nat := 0
  check : BitVec 32 := 0#32
  rt : RtVersion × RtVersion := ({}, {})
  pairOn : Bool := false
  pairUp : Bool := false
  portA : Nat := 0
  portB : Nat := 0
  partner : Nat := 0xFFFF
  mgr : Tab (Bool × Nat) := []
  dropOvf : Bool := false
  noRoute : Nat := 0
  staleInc : Nat := 0
  refused : Nat := 0
  aged : Nat := 0
  oldEpoch : Nat := 0
  c0Over : Bool := false
  c0Port : Nat := 0
  circ : Tab CircEntry := []
  rx : Tab RxPacket := []
  nextRx : Nat := 0
  transits : Tab Transit := []
  nextTransit : Nat := 0
  txNum : Tab Nat := []
  rxNum : Tab Nat := []
  red : List (Nat × RedSlot) := []
  incoming : Tab Incoming := []
  nextIn : Nat := 0
  sends : List RdmaSend := []
  nextSend : Nat := 0
  paced : List Packet := []
  committing : Bool := false
  heldTx : List Packet := []
  lastSent : Tab (Nat × Bool) := []
  replies : List MgmtReply := []
  deriving DecidableEq, Repr

/-! ### The storage side (11) -/

/-- The state of a NAND channel (NVC_CH_STAT). Reset OFF. -/
inductive ChanMode where | off | training | up | out | failed
  deriving DecidableEq, Repr

/-- A block of a target (R410 to R413), keyed within its channel: erase count, reads since programming, whether it is bad,
holds valid data, or is erased and free, whether a codeword of it calls for its refresh (R410), and the LUN it belongs to. -/
structure BlockRec where
  erases : Nat := 0
  reads : Nat := 0
  bad : Bool := false
  valid : Bool := false
  free : Bool := false
  due : Bool := false
  lun : Nat := 0
  deriving DecidableEq, Repr

/-- A NAND channel (NVC_CH registers), its blocks, and which of its LUNs have had EV_NVC_SPACE raised. Reset 0. -/
structure ChanRec where
  mode : ChanMode := .off
  targets : BitVec 8 := 0#8
  qlc : Bool := false
  ovf : Bool := false
  tier1 : Nat := 0
  tier2 : Nat := 0
  tier3 : Nat := 0
  tier4 : Nat := 0
  uncorr : Nat := 0
  factory : Nat := 0
  grown : Nat := 0
  maxErase : Nat := 0
  minErase : Nat := 0
  endurance : Nat := 0
  blocks : Tab BlockRec := []
  low : List Nat := []
  deriving DecidableEq, Repr

/-- A granule in a staging ring or in a delta (R421, R423): device-local address, step, bytes, poison. -/
structure Staged where
  addr : Nat
  step : Nat
  bytes : List (BitVec 8)
  poison : BitVec 8
  deriving DecidableEq, Repr

/-- A stack's staging ring (R422), oldest first, and the step for which it copies nothing more. -/
structure RingRec where
  q : List Staged := []
  stop : Option Nat := none
  deriving DecidableEq, Repr

/-- A codeword on flash (R404, R405): the kind and the object of its TAG (a snapshot's generation; a delta's job and step; a parity page's stripe), the
CSEQ of the commit record that it belongs to once that is written, its number within its object, and its 4,096 bytes of data. -/
structure Codeword where
  kind : Nat
  obj : Nat
  step : Nat
  seq : Option Nat
  index : Nat
  data : List (BitVec 8)
  deriving DecidableEq, Repr

/-- A stripe (R406): its data pages by their gateway, 0 to 7, the gateway of its parity page once that is programmed, and the pages that are lost and
not rebuilt (R434). -/
structure StripeRec where
  pages : Tab (List Codeword) := []
  parity : Option Nat := none
  lost : List Nat := []
  deriving DecidableEq, Repr

/-- A commit record (R426); `first` and `last` are the stripes of its data, `checks` is STACK_CHECK. -/
structure CommitRec where
  kind : Nat
  slot : Nat
  job : Nat
  mapGen : Nat
  cseq : Nat
  step : Nat
  sgen : Nat
  bytes : Nat
  first : Nat
  last : Nat
  checks : List Nat
  deriving DecidableEq, Repr

/-- What a snapshot slot holds (R427, R431): generation, base step, job, the granules read, the committed deltas of later steps
in log order, the last of those steps, and STACK_CHECK. -/
structure SnapRec where
  sgen : Nat
  base : Nat
  job : Nat
  data : List Staged
  deltas : List Staged
  last : Nat
  checks : List Nat
  deriving DecidableEq, Repr

/-- A snapshot in progress (R428, R429): its slot, base step, the granules read so far, how many of them are programmed, the
stacks still being read with the 4 KiB block each is at, the check values posted, by stack, and the sequence that its requests
to the base dies' check-value units carry. -/
structure SnapNow where
  slotB : Bool
  base : Nat
  data : List Staged
  flashed : Nat
  left : List Nat
  at_ : Tab Nat
  checks : Tab Nat
  rseq : Nat
  deriving DecidableEq, Repr

/-- A model image in a slot (R432): the program image, and its extents' addresses and bytes. -/
structure ImageRec where
  program : List (BitVec 8)
  extents : List (Nat × List (BitVec 8))
  deriving DecidableEq, Repr

/-- NVC_STORE_STAT.STATE. Reset NONE. -/
inductive StoreMode where | none_ | idle | recording | snapshot | restoring | broken
  deriving DecidableEq, Repr

/-- The store (R415 to R435, NVC registers). Images are keyed 2 * number + slot and `imageNow` names the slot in force;
`sys` is each side's log, newest record first, with the record's type and bytes, `sysHalf` the half in use and
`sysOut` a side out of service; `pages` are the job's delta granules at the gateways, `flashed` of them programmed;
`stripes` are the stripes on flash, keyed 4 * number + group; `slotBytes` is the size of a snapshot slot in the
store directory (log entry 40). -/
structure Nvm where
  chans : Tab ChanRec := []
  mode : StoreMode := .none_
  slotB : Bool := false
  valid : Bool := false
  stepCommit : Nat := 0
  sgen : Nat := 0
  base : Nat := 0
  patrolDays : Nat := 7
  snapEvery : Nat := 0x1F4
  rings : Tab RingRec := []
  pages : List Staged := []
  flashed : Nat := 0
  broken : List Nat := []
  areaA : List CommitRec := []
  areaB : List CommitRec := []
  cseq : Nat := 0
  slots : Tab SnapRec := []
  snapNow : Option SnapNow := none
  snapAsked : Bool := false
  images : Tab ImageRec := []
  imageNow : Tab Nat := []
  imageNew : List (Nat × Nat × Nat × ImageRec) := []
  sys : Tab (List (Nat × List (BitVec 8))) := []
  sysHalf : Tab Nat := []
  sysOut : Tab Bool := []
  stripes : Tab StripeRec := []
  slotBytes : Nat := 0x18000000000
  deriving DecidableEq, Repr

/-! ### The host interface and the job (12) -/

/-- The STATE of a status word (R455). Reset EMPTY. -/
inductive CmdState where | empty | accepted | running | done | failed | aborting | aborted | rejected
  deriving DecidableEq, Repr

/-- A status word (R455). Reset 0. -/
structure Status where
  st : CmdState := .empty
  code : Nat := 0
  phase : Nat := 0
  progress : Nat := 0
  seq : Nat := 0
  deriving DecidableEq, Repr

/-- A command queue's registers (HIF_QCTL, HIF_QDB, HIF_QSTAT) and the slots it has taken that have not ended, oldest
first. `gw7` overrides its home once it has moved (R444). -/
structure QueueRec where
  enable : Bool := false
  cls : Nat := 0
  depth : Nat := 12
  tail : Nat := 0
  head : Nat := 0
  moved : Bool := false
  gw7 : Option Bool := none
  live : List Nat := []
  deriving DecidableEq, Repr

/-- A COPY in progress (R453), by queue: its slot, addresses, bytes in all and moved, direction, check, whether poison was
met, the bytes so far when a check covers them, whether it waits for the check-value unit, its SEQ, and that unit. -/
structure CopyRec where
  slot : Nat
  host : Nat
  stack : Nat
  total : Nat
  moved : Nat
  out : Bool
  check : Nat
  poison : Bool
  bytes : List (BitVec 8)
  waitCvu : Bool
  seq : Nat
  unit : Nat
  deriving DecidableEq, Repr

/-- What a transfer to or from host memory belongs to. -/
inductive XferFor where
  | copy (queue : Nat)
  | result
  | event
  | start
  | mbx (m : Nat)
  deriving DecidableEq, Repr

/-- A transfer to or from host memory that the host has not yet answered (R438, R454): link (2 while it finds none UP, since a
cycle), host address, length, the bytes of a write. -/
structure Xfer where
  link : Nat
  addr : Nat
  len : Nat
  data : Option (List (BitVec 8))
  since : Nat
  use : XferFor
  deriving DecidableEq, Repr

/-- A completion that the host side has not acknowledged (R439, R577, R660): link, tag, code, data, and the SEQ of its frame, none
while the link is not UP. -/
structure Cpl where
  link : Nat
  tag : Nat
  code : Nat
  bytes : List (BitVec 8)
  seq : Option Nat
  deriving DecidableEq, Repr

/-- A mailbox (MBX registers), and when it was last rung among all doorbells. Reset 0, and RECEIVER 0x0010. -/
structure MbxRec where
  owner : Nat := 0
  pending : Bool := false
  service : Nat := 0
  done : Bool := false
  rcode : Nat := 0
  receiver : Nat := 0x10
  data : Tab (BitVec 32) := []
  rung : Nat := 0
  deriving DecidableEq, Repr

/-- The host interface: queues, the command slots as host software wrote them (key 64 * (4096 * queue + slot) + byte), the
device's own copies of the commands it has taken, status words (key 4096 * queue + slot), the STARTs that
wait, in the order of acceptance, transfers by tag, completions, mailboxes; `outstanding` lists the host requests not yet
answered. -/
structure Hif where
  queues : Tab QueueRec := []
  cmds : Memory := []
  own : Tab (List (BitVec 8)) := []
  status : Tab Status := []
  starts : List (Nat × Nat) := []
  copies : Tab CopyRec := []
  xfers : Tab Xfer := []
  nextTag : Nat := 0
  cpls : List Cpl := []
  outstanding : List (Nat × Nat) := []
  mbx : Tab MbxRec := []
  nextRing : Nat := 0
  deriving DecidableEq, Repr

/-- Where the job is (R463). `ready` has its program in the cores and starts at the next boundary; `waitDie` waits
for a bound die's compute reset to end before the program is broadcast (R579, R581). -/
inductive JobPhase where | none_ | loading | waitSweep | restoring | waitDie | ready | running | relay | drain | sweep
  deriving DecidableEq, Repr

/-- What the job descriptor says (R461): job number, flags, record set, result extents, image source. -/
structure JobSpec where
  job : Nat
  src : Nat
  resume : Bool
  record : Bool
  recSet : List (Nat × Nat)
  results : List (Nat × Nat × Nat)
  image : Nat
  outAddr : Nat
  outLen : Nat
  deriving DecidableEq, Repr

/-- The job. `running` from its first tick to its end; `endCode` is the code it ends with; `cause` is the cause of its
end's sweeps (DIE_SWEEP.CAUSE); `aborts` are the ABORTs that end with it; `closed`, `asked` and `marks` are the
steps closed, the last one requested, and the marks accepted with their ticks (R489); `closing` lists requested
steps with the tick at whose boundary each closes; `resumeAt` is the step a restore goes to; `started` tells that the job has had its first tick; `afterTest` and
`faultCode` are the phase that a fit test interrupted and the code of the failure behind it; the last group is the HIF_JOB
block (R460). -/
structure Job where
  phase : JobPhase := .none_
  running : Bool := false
  endCode : Option Nat := none
  cause : SweepCause := .none_
  queue : Nat := 0
  slot : Nat := 0
  spec : JobSpec := ⟨0, 0, false, false, [], [], 0, 0, 0⟩
  image : List (BitVec 8) := []
  hdr : TickHdr := {}
  aborts : List (Nat × Nat) := []
  abortAt : Nat := 0
  firstTick : Nat := 0
  closed : Nat := 0
  asked : Nat := 0
  marks : List (Nat × Nat) := []
  closing : List (Nat × Nat) := []
  resumeAt : Option Nat := none
  left : List (Nat × Nat × Nat) := []
  moved : Nat := 0
  afterTest : JobPhase := .none_
  faultCode : Nat := 0
  started : Bool := false
  gen : Nat := 0
  id : Nat := 0
  regQueue : Nat := 0
  regSlot : Nat := 0
  regFirst : Nat := 0
  regStep : Nat := 0
  deriving DecidableEq, Repr

/-! ### Watchdogs and consensus (13) -/

/-- CONS_STATE.STATE. Reset NONE. -/
inductive ConsMode where | none_ | member | changing | fenced | spare
  deriving DecidableEq, Repr

/-- A rank of the membership table (CONS_MEMBER) what its beacons last reported, the last step for
which EV_STEP_STRAGGLER told of it, and the cycle of its last beacon. -/
structure Member where
  live : Bool := false
  straggler : Bool := false
  partner : Option Nat := none
  dev : Nat := 0xFFFF
  inc : Nat := 0
  closed : Nat := 0
  committed : Nat := 0
  pairUp : Bool := false
  noted : Nat := 0
  seen : Nat := 0
  deriving DecidableEq, Repr

/-- A proposed change (R498): view, cause, ranks, resume step, the device and incarnation of a joiner, the ranks that have
answered, and the cycle in which it set out. -/
structure Proposal where
  view : Nat
  cause : Nat
  ranks : List Nat
  step : Nat
  join : Option (Nat × Nat)
  acks : List Nat
  at_ : Nat
  deriving DecidableEq, Repr

/-- A trigger of a change that waits for the change in progress (R498): its cause, the ranks, and the device and incarnation of a joiner. -/
structure Trigger where
  cause : Nat
  ranks : List Nat
  join : Option (Nat × Nat)
  deriving DecidableEq, Repr

/-- The consensus engines (13, CONS registers), both holding the same state (R494). `gw7` tells which engine is active.
`lastTrigger` is the cycle of the last trigger's arrival; `suspected` is the rank this member has sent a SUSPECT about;
`noticed` keeps the cycle of the last FENCED notice by device; `learned` keeps the tick at which the coordinator learned
that every rank had closed step `allClosed`; `suspectAt` is the cycle of this member's SUSPECT; `spare` marks a spare member (STATE
reads SPARE); `partnerApplied` is the last step that the partner's APPLY has named; `pairLog` are the partner's granules not yet applied, `logged` the last step our
partner has logged, `logSent` the last step whose end we have sent it, `logGot` the last of its steps that we have logged, and `shadowed` tells that the first whole copy is made (R507). -/
structure Cons where
  mode : ConsMode := .none_
  gw7 : Bool := false
  silentOff : Bool := false
  group : Nat := 0
  view : Nat := 0
  inc : Nat := 0
  rank : Nat := 0
  pair : Bool := false
  beaconUs : Nat := 0
  silence : Nat := 0
  deadline : Nat := 0
  straggle : Nat := 0
  takeover : Nat := 0
  shadowBase : Nat := 0
  members : Tab Member := []
  lastCause : Nat := 0
  lastRank : Nat := 0
  lastDev : Nat := 0xFFFF
  groupStep : Nat := 0
  committed : Nat := 0
  resume : Nat := 0
  ovf : Bool := false
  paceOk : Bool := false
  suspects : Nat := 0
  fencedSent : Nat := 0
  stragglers : Nat := 0
  timeUs : Nat := 0
  proposal : Option Proposal := none
  waiting : List Trigger := []
  suspected : List Nat := []
  lastTrigger : Nat := 0
  noticed : Tab Nat := []
  learned : Nat := 0
  allClosed : Nat := 0
  suspectAt : Nat := 0
  spare : Bool := false
  partnerApplied : Nat := 0
  pairLog : List Staged := []
  logged : Nat := 0
  applied : Nat := 0
  shadowed : Bool := false
  logSent : Nat := 0
  logGot : Nat := 0
  lastClosed : Nat := 0
  lastCommitted : Nat := 0
  deriving DecidableEq, Repr

/-- A steward's watchdog (R478), by agent number (R469): whether it restarts, the cycle in which it came back from its last restart,
and whether its unit or its seat is lost. -/
structure WdtRec where
  restarting : Bool := false
  backAt : Option Nat := none
  out : Bool := false
  deriving DecidableEq, Repr

/-- A request that an engine has sent in class C0 and that is not answered (R510), with the cycle in which it was last sent. -/
structure C0Req where
  pkt : Packet
  at_ : Nat
  deriving DecidableEq, Repr

/-- The stewards: watchdogs, which panel steward is active (that of GW7 or of GW0; none when neither is, since a cycle), and the
unanswered C0 requests of the consensus engine by number. -/
structure Stewards where
  wdt : Tab WdtRec := []
  active : Option Bool := none
  offAt : Nat := 0
  c0 : Tab C0Req := []
  nextC0 : Nat := 0
  deriving DecidableEq, Repr

/-! ### Power (14) and the module (19) -/

/-- PWR_ERG_STAT.STATE (14). Reset OFF. -/
inductive ErgMode where | off | up | derated | dark | shorted
  deriving DecidableEq, Repr

/-- An erg's supply (R514 to R529, the PWR_ERG registers). `windows` is the forecast of the next 8 windows of 64 cycles (R521), `phases`
and `feed` are the phases turned on and the feed-forward offset of the present window (R522), `runs` the windows in a row in which a sensor
(64 * site + sensor) has drooped beyond its expectation (R524), and `noted` tells that this job has raised EV_PWR_UNHINTED. Reset 0. -/
structure ErgPwr where
  mode : ErgMode := .off
  ctrlOk : BitVec 4 := 0#4
  setpoint : Nat := 0
  vmin : Nat := 0
  iout : Nat := 0
  windows : List Nat := []
  limit : Nat := 0
  phases : Nat := 0
  feed : Nat := 0
  droopOvf : Bool := false
  unhinted : Nat := 0
  trips : Nat := 0
  noted : Bool := false
  anomOvf : Bool := false
  anomalies : Nat := 0
  lastSite : Nat := 0
  lastSensor : Nat := 0
  runs : Tab Nat := []
  vbus : Nat := 0
  iin : Nat := 0
  deriving DecidableEq, Repr

/-- The level of the 60 V input (R511), `off` before it has been applied. -/
inductive InputLevel where | off | normal | beyond | under | high
  deriving DecidableEq, Repr

/-- Power (the PWR registers). `excursion` holds the step limit and PWR_STAT.STATE INPUT of R511 until the input has been back for 1 s, and
`told` that the present excursion has raised its event; `stopping` awaits the stop of every stage 1, and `stopped` tells that they have
stopped and that the restart waits for the input; `capStep` is the power cap's step limit and `capLow` the samples in a row below 90 % of
the cap (R513); `anoms` counts a site's anomalies since cold start; `replace` and `migrate` are the sites and ergs that R525 and R527 treat at the
end of the job; `dark` and `shorted` are PWR_DARK. -/
structure Pwr where
  vin : Nat := 0
  iin : Nat := 0
  avg1s : Nat := 0
  avg10ms : Nat := 0
  cap : Nat := 0x3A98
  level : InputLevel := .off
  excursion : Bool := false
  told : Bool := false
  stopping : Bool := false
  stopped : Bool := false
  capStep : Nat := 0
  capLow : Nat := 0
  floor : Nat := 0
  energy : Nat := 0
  dark : List Nat := []
  shorted : List Nat := []
  ergs : Tab ErgPwr := []
  anoms : Tab Nat := []
  replace : List Nat := []
  migrate : List Nat := []
  deriving DecidableEq, Repr

/-- The module (19): THERMTRIP# pulled low (R650), the address straps (R648), the carriers that have been removed since cold start
(R645), the copies that the management bus serves, by command code (R649), and the bytes of the last reply on that bus, none for a NAK. -/
structure McRec where
  tripLow : Bool := false
  straps : Nat := 0
  removed : List Nat := []
  mirror : Tab Nat := []
  reply : Option (List (BitVec 8)) := none
  deriving DecidableEq, Repr

/-! ### Clocks and heat (15) -/

/-- CLK_DIE.STATE (15). Reset OFF. -/
inductive ClkSource where | off | primary | secondary | lost
  deriving DecidableEq, Repr

/-- A die's CLK_DIE and THM_DIE (15): directions 0 north, 1 east, 2 south, 3 west; `stretchW` and `stretchE` are how many of 8 cycles a stretched half
swallows (R244). -/
structure DieClk where
  st : ClkSource := .off
  pri : Nat := 0
  sec : Nat := 0
  link : BitVec 4 := 0#4
  stretchW : Nat := 0
  stretchE : Nat := 0
  tj : Nat := 0
  fc : Nat := 0
  sensor : Nat := 0
  deriving DecidableEq, Repr

/-- An erg's THM_ERG (15), whether its warning stands (R547), and the forecasts in a row for which it has been below 90 °C, and below 85 °C with
a full-load forecast below 95 °C (R555). -/
structure ErgThm where
  tj : Nat := 0
  fc : Nat := 0
  warned : Bool := false
  below90 : Nat := 0
  cool : Nat := 0
  deriving DecidableEq, Repr

/-- CLK_REF.SEL. -/
inductive RefSel where | refA | refB | holdover
  deriving DecidableEq, Repr

/-- THM_STAT.COOLING (R558). -/
inductive Cooling where | ok | degraded | lost
  deriving DecidableEq, Repr

/-- Clocks and heat (the CLK and THM registers). `step` is CLK_STEP.IN_FORCE and `drop` the drop that R546 schedules after the pending change, with its tick;
`pllOut` lists the gateways whose PLL is not locked; `holdAt` is the cycle in which the present holdover began; `relayDue` tells that firmware owes a clock plan (R539, R542); `rejoin`
lists the sites whose positions return to service at the next route flip (R541, R585); `cool100` counts the forecasts in a row
below 100 °C at the next faster step; `lostGone` and `worseGone` count the water samples in a row without the condition of LOST, and without that of DEGRADED or LOST; `parked` and `tripped` are THM_PARK. -/
structure Clk where
  step : Nat := 0
  next : Nat := 0
  pending : Bool := false
  atTick : BitVec 64 := 0#64
  drop : Option (Nat × Nat) := none
  req : Nat := 0
  sel : RefSel := .refA
  aOk : Bool := false
  bOk : Bool := false
  holdAt : Nat := 0
  pllOut : List Nat := []
  relayDue : Bool := false
  rejoin : List Nat := []
  die : Tab DieClk := []
  thmLimit : Nat := 0
  cool100 : Nat := 0
  tjMax : Nat := 0
  fcMax : Nat := 0
  ergs : Tab ErgThm := []
  stackTj : Tab Nat := []
  stackFc : Tab Nat := []
  parked : List Nat := []
  tripped : List Nat := []
  rotMs : Nat := 20
  rotOvf : Bool := false
  skips : Nat := 0
  cooling : Cooling := .ok
  lostGone : Nat := 0
  worseGone : Nat := 0
  inlet : Nat := 0
  outlet : Nat := 0
  flow : Nat := 0
  deriving DecidableEq, Repr

/-! ### Bring-up (16) -/

/-- DIE_BIST.STATE, of a site or (PLS_BIST) of a stack. Reset IDLE. -/
inductive BistMode where | idle | running | pass | fail
  deriving DecidableEq, Repr

/-- DIE_BIST and DIE_BIST_FAIL of a site (16). Reset 0, and CORE 0x7F. -/
structure DieBist where
  st : BistMode := .idle
  sel : Nat := 0
  repaired : Nat := 0
  unrepaired : Nat := 0
  kind : Nat := 0
  core : Nat := 0x7F
  bank : Nat := 0
  word : Nat := 0
  bit : Nat := 0
  deriving DecidableEq, Repr

/-- DIE_LINK_QUAL.STATE. Reset UNTESTED. -/
inductive QualMode where | untested | pass | passRetry | fail | training
  deriving DecidableEq, Repr

/-- DIE_LINK_QUAL of a link end (16), keyed 4 * site + direction (0 north, 1 east, 2 south, 3 west). Reset 0. -/
structure LinkQual where
  st : QualMode := .untested
  retrains : Nat := 0
  errors : Nat := 0
  deriving DecidableEq, Repr

/-- PLS_BIST of a stack (16). Reset 0. -/
structure StackBist where
  st : BistMode := .idle
  retired : Nat := 0
  lastRegion : Nat := 0
  deriving DecidableEq, Repr

/-- DIE_BCAST of a site (16). Reset 0. -/
structure DieBcast where
  result : Nat := 0
  rounds : Nat := 0
  xfer : Nat := 0
  deriving DecidableEq, Repr

/-- BOOT_STAT of GW0 or GW7 but for ACTIVE (16). Reset 0. -/
structure BootStat where
  step : Nat := 0
  full : Bool := false
  code : Nat := 0
  ms : Nat := 0
  deriving DecidableEq, Repr

/-- A receiver of an open transfer (R590): the packets it holds, the report that it has ready (status and missing ranges), and the one that has
reached the sender in this round. -/
structure BcastRecv where
  got : Tab (List (BitVec 8)) := []
  ready : Option (Nat × List (Nat × Nat)) := none
  reported : Option (Nat × List (Nat × Nat)) := none
  deriving DecidableEq, Repr

/-- An open transfer of a sending gateway (R588 to R591): XFER, OBJ, the code image's number in the program, the object, MAP_GEN, the repair round, and its receivers: site s as s, stack PSn as 144 + n. -/
structure BcastRec where
  xfer : Nat
  obj : Nat
  image : Nat
  object : List (BitVec 8)
  mapGen : Nat
  round : Nat
  recv : Tab BcastRecv
  deriving DecidableEq, Repr

/-- A stand-alone die test under way (R583 to R586): the mailbox that asked for it, the site, its depth and the role the site had. -/
structure DieTest where
  mbx : Nat
  site : Nat
  pad : Bool
  role : Role
  deriving DecidableEq, Repr

/-- Bring-up. `boot` is keyed by gateway 0 or 7; BIST by site; `settings` holds the saved link settings in force (R566), keyed by 256 * (kind and index) +
lane, with bytes 4 to 15, and `sgen` their generation, 0 for none; open transfers by sending gateway and the next XFER. -/
structure Boot where
  boot : Tab BootStat := []
  bist : Tab DieBist := []
  qual : Tab LinkQual := []
  stackBist : Tab StackBist := []
  bcast : Tab DieBcast := []
  xfers : Tab BcastRec := []
  nextXfer : Tab Nat := []
  sgen : Nat := 0
  settings : Tab (List (BitVec 8)) := []
  test : Option DieTest := none
  deriving DecidableEq, Repr

/-! ### Security (17) -/

/-- A fuse bank (R594): KEY_REVOKED, OWNER_KEY once OWNER_SET, and the anti-rollback counters by image type. -/
structure FuseBank where
  revoked : BitVec 4 := 0#4
  owner : Option (List (BitVec 8)) := none
  svn : Tab Nat := []
  deriving DecidableEq, Repr

/-- The SEC block: both fuse banks and LIFE; the firmware area's slots, keyed 16 * side + 2 * type + slot (R598), and by type the
slot and image in force (R599); the loaded extensions; the outstanding challenge and how many there have been; SEC_STAT and
SEC_EXT, and whether the read path of ID_SEED is locked (R613). Fuses that the spec gives per part are blank. -/
structure Sec where
  bankA : FuseBank := {}
  bankB : FuseBank := {}
  life : Nat := 1
  images : Tab Sys2Proof.FwImage := []
  inForce : Tab (Nat × Sys2Proof.FwImage) := []
  exts : Tab Sys2Proof.FwImage := []
  extFault : BitVec 4 := 0#4
  challenge : Option (List (BitVec 8)) := none
  challenges : Nat := 0
  debug : Bool := false
  scan : Bool := false
  rootA : Bool := false
  rootB : Bool := false
  seedLocked : Bool := false
  deriving DecidableEq, Repr

/-! ### Events (18) -/

/-- An event as raised (R628): code, low tick bits, raising node, unit, and the bytes of its values. -/
structure EventRec where
  code : Nat
  tick : Nat
  node : Nat
  unit : Nat
  data : List (BitVec 8)
  deriving DecidableEq, Repr

/-- The event queue (R627 to R631, EVQ registers): EVENT flits on their way to the active panel steward, the
steward's buffer, and the ring. Reset by the register tables of 18. -/
structure Evq where
  base : Nat := 0
  enable : Bool := false
  size : Nat := 8
  head : Nat := 0
  tail : Nat := 0
  seq : Nat := 0
  ovf : Bool := false
  lost : Nat := 0
  lostSince : Nat := 0
  travelling : List EventRec := []
  buffer : List EventRec := []
  deriving DecidableEq, Repr

/-- A background activity (R616, R618, BG_ACT): the work left of the most-behind unit, the work carried over, and the
time left of its period in units of 1/126 ns. -/
structure BgAct where
  ovf : Bool := false
  urgent : Bool := false
  missed : Nat := 0
  donePct : Nat := 0
  work : Nat := 0
  total : Nat := 0
  left : Nat := 0
  deriving DecidableEq, Repr

/-- Background work (R618, R619): BG_CTL.SPACING, the seven activities, and the tick of the last urgent slice. -/
structure Bg where
  spacing : Nat := 4
  acts : Tab BgAct := []
  lastSlice : Option Nat := none
  deriving DecidableEq, Repr

/-- The latch and the held low word of each agent of R469 and of each manager device (R625, R626): the register's
offset and 32 bits. -/
structure Latches where
  latch : Tab (Nat × BitVec 32) := []
  heldLow : Tab (Nat × BitVec 32) := []
  deriving DecidableEq, Repr

/-- The machine. -/
structure State where
  clock : Clock := {}
  panel : Panel := {}
  cores : Tab CoreRec := []
  srams : Srams := {}
  ctx : Tab Ctx := []
  ctxDue : List (Nat × Nat) := []
  loadLevel : Tab Nat := []
  hints : List (Nat × Nat × Nat) := []
  mesh : Mesh := {}
  plos : Stacks := {}
  win : Windows := {}
  zfp : Zfp := {}
  nvm : Nvm := {}
  cons : Cons := {}
  stew : Stewards := {}
  inc : Tab Nat := []
  job : Job := {}
  hif : Hif := {}
  pwr : Pwr := {}
  clk : Clk := {}
  boot : Boot := {}
  mc : McRec := {}
  sec : Sec := {}
  bg : Bg := {}
  latches : Latches := {}
  evq : Evq := {}
  pending : List Instr := []
  deriving DecidableEq, Repr

/-- The machine right after reset. -/
def State.reset : State := {}

end Sys2Proof.Machine
end

