-- ==== Sys2Proof/Machine/Ops.lean ====
section
/-! DEFINITION. The named operations over the machine's state: time, events, counters, cores, scratchpads and
their integrity, core faults, and the numbers that programs use. -/

namespace Sys2Proof.Machine

open Sys2Proof

/-- The outcome of a command. -/
abbrev Out := Host.Outcome State Fault Refusal

/-! ### Time -/

/-- Apply a state change to each of a list of numbers in turn. -/
def State.each (s : State) (f : State → Nat → State) : List Nat → State
  | [] => s
  | x :: xs => (f s x).each f xs

/-- Let the clock reach cycle `t`; a clock that is past it stays. -/
def State.advance (s : State) (t : Nat) : State := { s with clock := { s.clock with now := max s.clock.now t } }

/-- Cycle within the current tick, counted from 0 at its first cycle and through inserted cycles (R221). -/
def State.cycle (s : State) : Nat := s.clock.now - s.clock.start

/-- D = TICK_LEN - QUIET_LEN. -/
def TickHdr.d (h : TickHdr) : Nat := h.len - h.quiet

/-- The first cycle of the next tick, as the inserted cycles so far place it (R221, R234). -/
def State.boundary (s : State) : Nat := s.clock.start + s.clock.hdr.len + s.clock.ins

/-- The low 32 bits of the tick counter. -/
def State.tick32 (s : State) : Nat := s.clock.tick.toNat % 2 ^ 32

/-! ### Events (R628) -/

/-- The bytes of an event's values, each with its size in bytes (R628). -/
def evData : List (Nat × Nat) → List (BitVec 8)
  | [] => []
  | (n, v) :: r => leBytes n v ++ evData r

/-- The unit number of an event that concerns none (R628). -/
def noUnit : Nat := 0xFFFF

/-- Node of GW0's panel steward, which stands for the active one as a raiser. -/
def panelNode : Nat := nodeAt 13 2

/-- The node that an event shows: the active panel steward's own for one that it raises (log entry 20). -/
def State.raiser (s : State) (node : Nat) : Nat := if node = panelNode ∧ s.stew.active = some true then nodeAt 130 2 else node

/-- Raise an event: it sets out as an EVENT flit for the active panel steward (R632). -/
def State.raise (s : State) (code node unit : Nat) (vals : List (Nat × Nat)) : State :=
  { s with evq := { s.evq with
      travelling := s.evq.travelling ++ [⟨code, s.tick32, s.raiser node, unit, evData vals⟩] } }

/-! ### Counters (R622, R623) -/

/-- One count of an event counter with maximum `mx`: at its maximum it stays and the sticky flag rises. The third
part says that the flag rose just now. -/
def bump (mx v : Nat) (ovf : Bool) : Nat × Bool × Bool :=
  if v < mx then (v + 1, ovf, false) else (v, true, !ovf)

/-- Raise EV_CNT_OVF, with the register's offset and the low bit of the field, when a flag rose just now (R623). -/
def State.cntOvf (s : State) (rose : Bool) (reg lowBit node : Nat) : State :=
  if rose then s.raise 0x0E03 node noUnit [(4, reg), (1, lowBit)] else s

/-- A count that stays at its maximum (interval gauges of R622). -/
def satAdd (mx v n : Nat) : Nat := max v (min mx (v + n))

/-! ### Cores -/

/-- The record of a physical core. -/
def State.core (s : State) (p : Nat) : CoreRec := tget {} s.cores p

/-- Put back the record of a physical core. -/
def State.setCore (s : State) (p : Nat) (c : CoreRec) : State := { s with cores := tput s.cores p c }

/-- Change the record of a physical core. -/
def State.modCore (s : State) (p : Nat) (f : CoreRec → CoreRec) : State := s.setCore p (f (s.core p))

/-- Change a core's control state. -/
def State.modCtl (s : State) (p : Nat) (f : CoreCtl → CoreCtl) : State :=
  s.modCore p fun c => { c with ctl := f c.ctl }

/-- Change a core's pipes and buffers. -/
def State.modPipe (s : State) (p : Nat) (f : CorePipe → CorePipe) : State :=
  s.modCore p fun c => { c with pipe := f c.pipe }

/-- Change a core's state word. -/
def State.modStat (s : State) (p : Nat) (f : CoreStat → CoreStat) : State :=
  s.modCore p fun c => { c with stat := f c.stat }

/-- The site of a logical die, none while it is unbound (R30, R59). -/
def State.siteOfLd (s : State) (ld : Nat) : Option Nat := tfind s.panel.ldSite ld

/-- The rest position of a row of a logical die (R35). -/
def State.restOf (s : State) (ld row : Nat) : Nat := tget 12 s.panel.rest (8 * ld + row)

/-- The logical die bound to a site. -/
def State.ldAt (s : State) (site : Nat) : Option Nat :=
  (s.panel.ldSite.find? fun e => e.2 == site).map (·.1)

/-- The physical core that carries a logical core (R34), none while its die is unbound. -/
def State.pcoreOf (s : State) (l : Nat) : Option Nat :=
  if l < 12288 then
    (s.siteOfLd (lDie l)).map fun site =>
      pcoreAt site (lRow l) (physCol (s.restOf (lDie l) (lRow l)) (lCol l))
  else none

/-- The faulty column of a row of a site, when it has one (R37, R39). -/
def State.rowFaultOf (s : State) (site row : Nat) : Option Nat := tfind s.panel.rowFault (8 * site + row)

/-- The role of a site; gateways always hold theirs, and a compute site reads dark until the map is confirmed (R62). -/
def State.roleOf (s : State) (site : Nat) : Role := if isGw site then .gateway else tget .dark s.panel.role site

/-- Incarnation table default and width live in 13; the low 8 bits of a source's incarnation go into a flit. -/
def inc8 (n : Nat) : BitVec 8 := BitVec.ofNat 8 n

/-- Whether the off-ramps of a core discard what arrives for it: its sweep is under way, or its die is in compute reset (R344,
R581). -/
def State.coreShut (s : State) (p : Nat) : Bool :=
  (s.core p).stat.run == .sweeping || tget .off s.panel.die (pSite p) == .computeReset

/-! ### Stream contexts (R187) -/

/-- Key of a logical core's stream context. -/
def ctxKey (l c : Nat) : Nat := 8 * l + c

/-- A stream context as it stands. -/
def State.getCtx (s : State) (k : Nat) : Ctx := tget {} s.ctx k

/-- Change a stream context. -/
def State.modCtx (s : State) (k : Nat) (f : Ctx → Ctx) : State := { s with ctx := tmod {} s.ctx k f }

/-- A granule delivered: the count rises, and the last one makes an ACTIVE context DONE (R187). -/
def Ctx.deliver (c : Ctx) : Ctx :=
  if c.st = .idle then c
  else { c with count := c.count + 1, st := if c.st = .active ∧ c.count + 1 = c.total then .done else c.st }

/-- Counts whose cycle has come are added: a granule counts in the cycle after its write (R187). A context that
a program load or sweep has returned to IDLE counts nothing more. -/
def landCounts (now : Nat) : List (Nat × Nat) → Tab Ctx → Tab Ctx × List (Nat × Nat)
  | [], t => (t, [])
  | (due, k) :: r, t =>
    if due ≤ now then
      landCounts now r (tmod {} t k Ctx.deliver)
    else
      let q := landCounts now r t
      (q.1, (due, k) :: q.2)

/-- A refusal notice makes its context ERROR, with its count unchanged (R187, R298). -/
def Ctx.refused (c : Ctx) : Ctx := if c.st = .idle then c else { c with st := .error }

/-- Bring the contexts to the present cycle: their counts, and the refusals whose notices are due by then (R298). -/
def State.syncCtx (s : State) : State :=
  let q := landCounts s.clock.now s.ctxDue s.ctx
  let late := s.plos.notices.filter fun e => decide (e.2.due ≤ s.clock.now)
  { s with
    ctx := late.foldl (fun t e => tmod {} t (ctxKey e.2.lcore e.2.ctx) Ctx.refused) q.1
    ctxDue := q.2
    plos := { s.plos with notices := tfilter (fun _ r => decide (s.clock.now < r.due)) s.plos.notices } }

/-! ### Core integrity counters (R82, R87, CORE_ECC) -/

/-- Count a corrected single-bit error of a core's scratchpad or instruction memory. -/
def State.countCorr (s : State) (p : Nat) : State :=
  let c := s.core p
  let b := bump 0x7FFF c.count.corr c.count.eccOvf
  (s.setCore p { c with count := { c.count with corr := b.1, eccOvf := b.2.1 } }).cntOvf b.2.2
    (coreWin p + 0x28) 16 (nodeAt (pSite p) 0)

/-- Count an uncorrectable error: in the scratchpad at `bank`, or in instruction memory. -/
def State.countUncorr (s : State) (p : Nat) (bank : Option Nat) : State :=
  let c := s.core p
  let b := bump 0xF c.count.uncorr c.count.eccOvf
  (s.setCore p { c with count := { c.count with
      uncorr := b.1, eccOvf := b.2.1, lastImem := bank.isNone,
      lastBank := bank.getD c.count.lastBank } }).cntOvf b.2.2 (coreWin p + 0x28) 12 (nodeAt (pSite p) 0)

/-! ### Scratchpads (R74, R82, R657) -/

/-- Bytes of one scratchpad. -/
def spadSize : Nat := 0x200000
/-- Key of a scratchpad byte. -/
def spKey (p off : Nat) : Nat := spadSize * p + off % spadSize
/-- Key of a scratchpad's 8-byte word. -/
def wordKey (p w : Nat) : Nat := 0x40000 * p + w % 0x40000
/-- Bank of a scratchpad offset (R74). -/
def bankOf (off : Nat) : Nat := off / 64 % 16

/-- Change the SRAMs. -/
def State.modSrams (s : State) (f : Srams → Srams) : State := { s with srams := f s.srams }

/-- A word's poison mark. -/
def State.wordPoison (s : State) (p w : Nat) : Bool := tget false s.srams.poison (wordKey p w)

/-- Mark or clear a word's poison, and give it new check bits. -/
def State.markWord (s : State) (p w : Nat) (bad : Bool) : State :=
  s.modSrams fun r => { r with poison := mset false r.poison (wordKey p w) bad, flips := mset 0 r.flips (wordKey p w) 0 }

/-- Read one 8-byte word: its bytes and whether it is poison. A single-bit error is corrected in the data read and
counted; a double-bit error makes the word poison and counts once (R82). While a core is swept, its words read as poison and give none of
what they held (R344, R350). -/
def State.readWord (s : State) (p w : Nat) : State × List (BitVec 8) × Bool :=
  let bytes := Memory.readBytes s.srams.spad (spKey p (8 * w)) 8
  if (s.core p).stat.run = .sweeping then (s, List.replicate 8 0#8, true)
  else if s.wordPoison p w then (s, bytes, true)
  else
    match tget 0 s.srams.flips (wordKey p w) with
    | 0 => (s, bytes, false)
    | 1 => (s.countCorr p, bytes, false)
    | _ => ((s.countUncorr p (some (bankOf (8 * w)))).markWord p w true, bytes, true)

/-- Read `n` consecutive words. -/
def State.readWords (s : State) (p w : Nat) : Nat → State × List (List (BitVec 8) × Bool)
  | 0 => (s, [])
  | n + 1 =>
    let q := s.readWord p w
    let r := q.1.readWords p (w + 1) n
    (r.1, q.2 :: r.2)

/-- The row's move, when one is under way (R90). -/
def State.moveAt (s : State) (p : Nat) : Option Move := tfind s.panel.moves (8 * pSite p + pRow p)

/-- The core that repeats every write into `p` while `p` is the source of a move (R90). -/
def State.mirrorOf (s : State) (p : Nat) : Option Nat :=
  if (s.core p).stat.mirror then (s.moveAt p).map fun m => pcoreAt (pSite p) (pRow p) m.rest else none

/-- Write a whole word into one scratchpad (R657). -/
def State.putWord1 (s : State) (p w : Nat) (bytes : List (BitVec 8)) (bad : Bool) : State :=
  (s.modSrams fun r => { r with spad := Memory.writeBytes r.spad (spKey p (8 * w)) (bytes.take 8) }).markWord p w bad

/-- Write four bytes of a word into one scratchpad: the word is read first (R657). -/
def State.putHalf1 (s : State) (p off : Nat) (bytes : List (BitVec 8)) (bad : Bool) : State :=
  let w := off / 8
  let q := s.readWord p w
  (q.1.modSrams fun r => { r with spad := Memory.writeBytes r.spad (spKey p off) (bytes.take 4) }).markWord p w
    (q.2.2 || bad)

/-- A whole-word write, repeated into the receiving core of a move (R657, R90). -/
def State.putWord (s : State) (p w : Nat) (bytes : List (BitVec 8)) (bad : Bool) : State :=
  let s1 := s.putWord1 p w bytes bad
  match s.mirrorOf p with
  | some q => s1.putWord1 q w bytes bad
  | none => s1

/-- A 4-byte write, repeated into the receiving core of a move (R657, R90). -/
def State.putHalf (s : State) (p off : Nat) (bytes : List (BitVec 8)) (bad : Bool) : State :=
  let s1 := s.putHalf1 p off bytes bad
  match s.mirrorOf p with
  | some q => s1.putHalf1 q off bytes bad
  | none => s1

/-- Write consecutive whole words from word `w` on; `bad` gives the poison of each. -/
def State.putWords (s : State) (p w : Nat) : List (List (BitVec 8) × Bool) → State
  | [] => s
  | (bs, bad) :: r => (s.putWord p (w % 0x40000) bs bad).putWords p (w + 1) r

/-- Cut bytes into 8-byte words with the poison bit of each, `n` words. -/
def wordsOf (bytes : List (BitVec 8)) (poison : BitVec 8) : Nat → Nat → List (List (BitVec 8) × Bool)
  | 0, _ => []
  | n + 1, i => ((bytes.drop (8 * i)).take 8, poison.getLsbD i) :: wordsOf bytes poison n (i + 1)

/-- Write a granule, or the first four bytes of one (R209, R657). -/
def State.putGranule (s : State) (p off : Nat) (bytes : List (BitVec 8)) (poison : BitVec 8) : State :=
  if bytes.length = 4 then s.putHalf p off bytes (poison.getLsbD 0)
  else s.putWords p (off / 8) (wordsOf bytes poison (bytes.length / 8) 0)

/-! ### Instruction memory (R84, R87, R132) -/

/-- Key of a bundle. -/
def imKey (p j : Nat) : Nat := 2048 * p + j % 2048

/-- Write a bundle; `bad` makes it uncorrectable (R163). A write is repeated into the receiving core of a move. -/
def State.putBundle1 (s : State) (p j : Nat) (b : BitVec 256) (bad : Bool) : State :=
  s.modSrams fun r => { r with
    imem := mset 0#256 r.imem (imKey p j) b, imemFlips := mset 0 r.imemFlips (imKey p j) (if bad then 2 else 0) }

/-- A bundle write with its mirror (R90). -/
def State.putBundle (s : State) (p j : Nat) (b : BitVec 256) (bad : Bool) : State :=
  let s1 := s.putBundle1 p j b bad
  match s.mirrorOf p with
  | some q => s1.putBundle1 q j b bad
  | none => s1

/-! ### Core faults (R97, R99, R658) -/

/-- A fault cause: slot by CORE_FAULT.SLOT, code, and the bank when one is valid. -/
structure Cause where
  slot : Nat
  code : Nat
  bank : Option Nat := none
  deriving DecidableEq, Repr

/-- The cause with the lowest code; of equal codes the one of the lower slot comes first in the list (log entry 21). -/
def lowestCause : Cause → List Cause → Cause
  | c, [] => c
  | c, d :: r => if d.code < c.code then lowestCause d r else lowestCause c r

/-- Record a core fault at bundle index `bundle`: no slot issues, fetching stops, RUN becomes FAULTED (R97). A fault
already recorded stays as it is (log entry 22). -/
def State.recordFault (s : State) (p bundle : Nat) (c : Cause) (rest : List Cause) : State :=
  let k := s.core p
  let f := lowestCause c rest
  let pg := bundle / 256 % 8
  let from_ := k.ctl.pageFromIn.getLsbD pg
  let rec_ : CoreFault :=
    { valid := true, multi := !rest.isEmpty, slot := f.slot, bankV := f.bank.isSome, bank := f.bank.getD 0,
      code := f.code, paged := from_, pageSrc := if from_ then tget 0 k.ctl.pageSrc pg else 0,
      bundle := bundle, tick := s.clock.tick }
  s.setCore p { k with
    stat := { k.stat with run := .faulted }
    fault := if k.fault.valid then { k.fault with told := false } else rec_
    ctl := { k.ctl with readyAt := none }
    pipe := { k.pipe with held := none, arriveAt := none, stopAt := none } }

/-- A core that holds a program: it runs, is held, or has faulted in one (R658, CORE_STATE.RUN). -/
def CoreRec.hasProgram (c : CoreRec) : Bool := c.stat.run == .running || c.stat.run == .held || c.stat.run == .faulted

/-- The cycles for which a bundle has been held so far are counted, as conflict stalls, or as stream stalls while WAITSTR holds it (R76, R190). -/
def CoreRec.settle (c : CoreRec) (now : Nat) : CoreRec :=
  match c.pipe.held with
  | none => c
  | some h =>
    let d := now - h.since
    { c with
      ctl := { c.ctl with
        tickConflict := if h.wait then c.ctl.tickConflict else satAdd 0xFF c.ctl.tickConflict d
        tickStream := if h.wait then satAdd 0xFF c.ctl.tickStream d else c.ctl.tickStream
        stallSum := satAdd 0xFFFF c.ctl.stallSum d }
      pipe := { c.pipe with held := some { h with since := max h.since now } } }

/-- A fault that no issuing bundle raises (R658): SLOT 0 and the bundle the core would issue next, 0 for a core with
no program. A bundle that the core holds counts its held cycles (R76, R190). -/
def State.recordOffBundle (s : State) (p code : Nat) (bank : Option Nat) : State :=
  (s.modCore p fun c => c.settle s.clock.now).recordFault p (if (s.core p).hasProgram then (s.core p).ctl.pc else 0) ⟨0, code, bank⟩ []

def ST_CORE_HW : Nat := 0x040
def ST_CORE_IMEM_ECC : Nat := 0x041
def ST_CORE_POISON : Nat := 0x042
def ST_CORE_ILLEGAL : Nat := 0x043
def ST_CORE_PAGE_LIVE : Nat := 0x044
def ST_CORE_PAGE_LATE : Nat := 0x045
def ST_CORE_PAGE_BUSY : Nat := 0x046
def ST_CORE_CTRL_SPACE : Nat := 0x047
def ST_CORE_ALIGN : Nat := 0x048
def ST_CORE_LAND_OVF : Nat := 0x049

end Sys2Proof.Machine
end

