-- ==== Sys2Proof/Machine/Sync.lean ====
section
/-! DEFINITION. A core brought to the present cycle: results in flight land (R155), waiting deliveries and page-ins
take their banks cycle by cycle (R75, R79, R85), arrivals and stops fall due (R135, R136); the cycles that a stretched half-die
swallows (R244). -/

namespace Sys2Proof.Machine

open Sys2Proof

/-! ### Stretched half-dies (R244)

A core in a stretched half counts its own cycles only in those that the half does not swallow. Its cycles to come stand in
CorePipe as if none were swallowed from `synced` on; `sync` moves them on by those that were. -/

/-- How many of every 8 cycles the half-die of a core swallows. -/
def State.swallows (s : State) (p : Nat) : Nat :=
  let d := tget {} s.clk.die (pSite p)
  min 4 (if pCol p < 7 then d.stretchW else d.stretchE)

/-- The half-die of a core: twice the site, and 1 more east of the seif. -/
def halfOf (p : Nat) : Nat := 2 * pSite p + b2n (decide (7 ≤ pCol p))

/-- The cycles of every 8 that a half-die swallows: a free choice of `k` of them (log entry 223). -/
def swallowed8 (half k : Nat) : List Nat :=
  let free := (List.range 8).filter fun i => (Config.swallowed half k).getLsbD i
  if free.length = k then free else List.range k

/-- The others. -/
def runs8 (half k : Nat) : List Nat := (List.range 8).filter fun i => !(swallowed8 half k).contains i

/-- Cycles before cycle `x` that a half-die has run. -/
def runBefore (half k x : Nat) : Nat := x / 8 * (8 - k) + ((runs8 half k).filter fun i => decide (i < x % 8)).length

/-- The cycle in which a half-die runs, `n` cycles having been run before it. -/
def runCycle (half k n : Nat) : Nat := n / (8 - k) * 8 + (runs8 half k).getD (n % (8 - k)) 0

/-- Cycles from `a` up to `b` that a half-die swallows. -/
def swallowedIn (half k a b : Nat) : Nat := (b - a) - (runBefore half k b - runBefore half k a)

/-- Whether a core's half swallows cycle `c`. -/
def State.dead (s : State) (p c : Nat) : Bool :=
  let k := s.swallows p
  decide (k ≠ 0) && (swallowed8 (halfOf p) k).contains (c % 8)

/-- The cycle in which a core's cycle `t`, counted as if none were swallowed from its last `sync` on, comes. -/
def State.realCycle (s : State) (p t : Nat) : Nat :=
  let k := s.swallows p
  if k = 0 then t
  else
    let a := (s.core p).pipe.synced
    runCycle (halfOf p) k (runBefore (halfOf p) k a + (t - a))

/-- Add `w` to a cycle after `a`. -/
def later (a w t : Nat) : Nat := if a < t then t + w else t

/-- A core's cycles to come move on by the `w` cycles swallowed since cycle `a`, of which `n` are seam stall cycles (R229, R244). -/
def CoreRec.delayBy (c : CoreRec) (a w n : Nat) : CoreRec :=
  { c with
    ctl := { c.ctl with
      readyAt := c.ctl.readyAt.map (later a w)
      tickSeif := satAdd 0xFF c.ctl.tickSeif n
      stallSum := satAdd 0xFFFF c.ctl.stallSum n }
    pipe := { c.pipe with
      flights := c.pipe.flights.map fun f => { f with due := f.due + w }
      tensorFree := later a w c.pipe.tensorFree
      vectorFree := later a w c.pipe.vectorFree
      held := c.pipe.held.map fun h => { h with since := h.since + w }
      arriveAt := c.pipe.arriveAt.map (later a w)
      stopAt := c.pipe.stopAt.map (later a w) } }

/-- What a stretched half-die has swallowed of a core's cycles up to the present one: all of them are seam stall cycles while the
core runs and until it arrives at TSYNC or stops. -/
def State.swallow (s : State) (p : Nat) : State :=
  let k := s.swallows p
  if k = 0 then s
  else
    let c := s.core p
    let a := c.pipe.synced
    let now := s.clock.now
    let upTo := match c.pipe.arriveAt, c.pipe.stopAt with
      | some t, _ => min now (s.realCycle p t)
      | none, some t => min now (s.realCycle p t)
      | none, none => now
    let counts := c.stat.run == .running && !c.ctl.atTsync && !c.ctl.stopped
    s.setCore p (c.delayBy a (swallowedIn (halfOf p) k a now) (if counts then swallowedIn (halfOf p) k a upTo else 0))

/-- Write one pipelined result (R155, R112): a term is added to the accumulator element as it stands. -/
def CoreRegs.land (r : CoreRegs) (l : Loc) (w : Pending) : CoreRegs :=
  match w with
  | .put x =>
    match l with
    | .v g i => { r with v := tput r.v (64 * g + i) x }
    | .a g => { r with a := tput r.a g x.bits }
    | .s g => { r with s := tput r.s g x }
    | .p g i => { r with p := tmod 0#64 r.p g fun old =>
        if x.bits.getLsbD 0 then old ||| (1#64 <<< i) else old &&& ~~~(1#64 <<< i) }
    | .acc b i j => { r with acc := tput r.acc (2048 * b + 32 * i + j) x }
    | .scale e i => { r with scale := tput r.scale (256 * e + i) (x.bits.setWidth 8) }
  | .add zero bad t =>
    match l with
    | .acc b i j =>
      { r with acc := tmod {} r.acc (2048 * b + 32 * i + j) fun old =>
          { bits := accAdd (if zero then 0#32 else old.bits) t, poison := bad || (!zero && old.poison) } }
    | _ => r

/-- Write the results of one operation. -/
def CoreRegs.landAll (r : CoreRegs) (ws : List (Loc × Pending)) : CoreRegs :=
  ws.foldl (fun r w => r.land w.1 w.2) r

/-- Land every flight that is due; flights stand in the order of their cycles. -/
def landFlights (now : Nat) : List Flight → CoreRegs → CoreRegs × List Flight
  | [], r => (r, [])
  | f :: fs, r => if f.due ≤ now then landFlights now fs (r.landAll f.writes) else (r, f :: fs)

/-- Add a flight behind every one due no later: of two results for one cycle the later-issued one, and within a
bundle the later-listed one, is written last and stays (R156). -/
def addFlight (f : Flight) : List Flight → List Flight
  | [] => [f]
  | g :: gs => if g.due ≤ f.due then g :: addFlight f gs else f :: g :: gs

/-- The banks that ranks 1 to 3 hold in cycle `c` so far. -/
def CorePipe.claimed (k : CorePipe) (c : Nat) : List Nat := if k.claimCycle = c then k.claims else []

/-- Ranks 4, 5 and 7 take the banks `bs` in cycle `c`. -/
def CorePipe.useBanks (k : CorePipe) (c : Nat) (bs : List Nat) : CorePipe :=
  { k with lowCycle := c, lows := bs ++ (if k.lowCycle = c then k.lows else []) }

/-- Hold bank `b` in cycle `c`. -/
def CorePipe.claim (k : CorePipe) (c b : Nat) : CorePipe := { k with claimCycle := c, claims := b :: k.claimed c }

/-- Write a delivery, hold its bank, and let its granule count one cycle later (R187). -/
def State.landDeliv (s : State) (p c : Nat) (d : Deliv) : State :=
  let s1 := (s.putGranule p d.off d.bytes d.poison).modPipe p fun k => k.claim c (bankOf d.off)
  match d.ctx with
  | some k => { s1 with ctxDue := s1.ctxDue ++ [(c + 1, k)] }
  | none => s1

/-- The head of the mesh landing buffer takes its bank in cycle `c`, at rank 1 (R75). -/
def State.meshHead (s : State) (p c : Nat) : State :=
  let k := (s.core p).pipe
  if k.meshAt = c + 1 then s
  else match k.meshBuf with
    | [] => s
    | d :: r =>
      if (k.claimed c).contains (bankOf d.off) then s
      else (s.modPipe p fun k => { k with meshBuf := r, meshAt := c + 1 }).landDeliv p c d

/-- In a cycle in which no flit has entered the landing buffer, the oldest flit of the off-ramp queues does (R262,
R79). -/
def State.rampHead (s : State) (p c : Nat) : State :=
  let k := (s.core p).pipe
  match k.ramp with
  | [] => s
  | (_, d) :: r =>
    if k.meshBuf.length < 4 ∧ k.meshIn ≠ c + 1 then
      s.modPipe p fun k => { k with ramp := r, meshIn := c + 1, meshBuf := k.meshBuf ++ [d] }
    else s

/-- The head of the stream landing buffer takes its bank in cycle `c`, at rank 2 (R75). -/
def State.streamHead (s : State) (p c : Nat) : State :=
  let k := (s.core p).pipe
  if k.streamAt = c + 1 then s
  else match k.streamBuf with
    | [] => s
    | d :: r =>
      if (k.claimed c).contains (bankOf d.off) then s
      else (s.modPipe p fun k => { k with streamBuf := r, streamAt := c + 1 }).landDeliv p c d

/-- The banks that ranks 1 and 2 take in the present cycle: those taken already, and those that waiting deliveries take in it (R75). -/
def State.landBanks (s : State) (p : Nat) : List Nat :=
  let c := s.clock.now
  let k := s.core p
  let b0 := k.pipe.claimed c
  let b1 := match k.pipe.meshBuf with
    | d :: _ => if k.pipe.meshAt = c + 1 ∨ b0.contains (bankOf d.off) then b0 else bankOf d.off :: b0
    | [] => b0
  match k.pipe.streamBuf with
  | d :: _ => if k.pipe.streamAt = c + 1 ∨ b1.contains (bankOf d.off) then b1 else bankOf d.off :: b1
  | [] => b1

/-- The banks that ranks 1 to 3 take in the present cycle: the page-in takes its own where no delivery does (R75). -/
def State.rankBanks (s : State) (p : Nat) : List Nat :=
  let b2 := s.landBanks p
  match (s.core p).ctl.pagein with
  | some g => if g.cycle ≤ s.clock.now ∧ !b2.contains (g.next % 16) then (g.next % 16) :: b2 else b2
  | none => b2

/-- The banks that the accesses of a held bundle ask for, once WAITSTR does not hold it (R77). -/
def HeldBundle.asks (h : HeldBundle) : List Nat :=
  let of (a : Access) : List Nat := if a.served then [] else a.banks
  if h.wait then [] else of h.ld0 ++ of h.ls1

/-- The banks that a source of ranks 1 to 5 claims in the present cycle (R75, R81). -/
def State.busyBanks (s : State) (p : Nat) : List Nat :=
  let k := (s.core p).pipe
  s.rankBanks p ++ (if k.lowCycle = s.clock.now then k.lows else []) ++
  (match k.held with
   | some h => h.asks
   | none => [])

/-- The bundle held in 32 bytes of scratchpad (R132). -/
def bundleOf (ws : List (List (BitVec 8) × Bool)) : BitVec 256 := BitVec.ofNat 256 (leNat (ws.flatMap (·.1)))

/-- Whether some word is poison. -/
def anyBad (ws : List (List (BitVec 8) × Bool)) : Bool := ws.any (·.2)

/-- Copy granule `i` of a page-in: two bundles, each uncorrectable when a word of it is poison (R85, R163). -/
def State.copyGranule (s : State) (p page src i : Nat) : State :=
  let q := s.readWords p (src * 1024 + 8 * i) 8
  let lo := q.2.take 4
  let hi := q.2.drop 4
  (q.1.putBundle p (256 * page + 2 * i) (bundleOf lo) (anyBad lo)).putBundle p (256 * page + 2 * i + 1)
    (bundleOf hi) (anyBad hi)

/-- The page-in asks for its next granule in cycle `c`, at rank 3; its last granule completes it in cycle `c + 1`,
and a queued page-in starts in the cycle after (R85, R86, R161). -/
def State.pageCycle (s : State) (p c : Nat) : State :=
  let k := s.core p
  match k.ctl.pagein with
  | none => s
  | some g =>
    if c < g.cycle ∨ (k.pipe.claimed c).contains (g.next % 16) then s
    else
      let s1 := (s.copyGranule p g.page g.src g.next).modPipe p fun q => q.claim c (g.next % 16)
      if g.next + 1 < 128 then
        s1.modCtl p fun t => { t with pagein := some { g with next := g.next + 1, cycle := c + 1 } }
      else
        s1.modCtl p fun t =>
          match t.pageinQ with
          | none => { t with pagein := none, pageValid := t.pageValid ||| (1#8 <<< g.page) }
          | some q =>
            { t with
              pagein := some ⟨q.page, q.src, 0, c + 2⟩, pageinQ := none,
              pageValid := if q.page = g.page then t.pageValid else t.pageValid ||| (1#8 <<< g.page) }

/-- The oldest completion record that waits takes its bank in cycle `c`, at rank 7, where no source of an earlier rank does (R340, R75). -/
def State.recordHead (s : State) (p c : Nat) : State :=
  let k := (s.core p).pipe
  match k.lowBuf with
  | [] => s
  | (from_, off, bytes) :: r =>
    let asked := match k.held with
      | some h => h.asks
      | none => []
    if c < from_ ∨ (k.claimed c ++ (if k.lowCycle = c then k.lows else []) ++ asked).contains (bankOf off) then s
    else (s.modPipe p fun k => { k.useBanks c [bankOf off] with lowBuf := r }).putWord p (off / 8) bytes false

/-- One cycle of a core's banks for ranks 1 to 3, and for the completion records of rank 7. -/
def State.bankCycle (s : State) (p c : Nat) : State :=
  ((((s.meshHead p c).rampHead p c).streamHead p c).pageCycle p c).recordHead p c

/-- Whether a core has deliveries or completion records waiting, or a page-in in progress. -/
def CoreRec.bankWork (k : CoreRec) : Bool :=
  !k.pipe.meshBuf.isEmpty || !k.pipe.streamBuf.isEmpty || !k.pipe.ramp.isEmpty || !k.pipe.lowBuf.isEmpty || k.ctl.pagein.isSome

/-- Work the banks from cycle `c` on, for at most the given number of cycles. -/
def State.bankCycles (s : State) (p c : Nat) : Nat → State
  | 0 => s
  | n + 1 => if (s.core p).bankWork then (if s.dead p c then s else s.bankCycle p c).bankCycles p (c + 1) n else s

/-- The moments of arrival and stop that have come (R135, R136). The arrival is kept as a cycle of the tick. -/
def CoreRec.moments (k : CoreRec) (now start : Nat) : CoreRec :=
  let k1 := match k.pipe.arriveAt with
    | some t => if t ≤ now then { k with
        ctl := { k.ctl with atTsync := true }, pipe := { k.pipe with arriveAt := none, arrived := some (t - start) } } else k
    | none => k
  match k1.pipe.stopAt with
  | some t => if t ≤ now then { k1 with
      stat := { k1.stat with run := if k1.stat.run = .running ∨ k1.stat.run = .held then .idle else k1.stat.run },
      pipe := { k1.pipe with stopAt := none } } else k1
  | none => k1

/-- Bring a core to the present cycle. Bank work of cycles before the present one is done; that of the present cycle
itself is still open to deliveries that arrive in it. -/
def State.sync (s : State) (p : Nat) : State :=
  let k := (s.core p).pipe
  let s1 := (s.bankCycles p k.synced (min (s.clock.now - k.synced) 1024)).swallow p
  s1.modCore p fun c =>
    let c1 := c.moments s1.clock.now s1.clock.start
    let q := landFlights s1.clock.now c1.pipe.flights c1.regs
    { c1 with regs := q.1, pipe := { c1.pipe with flights := q.2, synced := s1.clock.now } }

/-- A scheduled mesh delivery arrives in the present cycle from direction `dir` (0 for a turned-back send). A landing buffer that is
full as the cycle begins overflows, also where its head lands in this cycle (R79, log entry 234). One flit a cycle enters the landing buffer; another of the same cycle waits in the
off-ramp queue of its direction, which holds 4 (R262). A flit that enters writes at once when no older one waits and
its bank is free (R75). -/
def State.arriveMesh (s0 : State) (p dir : Nat) (d : Deliv) : State :=
  let s := s0.sync p
  let c := s.clock.now
  let k := (s.core p).pipe
  if 4 ≤ k.meshBuf.length then s.recordOffBundle p ST_CORE_LAND_OVF (some (bankOf d.off))
  else if k.meshIn = c + 1 then
    if 4 ≤ (k.ramp.filter fun e => e.1 == dir).length then
      s.recordOffBundle p ST_CORE_LAND_OVF (some (bankOf d.off))
    else s.modPipe p fun k => { k with ramp := k.ramp ++ [(dir, d)] }
  else
    let s1 := s.modPipe p fun k => { k with meshIn := c + 1 }
    if s.dead p c ∨ k.meshAt = c + 1 ∨ !k.meshBuf.isEmpty ∨ (k.claimed c).contains (bankOf d.off) then
      s1.modPipe p fun k => { k with meshBuf := k.meshBuf ++ [d] }
    else (s1.modPipe p fun k => { k with meshAt := c + 1 }).landDeliv p c d

/-- A stream granule arrives in the present cycle. It asks for its bank in it, once every delivery of rank 1 of this cycle is in: `sync` of a later
cycle grants it (R75, R79). -/
def State.arriveStream (s0 : State) (p : Nat) (d : Deliv) : State :=
  let s := s0.sync p
  if 4 ≤ (s.core p).pipe.streamBuf.length then s.recordOffBundle p ST_CORE_LAND_OVF (some (bankOf d.off))
  else s.modPipe p fun k => { k with streamBuf := k.streamBuf ++ [d] }

end Sys2Proof.Machine
end

