-- ==== Sys2Proof/Machine/Operands.lean ====
section
/-! DEFINITION. Operand forms: guards, register specifiers, register byte views, and the encoding checks of R139
that look at one slot's fields. -/

namespace Sys2Proof.Machine

open Sys2Proof

/-! ### Guards (R140, R141) -/

/-- A guard field that R140 defines. -/
def guardOk (g : BitVec 5) : Bool :=
  let mode := bitsOf g.toNat 3 2
  if mode = 0 then decide (g = 0#5) else decide (mode ≠ 3)

/-- A predicate register. -/
def CoreRegs.pred (r : CoreRegs) (i : Nat) : BitVec 64 := tget 0#64 r.p i

/-- Whether the guard lets lane `i` act. -/
def CoreRegs.guardLane (r : CoreRegs) (g : BitVec 5) (i : Nat) : Bool :=
  let mode := bitsOf g.toNat 3 2
  let bit := (r.pred (bitsOf g.toNat 0 3)).getLsbD i
  if mode = 1 then bit else if mode = 2 then !bit else true

/-- Whether the guard lets an operation that reads bit 0 act. -/
def CoreRegs.guard0 (r : CoreRegs) (g : BitVec 5) : Bool := r.guardLane g 0

/-! ### Registers (R142 to R144) -/

/-- A lane of a vector register. -/
def CoreRegs.lane (r : CoreRegs) (v i : Nat) : Lane := tget {} r.v (64 * v + i)
/-- An address register. -/
def CoreRegs.addr (r : CoreRegs) (i : Nat) : BitVec 32 := tget 0#32 r.a i
/-- A scalar register. -/
def CoreRegs.scal (r : CoreRegs) (i : Nat) : Lane := tget {} r.s i
/-- An accumulator element. -/
def CoreRegs.accum (r : CoreRegs) (buf row col : Nat) : Lane := tget {} r.acc (2048 * buf + 32 * row + col)
/-- A byte of a scale-file entry. -/
def CoreRegs.scaleByte (r : CoreRegs) (e i : Nat) : Nat := (tget 0#8 r.scale (256 * e + i)).toNat

/-- The register a CTRL field names: s0 to s15, then a0 to a15 (R144). -/
def CoreRegs.ctrl (r : CoreRegs) (c : BitVec 5) : Lane :=
  if c.toNat < 16 then r.scal c.toNat else { bits := r.addr (c.toNat - 16), poison := false }

/-- Whether a CTRL field names an address register. -/
def isAddr (c : BitVec 5) : Bool := decide (16 ≤ c.toNat)

/-- The place a CTRL field names as a destination (R144). -/
def ctrlLoc (c : BitVec 5) : Loc := if isAddr c then .a (c.toNat - 16) else .s c.toNat

/-- Lane `i` of a vector operand: a register, or a column of the inactive accumulator buffer (R142). -/
def CoreRegs.vec (r : CoreRegs) (inact : Nat) (c : BitVec 6) (i : Nat) : Lane :=
  if c.toNat < 32 then r.lane c.toNat i else r.accum inact i (c.toNat - 32)

/-- The place lane `i` of a vector destination writes (R142). -/
def vecLoc (inact : Nat) (c : BitVec 6) (i : Nat) : Loc :=
  if c.toNat < 32 then .v c.toNat i else .acc inact i (c.toNat - 32)

/-- The buffer that vector operations see: the inactive one (R68). -/
def CoreCtl.inactive (t : CoreCtl) : Nat := if t.accAct then 0 else 1
/-- The buffer that tensor operations write (R68). -/
def CoreCtl.active (t : CoreCtl) : Nat := if t.accAct then 1 else 0

/-- Lane `i` of the register a memory or ROUTE specifier names; an a or s register stands in lane 0 (R143). -/
def CoreRegs.memLane (r : CoreRegs) (c : BitVec 6) (i : Nat) : Lane :=
  if c.toNat < 32 then r.lane c.toNat i
  else if c.toNat < 48 then { bits := r.addr (c.toNat - 32), poison := false }
  else r.scal (c.toNat - 48)

/-- The four bytes of a lane, low byte first (R201 item 1). -/
def laneBytes (l : Lane) : List (BitVec 8) := leBytes 4 l.bits.toNat

/-- Bytes and poison of lanes `lo` to `lo + n - 1` of a specifier's register. -/
def CoreRegs.lanesOf (r : CoreRegs) (c : BitVec 6) (lo n : Nat) : List Lane :=
  (List.range n).map fun i => r.memLane c (lo + i)

/-! ### Encoding checks (R139) -/

/-- A CTRL field that names a predicate (R144). -/
def predField (c : BitVec 5) : Bool := decide (c.toNat < 8)

/-- The CTRL slot's fields (R147, R173 to R193). -/
def ctrlOk : CtrlOp → Bool
  | .nop => true
  | .alu .. => true
  | .movi .. => true
  | .movhi .. => true
  | .addi .. => true
  | .cmp _ d _ _ => predField d
  | .plog fn d a b =>
    predField d && predField a && predField b &&
      (match fn with
       | .not => b == 0#5
       | .mov => b == 0#5
       | .any => b == 0#5
       | .all => b == 0#5
       | .setall => a == 0#5 && b == 0#5
       | .clrall => a == 0#5 && b == 0#5
       | _ => true)
  | .jmp imm => decide (imm.toNat < 2048)
  | .jmpr _ => true
  | .loop _ imm => decide (imm.toNat < 2048)
  | .tsync imm => decide (imm.toNat < 2048)
  | .accswap => true
  | .pagein imm => decide (imm.toNat < 2048)
  | .loadhint imm => decide (bitsOf imm.toNat 0 14 = 0)
  | .srseed .. => true
  | .waitstr d _ fn => predField d && decide (fn.toNat < 8)
  | .strcnt _ fn => decide (fn.toNat < 8)
  | .csrrd .. => true

/-- The TENSOR slot's fields (R148, R195). -/
def tensorOk : TensorOp → Bool
  | .nop => true
  | .mma _ _ af bf sc ag bg _ =>
    decide (1 ≤ af.toNat ∧ af.toNat ≤ 11) && decide (1 ≤ bf.toNat ∧ bf.toNat ≤ 11) &&
      (isBlock af.toNat || isBlock bf.toNat || sc == 0#3) &&
      (af == 0xB#4 || ag == 0#2) && (bf == 0xB#4 || bg == 0#2)

/-- Which optional fields an operation uses: VB, VC, RM (R197, R198). -/
structure VecUse where
  vb : Bool := false
  vc : Bool := false
  rm : Bool := false
  sr : Bool := false
  nsat : Bool := false
  fmt : Bool := false
  part : Bool := false
  deriving DecidableEq, Repr

/-- The optional fields of each VECTOR operation (R197, R198). -/
def vecUse : VecOp → VecUse
  | .nop => {}
  | .fadd => { vb := true, rm := true }
  | .fsub => { vb := true, rm := true }
  | .fmul => { vb := true, rm := true }
  | .fma => { vb := true, vc := true, rm := true }
  | .fms => { vb := true, vc := true, rm := true }
  | .fnma => { vb := true, vc := true, rm := true }
  | .fmin => { vb := true }
  | .fmax => { vb := true }
  | .fabs => {}
  | .fneg => {}
  | .feq => { vb := true }
  | .flt => { vb := true }
  | .fle => { vb := true }
  | .funord => { vb := true }
  | .fnonfin => {}
  | .ieq => { vb := true }
  | .ilt => { vb := true }
  | .iltu => { vb := true }
  | .iadd => { vb := true }
  | .isub => { vb := true }
  | .imul => { vb := true }
  | .and => { vb := true }
  | .or => { vb := true }
  | .xor => { vb := true }
  | .shl => { vb := true }
  | .shr => { vb := true }
  | .sra => { vb := true }
  | .imin => { vb := true }
  | .imax => { vb := true }
  | .mov => {}
  | .sel => { vb := true, vc := true }
  | .splat => {}
  | .extr => { vb := true }
  | .perm => { vb := true }
  | .iota => {}
  | .ins8 => { part := true }
  | .ext8 => { part := true }
  | .fsumr => {}
  | .fmaxr => {}
  | .rcp => {}
  | .rsqrt => {}
  | .exp2 => {}
  | .exp => {}
  | .log2 => {}
  | .log => {}
  | .expo => {}
  | .scalb => { vb := true, rm := true }
  | .cvt => { rm := true, sr := true, nsat := true, fmt := true, part := true }
  | .cvtu => { rm := true, fmt := true, part := true }
  | .qnt => { vb := true, rm := true, fmt := true, part := true }
  | .bcvt => { fmt := true, part := true }
  | .bscl => { vb := true, fmt := true }
  | .bunp => { vb := true, vc := true, fmt := true, part := true }

/-- An operation that writes a predicate (R199). -/
def vecToPred : VecOp → Bool
  | .feq => true
  | .flt => true
  | .fle => true
  | .funord => true
  | .fnonfin => true
  | .ieq => true
  | .ilt => true
  | .iltu => true
  | _ => false

/-- A special-function operation, with the opcode of R197. -/
def vecSf : VecOp → Option Nat
  | .rcp => some 0x40
  | .rsqrt => some 0x41
  | .exp2 => some 0x42
  | .exp => some 0x43
  | .log2 => some 0x44
  | .log => some 0x45
  | _ => none

/-- Format and part of a conversion between lanes and parts (R201 items 3 to 5, R202). -/
def partOk (fmt part : Nat) : Bool :=
  match fmt with
  | 1 => decide (part < 2)
  | 2 => decide (part < 4)
  | 3 => decide (part < 4)
  | 4 => decide (part < 4)
  | 10 => decide (part < 4)
  | 12 => decide (part = 0)
  | 13 => decide (part < 4)
  | 14 => decide (part < 4)
  | 15 => decide (part < 8)
  | _ => false

/-- The VECTOR slot's fields (R149, R197 to R203). -/
def vecOk (op : VecOp) (x : VecArgs) : Bool :=
  let u := vecUse op
  (u.vb || x.vb == 0#6) && (u.vc || x.vc == 0#6) && (u.rm || x.rm == 0#2) && (u.sr || !x.sr) &&
  (u.nsat || !x.nsat) && (u.fmt || x.fmt == 0#4) && (u.part || x.part == 0#3) &&
  (!vecToPred op || decide (x.vd.toNat < 8)) &&
  (match op with
   | .nop => x.vd == 0#6 && x.va == 0#6
   | .iota => x.va == 0#6
   | .sel => decide (x.vc.toNat < 8)
   | .splat => decide (x.va.toNat < 32)
   | .extr => decide (x.vd.toNat < 32)
   | .ins8 => decide (x.part.toNat < 4)
   | .ext8 => decide (x.part.toNat < 4)
   | .cvt =>
     partOk x.fmt.toNat x.part.toNat && decide (x.fmt.toNat ≠ 10) &&
       (!x.sr || (x.fmt == 1#4 && x.rm == 0#2)) && (!x.nsat || x.fmt == 2#4 || x.fmt == 3#4) &&
       (!(x.fmt == 4#4 || x.fmt == 12#4) || decide (x.rm.toNat < 2))
   | .cvtu => partOk x.fmt.toNat x.part.toNat && decide (x.fmt.toNat ≠ 10)
   | .qnt => partOk x.fmt.toNat x.part.toNat && [2, 3, 10, 13, 14, 15].contains x.fmt.toNat
   | .bcvt => isBlock x.fmt.toNat && (x.fmt == 9#4 || x.fmt == 11#4 || decide (x.part.toNat < 4))
   | .bscl => isBlock x.fmt.toNat
   | .bunp => isBlock x.fmt.toNat && (x.fmt == 9#4 || x.fmt == 11#4 || decide (x.part.toNat < 4))
   | _ => true)

/-- Access size in bytes (R205). -/
def memSize : MemOp → Nat
  | .nop => 1
  | .ldw => 4
  | .ldd => 8
  | .ldq _ => 64
  | .ldh _ => 128
  | .ldv => 256
  | .ldsc64 => 64
  | .ldsc256 => 256
  | .stw => 4
  | .std => 8
  | .stq _ => 64
  | .sth _ => 128
  | .stv => 256

/-- Whether an LS1-slot operation stores. -/
def memIsStore : MemOp → Bool
  | .stw => true
  | .std => true
  | .stq _ => true
  | .sth _ => true
  | .stv => true
  | _ => false

/-- The first lane of a vector register that an access moves (R205). -/
def memLane0 : MemOp → Nat
  | .ldq q => 16 * q.toNat
  | .stq q => 16 * q.toNat
  | .ldh h => if h then 32 else 0
  | .sth h => if h then 32 else 0
  | _ => 0

/-- The register specifier of an LD0-slot or LS1-slot operation (R143). -/
def memRegOk (op : MemOp) (reg : BitVec 6) : Bool :=
  match op with
  | .nop => reg == 0#6
  | .ldw => true
  | .stw => true
  | .ldsc64 => decide (reg.toNat < 32)
  | .ldsc256 => decide (reg.toNat < 8)
  | _ => decide (reg.toNat < 32)

/-- The ROUTE slot's fields (R152, R208, R212). -/
def routeOk (op : RouteOp) (cls : BitVec 2) (reg : BitVec 6) (target : BitVec 14) (doff : BitVec 15) : Bool :=
  let v := decide (reg.toNat < 32)
  let core := decide (target.toNat < 12288)
  match op with
  | .nop => cls == 0#2 && reg == 0#6 && target == 0#14 && doff == 0#15
  | .sendv => v && core
  | .sendq _ => v && core
  | .sendw => core
  | .wsendv => v && core
  | .wsendq _ => v && core
  | .redv => v && doff == 0#15
  | .circv => v && decide (target.toNat < 256)
  | .strm => v && decide (target.toNat < 8) && doff == 0#15
  | .saecmd => v && decide (target.toNat < 16) && doff == 0#15
  | .wopen => v && decide (target.toNat < 16) && doff == 0#15 && cls == 0#2
  | .wclose => reg == 0#6 && decide (target.toNat < 16) && doff == 0#15 && cls == 0#2
  | .rdma => v && target == 0#14 && doff == 0#15

/-- A guard of a slot: none on a NOP, one that R140 defines elsewhere (R138, R139). -/
def slotGuardOk (isNop : Bool) (g : BitVec 5) : Bool := if isNop then g == 0#5 else guardOk g

/-- The slots of a bundle that are undefined encodings, by CORE_FAULT.SLOT, but for occupancy (R139). -/
def undefinedSlots (k : Slots) : List Nat :=
  (if k.bad.contains 1 || !ctrlOk k.ctrl || !slotGuardOk (k.ctrl == .nop) k.ctrlG then [1] else []) ++
  (if k.bad.contains 2 || !tensorOk k.tensor || !slotGuardOk (k.tensor == .nop) k.tensorG then [2] else []) ++
  (if k.bad.contains 3 || !vecOk k.vec k.vargs || !slotGuardOk (k.vec == .nop) k.vecG then [3] else []) ++
  (if k.bad.contains 4 || memIsStore k.ld0 || !memRegOk k.ld0 k.ld0Reg || !slotGuardOk (k.ld0 == .nop) k.ld0G ||
      (k.ld0 == .nop && (k.ld0Base != 0#4 || k.ld0Off != 0#16)) then [4] else []) ++
  (if k.bad.contains 5 || !memRegOk k.ls1 k.ls1Reg || !slotGuardOk (k.ls1 == .nop) k.ls1G ||
      (k.ls1 == .nop && (k.ls1Base != 0#4 || k.ls1Off != 0#16)) then [5] else []) ++
  (if k.bad.contains 6 || !routeOk k.route k.cls k.rreg k.target k.doff ||
      !slotGuardOk (k.route == .nop) k.routeG then [6] else [])

/-! ### Taking a bundle apart (R131 to R152) -/

/-- ALU functions by FN (R174). -/
def aluFn : Nat → Option AluFn
  | 0x00 => some .add
  | 0x01 => some .sub
  | 0x02 => some .mul
  | 0x03 => some .and
  | 0x04 => some .or
  | 0x05 => some .xor
  | 0x06 => some .shl
  | 0x07 => some .shr
  | 0x08 => some .sra
  | 0x09 => some .min
  | 0x0A => some .max
  | 0x0B => some .minu
  | 0x0C => some .maxu
  | 0x10 => some .fadd
  | 0x11 => some .fsub
  | 0x12 => some .fmul
  | 0x13 => some .fmin
  | 0x14 => some .fmax
  | _ => none

/-- CMP conditions by FN (R176). -/
def cmpFn : Nat → Option CmpFn
  | 0x00 => some .eq
  | 0x01 => some .ne
  | 0x02 => some .lt
  | 0x03 => some .le
  | 0x04 => some .ltu
  | 0x05 => some .leu
  | 0x08 => some .feq
  | 0x09 => some .flt
  | 0x0A => some .fle
  | 0x0B => some .nan
  | _ => none

/-- PLOG functions by FN (R177). -/
def plogFn : Nat → Option PlogFn
  | 0x00 => some .and
  | 0x01 => some .or
  | 0x02 => some .xor
  | 0x03 => some .andn
  | 0x04 => some .not
  | 0x05 => some .mov
  | 0x06 => some .setall
  | 0x07 => some .clrall
  | 0x08 => some .any
  | 0x09 => some .all
  | _ => none

/-- CSRRD values by FN (R193). -/
def csrFn : Nat → Option CsrFn
  | 0 => some .lcore
  | 1 => some .tickLo
  | 2 => some .tickHi
  | 3 => some .cycle
  | 4 => some .mapGen
  | 5 => some .tickLen
  | _ => none

/-- The CTRL slot's operation from its 32 bits, none when R139 makes it undefined (R147, R173). -/
def decCtrl (w : Nat) : Option CtrlOp :=
  let d := BitVec.ofNat 5 (bitsOf w 16 5)
  let a := BitVec.ofNat 5 (bitsOf w 11 5)
  let b := BitVec.ofNat 5 (bitsOf w 6 5)
  let fn := bitsOf w 0 6
  let imm16 := BitVec.ofNat 16 w
  let imm21 := BitVec.ofNat 21 w
  match bitsOf w 26 6 with
  | 0x00 => if w = 0 then some .nop else none
  | 0x01 => (aluFn fn).map fun f => .alu f d a b
  | 0x02 => some (.movi d imm16)
  | 0x03 => some (.movhi d imm16)
  | 0x04 => some (.addi d imm16)
  | 0x05 => (cmpFn fn).map fun f => .cmp f d a b
  | 0x06 => (plogFn fn).map fun f => .plog f d a b
  | 0x08 => some (.jmp imm21)
  | 0x09 => if d = 0#5 ∧ b = 0#5 ∧ fn = 0 then some (.jmpr a) else none
  | 0x0A => some (.loop d imm16)
  | 0x0B => some (.tsync imm21)
  | 0x0C => if imm21 = 0#21 then some .accswap else none
  | 0x0D => some (.pagein imm21)
  | 0x0E => some (.loadhint imm21)
  | 0x10 => if d = 0#5 ∧ fn = 0 then some (.srseed a b) else none
  | 0x11 => if b = 0#5 then some (.waitstr d a (BitVec.ofNat 6 fn)) else none
  | 0x12 => if a = 0#5 ∧ b = 0#5 then some (.strcnt d (BitVec.ofNat 6 fn)) else none
  | 0x13 => if a = 0#5 ∧ b = 0#5 then (csrFn fn).map fun f => .csrrd f d else none
  | _ => none

/-- The TENSOR slot's operation from its 48 bits (R148, R194). -/
def decTensor (w : Nat) : Option TensorOp :=
  match bitsOf w 42 6 with
  | 0 => if w = 0 then some .nop else none
  | 1 =>
    if bitsOf w 0 11 = 0 then
      some (.mma (BitVec.ofNat 5 (bitsOf w 32 5)) (BitVec.ofNat 5 (bitsOf w 27 5)) (BitVec.ofNat 4 (bitsOf w 23 4))
        (BitVec.ofNat 4 (bitsOf w 19 4)) (BitVec.ofNat 3 (bitsOf w 16 3)) (BitVec.ofNat 2 (bitsOf w 14 2))
        (BitVec.ofNat 2 (bitsOf w 12 2)) (bitOf w 11))
    else none
  | _ => none

/-- VECTOR operations by opcode (R197). -/
def vecOpOf : Nat → Option VecOp
  | 0x00 => some .nop
  | 0x01 => some .fadd
  | 0x02 => some .fsub
  | 0x03 => some .fmul
  | 0x04 => some .fma
  | 0x05 => some .fms
  | 0x06 => some .fnma
  | 0x07 => some .fmin
  | 0x08 => some .fmax
  | 0x09 => some .fabs
  | 0x0A => some .fneg
  | 0x10 => some .feq
  | 0x11 => some .flt
  | 0x12 => some .fle
  | 0x13 => some .funord
  | 0x14 => some .fnonfin
  | 0x15 => some .ieq
  | 0x16 => some .ilt
  | 0x17 => some .iltu
  | 0x20 => some .iadd
  | 0x21 => some .isub
  | 0x22 => some .imul
  | 0x23 => some .and
  | 0x24 => some .or
  | 0x25 => some .xor
  | 0x26 => some .shl
  | 0x27 => some .shr
  | 0x28 => some .sra
  | 0x29 => some .imin
  | 0x2A => some .imax
  | 0x30 => some .mov
  | 0x31 => some .sel
  | 0x32 => some .splat
  | 0x33 => some .extr
  | 0x34 => some .perm
  | 0x35 => some .iota
  | 0x36 => some .ins8
  | 0x37 => some .ext8
  | 0x38 => some .fsumr
  | 0x39 => some .fmaxr
  | 0x40 => some .rcp
  | 0x41 => some .rsqrt
  | 0x42 => some .exp2
  | 0x43 => some .exp
  | 0x44 => some .log2
  | 0x45 => some .log
  | 0x46 => some .expo
  | 0x47 => some .scalb
  | 0x50 => some .cvt
  | 0x51 => some .cvtu
  | 0x52 => some .qnt
  | 0x53 => some .bcvt
  | 0x54 => some .bscl
  | 0x55 => some .bunp
  | _ => none

/-- The VECTOR slot's fields (R149). -/
def decVecArgs (w : Nat) : VecArgs :=
  { vd := BitVec.ofNat 6 (bitsOf w 29 6), va := BitVec.ofNat 6 (bitsOf w 23 6), vb := BitVec.ofNat 6 (bitsOf w 17 6),
    vc := BitVec.ofNat 6 (bitsOf w 11 6), rm := BitVec.ofNat 2 (bitsOf w 9 2), sr := bitOf w 8, nsat := bitOf w 7,
    fmt := BitVec.ofNat 4 (bitsOf w 3 4), part := BitVec.ofNat 3 (bitsOf w 0 3) }

/-- LD0-slot and LS1-slot operations by opcode (R205). -/
def memOpOf : Nat → Option MemOp
  | 0x00 => some .nop
  | 0x01 => some .ldw
  | 0x02 => some .ldd
  | 0x03 => some (.ldq 0#2)
  | 0x04 => some (.ldq 1#2)
  | 0x05 => some (.ldq 2#2)
  | 0x06 => some (.ldq 3#2)
  | 0x07 => some (.ldh false)
  | 0x08 => some (.ldh true)
  | 0x09 => some .ldv
  | 0x0A => some .ldsc64
  | 0x0B => some .ldsc256
  | 0x11 => some .stw
  | 0x12 => some .std
  | 0x13 => some (.stq 0#2)
  | 0x14 => some (.stq 1#2)
  | 0x15 => some (.stq 2#2)
  | 0x16 => some (.stq 3#2)
  | 0x17 => some (.sth false)
  | 0x18 => some (.sth true)
  | 0x19 => some .stv
  | _ => none

/-- ROUTE operations by opcode (R208). -/
def routeOpOf : Nat → Option RouteOp
  | 0x00 => some .nop
  | 0x01 => some .sendv
  | 0x02 => some (.sendq 0#2)
  | 0x03 => some (.sendq 1#2)
  | 0x04 => some (.sendq 2#2)
  | 0x05 => some (.sendq 3#2)
  | 0x06 => some .sendw
  | 0x08 => some .wsendv
  | 0x09 => some (.wsendq 0#2)
  | 0x0A => some (.wsendq 1#2)
  | 0x0B => some (.wsendq 2#2)
  | 0x0C => some (.wsendq 3#2)
  | 0x10 => some .redv
  | 0x11 => some .circv
  | 0x18 => some .strm
  | 0x19 => some .saecmd
  | 0x1A => some .wopen
  | 0x1B => some .wclose
  | 0x1C => some .rdma
  | _ => none

/-- The opcode of a ROUTE operation (R208). -/
def routeCode : RouteOp → Nat
  | .nop => 0x00
  | .sendv => 0x01
  | .sendq q => 0x02 + q.toNat
  | .sendw => 0x06
  | .wsendv => 0x08
  | .wsendq q => 0x09 + q.toNat
  | .redv => 0x10
  | .circv => 0x11
  | .strm => 0x18
  | .saecmd => 0x19
  | .wopen => 0x1A
  | .wclose => 0x1B
  | .rdma => 0x1C

/-- A bundle taken apart (R131). A slot whose opcode or function is unassigned, or whose opcode is 0 with another bit
set, stands in `bad`. -/
def decBundle (b : BitVec 256) : Slots :=
  let n := b.toNat
  let cw := bitsOf n 216 32
  let tw := bitsOf n 168 48
  let vw := bitsOf n 120 48
  let lw := bitsOf n 84 36
  let sw := bitsOf n 48 36
  let rw_ := bitsOf n 0 48
  let nopBad (op w : Nat) : Bool := decide (op = 0) && decide (w ≠ 0)
  { hdr := ⟨bitOf n 255, bitOf n 254, bitOf n 253, BitVec.ofNat 5 (bitsOf n 248 5)⟩
    ctrl := (decCtrl cw).getD .nop
    ctrlG := BitVec.ofNat 5 (bitsOf cw 21 5)
    tensor := (decTensor tw).getD .nop
    tensorG := BitVec.ofNat 5 (bitsOf tw 37 5)
    vec := (vecOpOf (bitsOf vw 40 8)).getD .nop
    vecG := BitVec.ofNat 5 (bitsOf vw 35 5)
    vargs := decVecArgs vw
    ld0 := (memOpOf (bitsOf lw 31 5)).getD .nop
    ld0G := BitVec.ofNat 5 (bitsOf lw 26 5)
    ld0Reg := BitVec.ofNat 6 (bitsOf lw 20 6)
    ld0Base := BitVec.ofNat 4 (bitsOf lw 16 4)
    ld0Off := BitVec.ofNat 16 (bitsOf lw 0 16)
    ls1 := (memOpOf (bitsOf sw 31 5)).getD .nop
    ls1G := BitVec.ofNat 5 (bitsOf sw 26 5)
    ls1Reg := BitVec.ofNat 6 (bitsOf sw 20 6)
    ls1Base := BitVec.ofNat 4 (bitsOf sw 16 4)
    ls1Off := BitVec.ofNat 16 (bitsOf sw 0 16)
    route := (routeOpOf (bitsOf rw_ 42 6)).getD .nop
    routeG := BitVec.ofNat 5 (bitsOf rw_ 37 5)
    cls := BitVec.ofNat 2 (bitsOf rw_ 35 2)
    rreg := BitVec.ofNat 6 (bitsOf rw_ 29 6)
    target := BitVec.ofNat 14 (bitsOf rw_ 15 14)
    doff := BitVec.ofNat 15 (bitsOf rw_ 0 15)
    bad :=
      (if (decCtrl cw).isNone then [1] else []) ++ (if (decTensor tw).isNone then [2] else []) ++
      (if (vecOpOf (bitsOf vw 40 8)).isNone || nopBad (bitsOf vw 40 8) vw then [3] else []) ++
      (if (memOpOf (bitsOf lw 31 5)).isNone || nopBad (bitsOf lw 31 5) lw then [4] else []) ++
      (if (memOpOf (bitsOf sw 31 5)).isNone || nopBad (bitsOf sw 31 5) sw then [5] else []) ++
      (if (routeOpOf (bitsOf rw_ 42 6)).isNone || nopBad (bitsOf rw_ 42 6) rw_ then [6] else []) }

end Sys2Proof.Machine
end

