-- ==== Sys2Proof/Machine/Flags.lean ====
section
/-! DEFINITION. Scalar arithmetic, conditions and predicates (R174 to R177), and the lane-wise vector operations
(R197 to R204). -/

namespace Sys2Proof.Machine

open Sys2Proof

/-- ALU (R174, R175). -/
def aluEval (fn : AluFn) (x y : BitVec 32) : BitVec 32 :=
  match fn with
  | .add => x + y
  | .sub => x - y
  | .mul => x * y
  | .and => x &&& y
  | .or => x ||| y
  | .xor => x ^^^ y
  | .shl => x <<< (y.toNat % 32)
  | .shr => x >>> (y.toNat % 32)
  | .sra => x.sshiftRight (y.toNat % 32)
  | .min => if x.sle y then x else y
  | .max => if x.sle y then y else x
  | .minu => if x.ule y then x else y
  | .maxu => if x.ule y then y else x
  | .fadd => fadd32 .rne x y
  | .fsub => fsub32 .rne x y
  | .fmul => fmul32 .rne x y
  | .fmin => fmin32 x y
  | .fmax => fmax32 x y

/-- CMP's condition (R176). -/
def cmpEval (fn : CmpFn) (x y : BitVec 32) : Bool :=
  match fn with
  | .eq => x == y
  | .ne => x != y
  | .lt => x.slt y
  | .le => x.sle y
  | .ltu => x.ult y
  | .leu => x.ule y
  | .feq => feq32 x y
  | .flt => flt32 x y
  | .fle => fle32 x y
  | .nan => isNan32 x || isNan32 y

/-- All ones or all zeros (R176). -/
def allBits (b : Bool) : BitVec 64 := if b then BitVec.allOnes 64 else 0#64

/-- PLOG (R177). -/
def plogEval (fn : PlogFn) (x y : BitVec 64) : BitVec 64 :=
  match fn with
  | .and => x &&& y
  | .or => x ||| y
  | .xor => x ^^^ y
  | .andn => x &&& ~~~y
  | .not => ~~~x
  | .mov => x
  | .setall => BitVec.allOnes 64
  | .clrall => 0#64
  | .any => allBits (x != 0#64)
  | .all => allBits (x == BitVec.allOnes 64)

/-- A lane with a value computed from good or bad sources. -/
def mkLane (b : BitVec 32) (bad : Bool) : Lane := { bits := b, poison := bad }

/-- Replace bits `[lo + n - 1 : lo]` of a lane (R201). -/
def insBits (old : BitVec 32) (lo n v : Nat) : BitVec 32 :=
  BitVec.ofNat 32 (bitsOf old.toNat 0 lo + 2 ^ lo * (v % 2 ^ n) + 2 ^ (lo + n) * (old.toNat / 2 ^ (lo + n)))

/-- Width of a part's field in a lane: E2M3 and E3M2 fill a byte (R201). -/
def partBits (fmt : Nat) : Nat :=
  match fmt with
  | 1 => 16
  | 12 => 32
  | 15 => 4
  | _ => 8

/-- A value narrowed into format `fmt` (R119, R201). -/
def narrow (fmt : Nat) (rm : Rm) (nsat : Bool) (v : Fv) : Nat :=
  match fmt with
  | 1 => toBf16 rm v
  | 2 => toE4m3 rm nsat v
  | 3 => toE5m2 rm nsat v
  | 4 => intBits 8 (toIntSat rm (-128) 127 v)
  | 12 => intBits 32 (toIntSat rm (-2147483648) 2147483647 v)
  | 13 => toSmall .e2m3 6 rm v
  | 14 => toSmall .e3m2 6 rm v
  | _ => toSmall .e2m1 4 rm v

/-- QNT's element (R202). -/
def quantise (fmt : Nat) (rm : Rm) (v : Fv) (k : Int) : Nat :=
  match fmt with
  | 10 => intBits 8 (toIntSat rm (-128) 127 (v.scale (6 - k)))
  | f => narrow f rm false (v.scale (-k))

/-- SCALB (R197, R200): one rounding; a zero keeps its sign. -/
def scalb32 (rm : Rm) (x y : BitVec 32) : BitVec 32 := toF32 rm ((f32Val x).scale y.toInt)

/-- The result of an operation whose lane `i` depends on lane `i` of its sources alone: `a`, `b`, `c` are the source
lanes, `d` the destination's old lane (R197 to R202). FABS and FNEG change the sign bit of a NaN too and keep the rest of it (log entry 241). -/
def laneEval (op : VecOp) (x : VecArgs) (rnd : Nat) (a b c d : Lane) : Lane :=
  let rm := Rm.ofCode x.rm
  let av := f32Val a.bits
  let bv := f32Val b.bits
  let cv := f32Val c.bits
  let ab := a.poison || b.poison
  let abc := ab || c.poison
  match op with
  | .fadd => mkLane (fadd32 rm a.bits b.bits) ab
  | .fsub => mkLane (fsub32 rm a.bits b.bits) ab
  | .fmul => mkLane (fmul32 rm a.bits b.bits) ab
  | .fma => mkLane (fma32 rm av bv cv) abc
  | .fms => mkLane (fma32 rm av bv cv.neg) abc
  | .fnma => mkLane (fma32 rm av.neg bv cv) abc
  | .fmin => mkLane (fmin32 a.bits b.bits) ab
  | .fmax => mkLane (fmax32 a.bits b.bits) ab
  | .fabs => mkLane (a.bits &&& 0x7FFFFFFF#32) a.poison
  | .fneg => mkLane (a.bits ^^^ 0x80000000#32) a.poison
  | .iadd => mkLane (a.bits + b.bits) ab
  | .isub => mkLane (a.bits - b.bits) ab
  | .imul => mkLane (a.bits * b.bits) ab
  | .and => mkLane (a.bits &&& b.bits) ab
  | .or => mkLane (a.bits ||| b.bits) ab
  | .xor => mkLane (a.bits ^^^ b.bits) ab
  | .shl => mkLane (a.bits <<< (b.bits.toNat % 32)) ab
  | .shr => mkLane (a.bits >>> (b.bits.toNat % 32)) ab
  | .sra => mkLane (a.bits.sshiftRight (b.bits.toNat % 32)) ab
  | .imin => mkLane (if a.bits.sle b.bits then a.bits else b.bits) ab
  | .imax => mkLane (if a.bits.sle b.bits then b.bits else a.bits) ab
  | .mov => a
  | .ins8 => mkLane (insBits d.bits (8 * x.part.toNat) 8 a.bits.toNat) (a.poison || d.poison)
  | .ext8 => mkLane (BitVec.ofNat 32 (bitsOf a.bits.toNat (8 * x.part.toNat) 8)) a.poison
  | .rcp => mkLane (specialFn 0x40 a.bits) a.poison
  | .rsqrt => mkLane (specialFn 0x41 a.bits) a.poison
  | .exp2 => mkLane (specialFn 0x42 a.bits) a.poison
  | .exp => mkLane (specialFn 0x43 a.bits) a.poison
  | .log2 => mkLane (specialFn 0x44 a.bits) a.poison
  | .log => mkLane (specialFn 0x45 a.bits) a.poison
  | .expo => mkLane (expo32 a.bits) a.poison
  | .scalb => mkLane (scalb32 rm a.bits b.bits) ab
  | .cvt =>
    let f := x.fmt.toNat
    let n := if x.sr then srToBf16 a.bits rnd else narrow f rm x.nsat av
    mkLane (insBits d.bits (partBits f * x.part.toNat) (partBits f) n) (a.poison || (decide (partBits f ≠ 32) && d.poison))
  | .cvtu =>
    let f := x.fmt.toNat
    mkLane (toF32 rm (elemVal f (bitsOf a.bits.toNat (partBits f * x.part.toNat) (elemBits f)))) a.poison
  | .qnt =>
    let f := x.fmt.toNat
    mkLane (insBits d.bits (partBits f * x.part.toNat) (partBits f) (quantise f rm av b.bits.toInt))
      (ab || d.poison)
  | _ => d

/-- A predicate-writing operation's condition on one lane (R197). -/
def lanePred (op : VecOp) (a b : BitVec 32) : Bool :=
  match op with
  | .feq => feq32 a b
  | .flt => flt32 a b
  | .fle => fle32 a b
  | .funord => isNan32 a || isNan32 b
  | .fnonfin => fnonfin32 a
  | .ieq => a == b
  | .ilt => a.slt b
  | .iltu => a.ult b
  | _ => false

/-- Halving reduction of R204: `n` halvings of a list. -/
def halve (op : BitVec 32 → BitVec 32 → BitVec 32) : Nat → List (BitVec 32) → List (BitVec 32)
  | 0, l => l
  | n + 1, l => halve op n (List.zipWith op (l.take (l.length / 2)) (l.drop (l.length / 2)))

/-- FSUMR and FMAXR over 64 lanes (R204). -/
def reduceLanes (op : BitVec 32 → BitVec 32 → BitVec 32) (l : List (BitVec 32)) : BitVec 32 :=
  (halve op 6 l).headD 0#32

/-- Bytes of element area per block conversion (R203). -/
def blockArea (fmt : Nat) : Nat := if fmt = 9 ∨ fmt = 11 then 32 else if fmt = 7 ∨ fmt = 8 then 48 else 64

/-- The two scale bytes and the packed element area of a block conversion of 64 values (R203). -/
def blockConvert (fmt : Nat) (vs : List Fv) : Nat × Nat × Nat :=
  if fmt = 11 then
    let q := ib4Block vs
    (q.1, q.2.1, packBits 4 q.2.2)
  else
    let x := mxBlock fmt (vs.take 32)
    let y := mxBlock fmt (vs.drop 32)
    (x.1, y.1, packBits (elemBits fmt) (x.2 ++ y.2))

/-- BCVT's result lanes: lane number and value (R203). A lane of a block is poison when an input of the block is. -/
def bcvtLanes (x : VecArgs) (a : List Lane) : List (Nat × Lane) :=
  let f := x.fmt.toNat
  let n := blockArea f / 4
  let area := (blockConvert f (a.map fun l => f32Val l.bits)).2.2
  (List.range n).map fun j =>
    let bad :=
      if f = 11 then a.any (·.poison)
      else if j < n / 2 then (a.take 32).any (·.poison) else (a.drop 32).any (·.poison)
    (n * x.part.toNat + j, mkLane (BitVec.ofNat 32 (bitsOf area (32 * j) 32)) bad)

/-- BSCL's result lane (R203). -/
def bsclLane (x : VecArgs) (a : List Lane) (old : Lane) : Lane :=
  let q := blockConvert x.fmt.toNat (a.map fun l => f32Val l.bits)
  mkLane (insBits old.bits (16 * (x.vb.toNat % 2)) 16 (q.1 + 256 * q.2.1)) (old.poison || a.any (·.poison))

/-- BUNP's lane `i` from the element register's lanes and the scale lane (R203, R119). -/
def bunpLane (x : VecArgs) (a : List Lane) (sc : Lane) (i : Nat) : Lane :=
  let f := x.fmt.toNat
  let w := elemBits f
  let n := blockArea f / 4
  let part := (a.drop (n * x.part.toNat)).take n
  let area := packBits 32 (part.map fun l => l.bits.toNat)
  let code := bitsOf area (w * i) w
  let s0 := bitsOf sc.bits.toNat (16 * (x.vc.toNat % 2)) 8
  let s1 := bitsOf sc.bits.toNat (16 * (x.vc.toNat % 2) + 8) 8
  let xs := if f = 11 then s0 else if i < 32 then s0 else s1
  let bad := (part.getD (w * i / 32) {}).poison || (part.getD ((w * i + w - 1) / 32) {}).poison || sc.poison
  mkLane (blockToF32 f xs s1 (i / 16) code) bad

/-- What a VECTOR operation writes, or the fact that poison reached a predicate or an address register (R83). -/
inductive VecResult where
  | writes (ws : List (Loc × Pending))
  | poison
  deriving DecidableEq, Repr

/-- Keep the lanes that the guard selects. -/
def selected (r : CoreRegs) (g : BitVec 5) : List Nat := (List.range 64).filter fun i => r.guardLane g i

/-- The results of a VECTOR operation, from the registers and the generator state as they stand in its issue cycle
(R154, R197 to R204, R122). -/
def vecEval (r : CoreRegs) (inact : Nat) (sr : BitVec 64) (op : VecOp) (g : BitVec 5) (x : VecArgs) : VecResult :=
  let sel := selected r g
  let va (i : Nat) := r.vec inact x.va i
  let vb (i : Nat) := r.vec inact x.vb i
  let vc (i : Nat) := r.vec inact x.vc i
  let vd (i : Nat) := r.vec inact x.vd i
  let allA := (List.range 64).map va
  let out (f : Nat → Lane) : VecResult := .writes (sel.map fun i => (vecLoc inact x.vd i, .put (f i)))
  match op with
  | .nop => .writes []
  | .sel => out fun i => if (r.pred x.vc.toNat).getLsbD i then va i else vb i
  | .splat => let l := r.ctrl (x.va.setWidth 5); out fun _ => l
  | .extr =>
    let l := va x.vb.toNat
    let dst : BitVec 5 := x.vd.setWidth 5
    if r.guard0 g then
      if l.poison && isAddr dst then .poison else .writes [(ctrlLoc dst, .put l)]
    else .writes []
  | .perm => out fun i =>
      let l := va ((vb i).bits.toNat % 64)
      mkLane l.bits (l.poison || (vb i).poison)
  | .iota => out fun i => mkLane (BitVec.ofNat 32 i) false
  | .fsumr =>
    let v := mkLane (reduceLanes (fadd32 .rne) (allA.map (·.bits))) (allA.any (·.poison))
    out fun _ => v
  | .fmaxr =>
    let v := mkLane (reduceLanes fmax32 (allA.map (·.bits))) (allA.any (·.poison))
    out fun _ => v
  | .bcvt =>
    .writes (((bcvtLanes x allA).filter fun e => r.guardLane g e.1).map fun e => (vecLoc inact x.vd e.1, .put e.2))
  | .bscl =>
    let n := x.vb.toNat / 2
    if r.guardLane g n then .writes [(vecLoc inact x.vd n, .put (bsclLane x allA (vd n)))] else .writes []
  | .bunp => let sc := vb (x.vc.toNat / 2); out fun i => bunpLane x allA sc i
  | _ =>
    if vecToPred op then
      if sel.any fun i => (va i).poison || (decide (op ≠ .fnonfin) && (vb i).poison) then .poison
      else .writes (sel.map fun i =>
        (.p x.vd.toNat i, .put (mkLane (if lanePred op (va i).bits (vb i).bits then 1#32 else 0#32) false)))
    else out fun i => laneEval op x (srDraw sr i) (va i) (vb i) (vc i) (vd i)

/-- The generator state after a VECTOR operation: a stochastically rounding one advances it once, whatever its guard
selects (R122, R123). -/
def srAfter (op : VecOp) (x : VecArgs) (sr : BitVec 64) : BitVec 64 :=
  if op = .cvt ∧ x.sr then sr + 64#64 * srG else sr

/-- Latency of a VECTOR operation (R172). -/
def vecLatency (op : VecOp) : Nat := if (vecSf op).isSome then 8 else 4
/-- Occupancy of a VECTOR operation (R172). -/
def vecOccupancy (op : VecOp) : Nat := if (vecSf op).isSome then 4 else 1

/-- The depth of an MMA: that of the wider class (R66). -/
def mmaDepth (af bf : Nat) : Nat := min (depthOf af) (depthOf bf)
/-- Latency of an MMA (R196). -/
def mmaLatency (af bf : Nat) : Nat := if af = 1 ∨ bf = 1 then 18 else 14
/-- Occupancy of an MMA (R196). -/
def mmaOccupancy (af bf : Nat) : Nat := if af = 1 ∨ bf = 1 then 8 else 4

/-- The scale exponent of row `r` of A from a scale-file entry (R165). -/
def CoreRegs.scaleA (g : CoreRegs) (fmt e grp r : Nat) : Option Int :=
  if fmt = 11 then scaleExp fmt (g.scaleByte e (2 * r)) (g.scaleByte e (2 * r + 1)) grp
  else scaleExp fmt (g.scaleByte e r) 0 grp

/-- The scale exponent of column `c` of B from a scale-file entry (R165). -/
def CoreRegs.scaleB (g : CoreRegs) (fmt e grp c : Nat) : Option Int :=
  if fmt = 11 then scaleExp fmt (g.scaleByte e (0x80 + 2 * c)) (g.scaleByte e (0x81 + 2 * c)) grp
  else scaleExp fmt (g.scaleByte e (0x80 + c)) 0 grp

/-- What an MMA adds, element by element, from the registers and the scale file as they stand in its issue cycle
(R112, R154, R159). -/
def mmaWrites (g : CoreRegs) (buf : Nat) (va vb : BitVec 5) (af bf sc ag bg : Nat) (accz : Bool) : List (Loc × Pending) :=
  let k := mmaDepth af bf
  (List.range 64).flatMap fun r =>
    let a := g.lane va.toNat r
    let ea := g.scaleA af sc ag r
    (List.range 32).map fun c =>
      let b := g.lane vb.toNat c
      (.acc buf r c, .add accz (a.poison || b.poison) (mmaTerm af bf k a.bits b.bits ea (g.scaleB bf sc bg c)))

end Sys2Proof.Machine
end

