-- ==== Sys2Proof/Machine/ZfpOps.lean ====
section
/-! DEFINITION. Packets out of the device (10): link frames and credits (R361 to R363), routing (R370 to R373, R378, R398),
and what a source gateway stamps (R365, R372, R379, R381). -/

namespace Sys2Proof.Machine

open Sys2Proof

/-- A port or Jisto link. -/
def State.port (s : State) (p : Nat) : PortRec := tget {} s.zfp.ports p

/-- Change a port or Jisto link. -/
def State.modPort (s : State) (p : Nat) (f : PortRec → PortRec) : State :=
  { s with zfp := { s.zfp with ports := tmod {} s.zfp.ports p f } }

/-- Change the Zilusk side. -/
def State.modZfp (s : State) (f : Zfp → Zfp) : State := { s with zfp := f s.zfp }

/-- Whether a port carries traffic. -/
def PortRec.up (r : PortRec) : Bool := r.mode == .up || r.mode == .upHalf

/-- The node of the Zilusk ports of a gateway (R254). -/
def portsNode (g : Nat) : Nat := nodeAt (gwSite g) 5

/-! ### ZFP_DROP -/

/-- Offset of ZFP_DROP. -/
def zfpDropReg : Nat := 0x408040

/-- Count a packet with no eligible port or circuit. -/
def State.dropNoRoute (s : State) : State :=
  let b := bump 0x7FFF s.zfp.noRoute s.zfp.dropOvf
  (s.modZfp fun z => { z with noRoute := b.1, dropOvf := b.2.1 }).cntOvf b.2.2 zfpDropReg 48 panelNode

/-- Count `n` of them. -/
def State.dropNoRoutes (s : State) : Nat → State
  | 0 => s
  | n + 1 => s.dropNoRoute.dropNoRoutes n

/-- Count a packet dropped by R375. -/
def State.dropStale (s : State) : State :=
  let b := bump 0xFFFF s.zfp.staleInc s.zfp.dropOvf
  (s.modZfp fun z => { z with staleInc := b.1, dropOvf := b.2.1 }).cntOvf b.2.2 zfpDropReg 32 panelNode

/-- Count a packet refused on arrival. -/
def State.dropRefused (s : State) : State :=
  let b := bump 0xFFFF s.zfp.refused s.zfp.dropOvf
  (s.modZfp fun z => { z with refused := b.1, dropOvf := b.2.1 }).cntOvf b.2.2 zfpDropReg 16 panelNode

/-- Count a packet dropped by R372, R382 or R389. -/
def State.dropAged (s : State) : State :=
  let b := bump 0xFF s.zfp.aged s.zfp.dropOvf
  (s.modZfp fun z => { z with aged := b.1, dropOvf := b.2.1 }).cntOvf b.2.2 zfpDropReg 8 panelNode

/-- Count a packet dropped by R381. -/
def State.dropOldEpoch (s : State) : State :=
  let b := bump 0xFF s.zfp.oldEpoch s.zfp.dropOvf
  (s.modZfp fun z => { z with oldEpoch := b.1, dropOvf := b.2.1 }).cntOvf b.2.2 zfpDropReg 0 panelNode

/-! ### Times -/

/-- Core clock cycle in units of 1/126 ns at frequency step `f` (R5). -/
def cycleTime (f : Nat) : Nat :=
  match f with
  | 0 => 56
  | 1 => 63
  | 2 => 72
  | 3 => 84
  | 4 => 112
  | _ => 224

/-- Cycles in a time given in units of 1/126 ns, rounded up. -/
def State.cyclesOf (s : State) (units : Nat) : Nat := (units + cycleTime s.clk.step - 1) / cycleTime s.clk.step

/-- One microsecond in units of 1/126 ns. -/
def usec : Nat := 126000

/-! ### Link frames (R361 to R363) -/

/-- The link header of R361. TYPE is 0 DATA, 1 ACK, 2 NAK. -/
structure LinkHeader where
  typ : Nat
  seq : Nat
  ack : Nat
  crclass : Nat
  credits : Nat
  cls : Nat
  units : Nat
  deriving DecidableEq, Repr

/-- The header's 64 bits (R361). -/
def LinkHeader.word (h : LinkHeader) : Nat :=
  h.typ * 2 ^ 60 + h.seq * 2 ^ 48 + h.ack * 2 ^ 36 + h.crclass * 2 ^ 34 + h.credits * 2 ^ 28 + h.cls * 2 ^ 26 + h.units * 2 ^ 23

/-- The header that 64 bits hold. -/
def linkHeader (w : Nat) : LinkHeader :=
  ⟨bitsOf w 60 4, bitsOf w 48 12, bitsOf w 36 12, bitsOf w 34 2, bitsOf w 28 6, bitsOf w 26 2, bitsOf w 23 3⟩

/-- A link frame as it travels: header, units and FCS (R361). -/
def frameBytes (h : LinkHeader) (units : List (BitVec 8)) : List (BitVec 8) :=
  let b := leBytes 8 h.word ++ units
  b ++ leBytes 4 (crc32c b).toNat

/-- A DATA frame as it travels, whose TYPE is 0 and whose UNITS are those that follow its header before the FCS (R361). -/
def dataWire (seq ack : BitVec 12) (crclass : BitVec 2) (credits : BitVec 6) (cls : BitVec 2) (body : List (BitVec 8)) : List (BitVec 8) :=
  leBytes 8 (LinkHeader.word ⟨0, seq.toNat, ack.toNat, crclass.toNat, credits.toNat, cls.toNat, (body.length - 4) / 64 % 8⟩) ++ body

/-- The header and units of a frame that is whole (R361); none for one that fails its FCS or does not fit R361. -/
def readFrame (bs : List (BitVec 8)) : Option (LinkHeader × List (BitVec 8)) :=
  let w := leField bs 0 8
  let h := linkHeader w
  let n := 8 + 64 * h.units
  if bs.length = n + 4 ∧ leField bs n 4 = (crc32c (bs.take n)).toNat ∧ w % 2 ^ 23 = 0 ∧
      (if h.typ = 0 then 1 ≤ h.units ∧ h.units ≤ 5 else h.typ ≤ 2 ∧ h.units = 0) then some (h, (bs.drop 8).take (64 * h.units))
  else none

/-- Units of a packet's frame: its head unit and its data granules. -/
def Packet.units (p : Packet) : Nat := 1 + p.data.length / 64

/-- Credits for a class (R362). -/
def PortRec.credit (r : PortRec) (cls : Nat) : Nat := tget 256 r.credits cls

/-- Frames that a circuit entry has sent in the current sixteen. -/
def PortRec.used (r : PortRec) (c : Nat) : Nat := tget 0 r.circUse c

/-- The ordering domain of a packet (R385). -/
def Packet.domain (p : Packet) : Nat × Nat × Nat × Nat := (p.srcDev, p.gaddr / 2 ^ 48, p.cls, p.chan)

/-- Whether a waiting packet may go out now: credits for its class, and a free slot of its circuit's share. -/
def PortRec.mayGo (r : PortRec) (share : Nat → Nat) (e : TxPkt) : Bool :=
  decide (e.pkt.units ≤ r.credit e.pkt.cls) &&
  (match e.circ with
   | some c => decide (r.used c < max 1 (share c))
   | none => true)

/-- The class whose turn slot `w` of the round of 13 is (R362). -/
def wrrClass (w : Nat) : Nat := if w < 8 then 1 else if w < 12 then 2 else 3

/-- The first of the waiting packets that `f` picks and that overtakes none of its own domain (R385), counting from index `i`; `ds` are the domains
of those before. -/
def firstTx (f : TxPkt → Bool) (ds : List (Nat × Nat × Nat × Nat)) (i : Nat) : List TxPkt → Option Nat
  | [] => none
  | e :: r => if f e && !ds.contains e.pkt.domain then some i else firstTx f (e.pkt.domain :: ds) (i + 1) r

/-- The index of the packet that goes next (R362): C0, then circuit frames, then C1 to C3 by their weights; a slot whose class
has nothing to send goes to the lowest class that has. -/
def PortRec.nextTx (r : PortRec) (share : Nat → Nat) : Option Nat :=
  let go (f : TxPkt → Bool) := firstTx (fun e => f e && r.mayGo share e) [] 0 r.txq
  match go fun e => e.pkt.cls == 0 with
  | some i => some i
  | none =>
    match go fun e => e.circ.isSome with
    | some i => some i
    | none =>
      match go fun e => e.circ.isNone && e.pkt.cls == wrrClass r.wrr with
      | some i => some i
      | none => (go fun e => e.circ.isNone && e.pkt.cls == 1).orElse fun _ =>
          (go fun e => e.circ.isNone && e.pkt.cls == 2).orElse fun _ => go fun e => e.circ.isNone && e.pkt.cls == 3

/-- A round of sixteen frame slots begins (R378). -/
def PortRec.newRound (r : PortRec) : PortRec := { r with slot16 := 0, circUse := [] }

/-- Send waiting packet `i`: its frame takes the next SEQ and credits, and stays in the replay buffer (R362, R363). -/
def PortRec.sendTx (r : PortRec) (i : Nat) (e : TxPkt) : PortRec :=
  let r1 := { r with
    txq := r.txq.eraseIdx i
    txSeq := (r.txSeq + 1) % 4096
    replay := r.replay ++ [(⟨r.txSeq, e, r.rxSeq, 0⟩ : SentFrame)]
    credits := tput r.credits e.pkt.cls (r.credit e.pkt.cls - e.pkt.units)
    wrr := if e.pkt.cls = 0 ∨ e.circ.isSome then r.wrr else (r.wrr + 1) % 13
    slot16 := (r.slot16 + 1) % 16 }
  { r1 with circUse :=
    if r1.slot16 = 0 then [] else match e.circ with
      | some c => tput r.circUse c (r.used c + 1)
      | none => r.circUse }

/-- Send one frame. Where nothing but circuit frames beyond their shares waits, the rest of the round's slots pass idle (R378). -/
def PortRec.sendOne (r : PortRec) (share : Nat → Nat) : Option PortRec :=
  if r.up ∧ r.replay.length < 512 then
    let k := if (r.nextTx share).isSome then r else r.newRound
    match k.nextTx share with
    | none => none
    | some i => (k.txq[i]?).map fun e => k.sendTx i e
  else none

/-- Send frames while the port can. -/
def PortRec.pump (r : PortRec) (share : Nat → Nat) : Nat → PortRec
  | 0 => r
  | n + 1 => match r.sendOne share with
    | some r' => r'.pump share n
    | none => r

/-- A circuit entry. -/
def Zfp.entry (z : Zfp) (c : Nat) : CircEntry := tget {} z.circ c

/-- Key of an ordering domain of packets from this device (R385). -/
def domainKey (p : Packet) : Nat := p.gaddr / 2 ^ 48 * 64 + p.cls * 16 + p.chan

/-- This device has sent these frames of its own and others': the latest of each domain of its own is kept (R381). -/
def Zfp.noteSent (z : Zfp) (now : Nat) (fs : List SentFrame) : Zfp :=
  let own := fs.filter fun f => f.tx.pkt.srcDev == z.devNum
  { z with lastSent := own.foldl (fun t f => tput t (domainKey f.tx.pkt) (now, f.tx.pkt.epoch)) z.lastSent }

/-- Let a port send what it can. -/
def State.pump (s : State) (p : Nat) : State :=
  let r := s.port p
  let r1 := r.pump (fun c => (s.zfp.entry c).share) r.txq.length
  (s.modPort p fun _ => r1).modZfp fun z => z.noteSent s.clock.now (r1.replay.drop r.replay.length)

/-- A port that holds more than 4 C0 packets for transmission fires R401. -/
def State.c0Load (s : State) (p : Nat) : State :=
  if 4 < ((s.port p).txq.filter fun e => e.pkt.cls == 0).length then
    (s.modZfp fun z => { z with c0Over := true, c0Port := p }).raise 0x0606 (portsNode (p / 4)) p []
  else s

/-- Put a packet into a port's queue. -/
def State.emitAt (s : State) (p : Nat) (pkt : Packet) (circ : Option Nat) (at_ : Option Nat) : State :=
  let s1 := (s.modPort p fun r => { r with
    txq := r.txq ++ [⟨pkt, circ, at_⟩], c0At := if pkt.cls = 0 then (s.clock.now :: r.c0At).take 4 else r.c0At }).pump p
  if pkt.cls = 0 then s1.c0Load p else s1

/-- A packet of this device goes into a port's queue. -/
def State.emit (s : State) (p : Nat) (pkt : Packet) (circ : Option Nat) : State := s.emitAt p pkt circ none

/-! ### Jisto frames (R438, R577) -/

/-- The next `n` frames of a Jisto link take their SEQ. -/
def State.takeSeq (s : State) (link n : Nat) : State := s.modPort (32 + link) fun r => { r with txSeq := (r.txSeq + n) % 4096 }

/-- Change the host interface. -/
def State.modHif (s : State) (f : Hif → Hif) : State := { s with hif := f s.hif }

/-- Answer a host request with a CPL, which leaves at once while the link is UP (R439, R577). -/
def State.answer (s : State) (link tag code : Nat) (bytes : List (BitVec 8)) : State :=
  let up := (s.port (32 + link)).up
  let c : Cpl := ⟨link, tag, code, bytes, if up then some (s.port (32 + link)).txSeq else none⟩
  (if up then s.takeSeq link 1 else s).modHif fun h => { h with
    cpls := h.cpls ++ [c], outstanding := h.outstanding.erase (link, tag) }

/-- Give the CPLs that wait for a link their frames. -/
def numberCpls (link : Nat) : Nat → List Cpl → List Cpl
  | _, [] => []
  | n, c :: r =>
    if c.link = link ∧ c.seq.isNone then { c with seq := some (n % 4096) } :: numberCpls link (n + 1) r
    else c :: numberCpls link n r

/-- A Jisto link comes UP: the CPLs kept for it are sent, and transfers that found no link UP take it (R454, R577). -/
def State.jistoUp (s : State) (link : Nat) : State :=
  let k := (s.hif.cpls.filter fun c => c.link == link && c.seq.isNone).length
  let x := (s.hif.xfers.filter fun e => e.2.link == 2).length
  ((s.modHif fun h => { h with
    cpls := numberCpls link (s.port (32 + link)).txSeq h.cpls
    xfers := tmap (fun _ x => if x.link = 2 then { x with link := link } else x) h.xfers })).takeSeq link (k + x)

/-- A Jisto link leaves UP: its CPLs wait to be sent again (R577). -/
def State.jistoDown (s : State) (link : Nat) : State := s.modHif fun h => { h with
  cpls := h.cpls.map fun c => if c.link = link then { c with seq := none } else c }

/-- A Jisto link goes to FAILED, or its gateway is lost: its CPLs are never sent, what it had asked is not answered (R577), and the
device's own transfers on it take the other link, or wait for one (R454, log entry 231). -/
def State.jistoLost (s : State) (link : Nat) : State :=
  let other := 1 - link
  let up := (s.port (32 + other)).up
  let n := (s.hif.xfers.filter fun e => e.2.link == link).length
  let s1 := s.modHif fun h => { h with
    cpls := h.cpls.filter fun c => c.link != link, outstanding := h.outstanding.filter fun e => e.1 != link
    xfers := tmap (fun _ x => if x.link = link then { x with link := if up then other else 2, since := s.clock.now } else x) h.xfers }
  if up then s1.takeSeq other n else s1

/-- CPLs whose frames an ACK of SEQ `ack` covers. -/
def ackCpls (link ack : Nat) (cs : List Cpl) : List Cpl :=
  match cs.findIdx? fun c => c.link == link && c.seq == some ack with
  | some i => (cs.take (i + 1)).filter (fun c => c.link != link) ++ cs.drop (i + 1)
  | none => cs

/-! ### Routing -/

/-- Whether a port is a pair port (R397). -/
def Zfp.isPair (z : Zfp) (p : Nat) : Bool := z.pairOn && (z.portA == p || z.portB == p)

/-- The routing version of an epoch (R370). -/
def Zfp.version (z : Zfp) (e : Bool) : RtVersion := if e then z.rt.2 else z.rt.1

/-- The eligible candidates of a device entry, in ascending order (R371). -/
def State.candidates (s : State) (e : Nat) : List Nat :=
  ((List.range 4).filter fun k => bitOf e (8 * k + 7) && (s.port (bitsOf e (8 * k) 5)).up &&
    !s.zfp.isPair (bitsOf e (8 * k) 5)).map fun k => bitsOf e (8 * k) 5

/-- h of R371. -/
def Packet.hash (p : Packet) : Nat := p.srcDev ^^^ (p.chan * 4) ^^^ p.cls

/-- Element `h mod n` of a list of `n`. -/
def pickMod (h : Nat) (l : List Nat) : Option Nat := l[h % max 1 l.length]?

/-- The pair ports that are up. -/
def State.pairPorts (s : State) : List Nat :=
  if s.zfp.pairOn then [s.zfp.portA, s.zfp.portB].filter fun p => (s.port p).up else []

/-- Whether a circuit entry carries traffic: it is active, and its output is no pair port (R377, R398). -/
def Zfp.carries (z : Zfp) (e : CircEntry) : Bool := e.valid && e.active && !z.isPair e.out

/-- The active circuit entry for a packet that arrived on `inp` (32: from this device). -/
def Zfp.circFor (z : Zfp) (p : Packet) (inp : Nat) : Option Nat :=
  (z.circ.find? fun e => z.carries e.2 && e.2.inp == inp && e.2.circ == p.circ).map (·.1)

/-- The output port of a packet for another device (R371, R378), with its circuit entry; none when it has none. This device's own packets for its
partner take the pair ports while the pair is UP, and no other packet takes one (R398, R399). -/
def State.routeOf (s : State) (p : Packet) (inp : Nat) : Option (Nat × Option Nat) :=
  let dest := p.gaddr / 2 ^ 48
  if p.circOn then (s.zfp.circFor p inp).map fun c => ((s.zfp.entry c).out, some c)
  else if dest = s.zfp.partner ∧ p.srcDev = s.zfp.devNum ∧ s.zfp.pairUp ∧ !s.pairPorts.isEmpty then (pickMod p.hash s.pairPorts).map fun q => (q, none)
  else (pickMod p.hash (s.candidates (tget 0 (s.zfp.version p.epoch).dev dest))).map fun q => (q, none)

/-! ### Source -/

/-- A C2 WRITE that a LOCAL entry matches leaves as circuit traffic (R378). -/
def Zfp.circuit (z : Zfp) (p : Packet) : Packet :=
  match z.circ.find? fun e => z.carries e.2 && e.2.inp == 32 && e.2.dest == p.gaddr / 2 ^ 48 &&
      e.2.chan == p.chan with
  | some e => if p.kind = 0 ∧ p.cls = 2 then { p with circOn := true, circ := e.2.circ } else p
  | none => p

/-- Copies of a packet for every port of a broadcast mask that is UP (R373); a pair port takes none (R398). -/
def State.emitMask (s : State) (p : Packet) (mask : Nat) (at_ : Option Nat) : List Nat → State
  | [] => s
  | q :: qs => (if bitOf mask q && (s.port q).up && !s.zfp.isPair q then s.emitAt q p none at_ else s).emitMask p mask at_ qs

/-- A packet waits in its gateway: `port` 40 stands for this device itself. -/
def State.receive (s : State) (port : Nat) (p : Packet) : State :=
  s.modZfp fun z => { z with rx := tput z.rx z.nextRx ⟨port, p, s.clock.now⟩, nextRx := z.nextRx + 1 }

/-- Send a packet that stands at its source gateway on its way (R371, R373). -/
def State.launch (s : State) (p : Packet) : State :=
  let dest := p.gaddr / 2 ^ 48
  if dest = 65535 then
    let m := tget 0 (s.zfp.version p.epoch).bcast 32
    let s2 := s.emitMask p m none (List.range 32)
    if bitOf m 32 then s2.receive 40 { p with gaddr := s.zfp.devNum * 2 ^ 48 + p.gaddr % 2 ^ 48 } else s2
  else if dest = s.zfp.devNum then s.receive 40 p
  else match s.routeOf p 32 with
    | some (q, c) => s.emit q p c
    | none => s.dropNoRoute

/-! ### Pacing of C0 (R401) -/

/-- Whether one more C0 packet leaves the port at 4 or fewer within any 256 ns (R400). -/
def State.c0Free (s : State) (p : Nat) : Bool :=
  match (s.port p).c0At with
  | [_, _, _, t] => decide (t + s.cyclesOf (256 * 126) ≤ s.clock.now)
  | _ => true

/-- The ports that a packet of this device goes to. -/
def State.portsOf (s : State) (p : Packet) : List Nat :=
  let dest := p.gaddr / 2 ^ 48
  if dest = 65535 then
    let m := tget 0 (s.zfp.version p.epoch).bcast 32
    (List.range 32).filter fun q => bitOf m q && (s.port q).up && !s.zfp.isPair q
  else if dest = s.zfp.devNum then []
  else match s.routeOf p 32 with
    | some (q, _) => [q]
    | none => []

/-- Offer a packet of this device to its ports. Firmware keeps a C0 packet back while a port has no room for it (R401), and behind one of its domain. -/
def State.offer (s : State) (p : Packet) : State :=
  if p.cls = 0 ∧ (!(s.portsOf p).all s.c0Free ∨ s.zfp.paced.any fun q => domainKey q == domainKey p) then
    s.modZfp fun z => { z with paced := z.paced ++ [p] }
  else s.launch p

/-- The C0 packets kept back go out as their ports have room, oldest first (R401). -/
def State.releasePaced (s : State) : Nat → State
  | 0 => s
  | n + 1 =>
    match s.zfp.paced with
    | [] => s
    | p :: r =>
      if (s.portsOf p).all s.c0Free then ((s.modZfp fun z => { z with paced := r }).launch p).releasePaced n else s

/-- Release what can go. -/
def State.pace (s : State) : State := s.releasePaced s.zfp.paced.length

/-! ### The drain (R381) -/

/-- The drain time of a class, in cycles (R381). -/
def State.drainTime (s : State) (cls : Nat) : Nat :=
  s.cyclesOf (usec * (if cls = 0 then 2 * s.zfp.hopsInit else s.zfp.drain))

/-- ZFP_RT_CTL.DRAINING. -/
def State.draining (s : State) : Bool := s.zfp.flipped && decide (s.clock.now < s.zfp.flipAt + s.drainTime 1)

/-- Whether a packet of this device, queued at its source, belongs to a domain and to the old epoch. -/
def State.oldOf (s : State) (key : Nat) (p : Packet) : Bool :=
  p.epoch != s.zfp.active && p.srcDev == s.zfp.devNum && domainKey p == key

/-- The packets of a domain and of the old epoch that are still queued at their source. -/
def State.oldQueued (s : State) (key : Nat) : Nat :=
  (s.zfp.ports.map fun x => (x.2.txq.filter fun q => s.oldOf key q.pkt).length).foldl (· + ·) 0 +
  (s.zfp.paced.filter (s.oldOf key)).length + (s.zfp.heldTx.filter (s.oldOf key)).length

/-- The cycle from which a domain's drain time runs: that of the last packet of the old epoch sent, or the flip's where none was and some wait. -/
def State.drainFrom (s : State) (key : Nat) : Option Nat :=
  match tfind s.zfp.lastSent key with
  | some (t, e) => if e != s.zfp.active then some t else none
  | none => if 0 < s.oldQueued key then some s.zfp.flipAt else none

/-- Whether R381 holds a packet of an ordering domain at its source. -/
def State.holds (s : State) (p : Packet) : Bool :=
  (s.zfp.heldTx.any fun q => domainKey q == domainKey p) ||
  (s.drainFrom (domainKey p)).any fun t => decide (s.clock.now < t + s.drainTime p.cls)

/-- Count `n` packets of the old epoch. -/
def State.dropOldEpochs (s : State) : Nat → State
  | 0 => s
  | n + 1 => s.dropOldEpoch.dropOldEpochs n

/-- The packets of a domain and of the old epoch that are still queued once the drain time has passed are dropped and counted (R381). -/
def State.expireDomain (s : State) (key : Nat) : State :=
  (s.modZfp fun z => { z with
    ports := tmap (fun _ r => { r with txq := r.txq.filter fun q => !s.oldOf key q.pkt }) z.ports
    paced := z.paced.filter fun p => !s.oldOf key p
    heldTx := z.heldTx.filter fun p => !s.oldOf key p }).dropOldEpochs (s.oldQueued key)

/-- Stamp and send a packet of this device: HOPS, SRC_DEV, SRC_INC and EPOCH are the gateway's (R372, R379); with no device
number nothing leaves (R369); while the drain time of its domain runs, the packet is held, and what is left of the old epoch after it is dropped
(R381). -/
def State.sendPacket (s0 : State) (p0 : Packet) : State :=
  let s := s0.pace
  if s.zfp.devNum = 0xFFFF then s.dropNoRoute
  else
    let p := s.zfp.circuit { p0 with
      hops := s.zfp.hopsInit, srcDev := s.zfp.devNum, srcInc := s.cons.inc % 65536, epoch := s.zfp.active }
    if s.holds p then s.modZfp fun z => { z with heldTx := z.heldTx ++ [p] } else (s.expireDomain (domainKey p)).offer p

/-- A packet with no data from node `node`, in class C0 unless said otherwise. -/
def plainPacket (kind cls gaddr node arg : Nat) (inl : List (BitVec 8)) : Packet :=
  { cls := cls, kind := kind, chan := 0, epoch := false, circOn := false, last := false, rpt := false, trailer := false, hops := 0,
    srcDev := 0, srcInc := 0, gaddr := gaddr, srcNode := node, circ := 0, arg := arg, poison := 0#32,
    inl := (inl ++ List.replicate 32 0#8).take 32, data := [] }

/-! ### The head unit (R365) -/

/-- The head unit of a packet: its header, with HCHK, and its inline data (R365). -/
def Packet.head (p : Packet) : List (BitVec 8) :=
  let pre (hops : Nat) : List (BitVec 8) :=
    leBytes 1 (16 + p.kind) ++ leBytes 1 (64 * p.cls + 4 * p.chan + 2 * b2n p.epoch + b2n p.circOn) ++
    leBytes 1 (p.data.length / 64 + 8 * b2n p.last + 16 * b2n p.rpt + 32 * b2n p.trailer) ++ leBytes 1 hops ++
    leBytes 2 p.srcDev ++ leBytes 2 p.srcInc ++ leBytes 8 p.gaddr ++ leBytes 2 p.srcNode ++ leBytes 2 p.circ ++ leBytes 4 p.arg ++
    leBytes 4 p.poison.toNat
  pre p.hops ++ leBytes 4 (crc32c (pre 0)).toNat ++ p.inl

/-! ### STATE packets (R496) -/

/-- The node of the active consensus engine (R254, R494). -/
def State.consNode (s : State) : Nat := nodeAt (if s.cons.gw7 then 130 else 13) 3

/-- The inline data of a STATE packet. -/
def stateBytes (group view rank cause inc step : Nat) (ranks : List Nat) : List (BitVec 8) :=
  leBytes 4 group ++ leBytes 4 view ++ leBytes 2 rank ++ [BitVec.ofNat 8 cause, 0#8] ++ leBytes 4 inc ++ leBytes 8 step ++
  ((List.range 4).flatMap fun i => leBytes 2 (ranks.getD i 0xFFFF))

/-- The sub-kinds that ask for an answer: SUSPECT, PROPOSE, JOIN, LEAVE and REWIND, which PROPOSE, ACK or COMMIT answer (R498). -/
def asksAnswer (sub : Nat) : Bool := sub == 1 || sub == 2 || sub == 6 || sub == 7 || sub == 8

/-- Send a STATE packet of sub-kind `sub` to device `dev`; one that asks for an answer is kept until it is answered (R510). -/
def State.sendState (s : State) (sub dev view cause inc step : Nat) (ranks : List Nat) : State :=
  let p := plainPacket 4 0 (dev * 2 ^ 48) s.consNode sub (stateBytes s.cons.group view s.cons.rank cause inc step ranks)
  let s1 : State := if asksAnswer sub then { s with stew := { s.stew with
      c0 := tput s.stew.c0 s.stew.nextC0 ⟨p, s.clock.now⟩, nextC0 := s.stew.nextC0 + 1 } } else s
  s1.sendPacket p

/-- A member of the step group. -/
def State.member (s : State) (r : Nat) : Member := tget {} s.cons.members r

/-- The lowest live rank: the coordinator (R495). -/
def Cons.coord (c : Cons) : Option Nat := (c.members.find? fun e => e.2.live).map (·.1)

/-- Send a STATE packet to the coordinator. -/
def State.tellCoord (s : State) (sub cause step : Nat) (ranks : List Nat) : State :=
  match s.cons.coord with
  | some r => s.sendState sub (s.member r).dev s.cons.view cause 0 step ranks
  | none => s

end Sys2Proof.Machine
end

