-- ==== Sys2Proof/Machine/MapOps.lean ====
section
/-! DEFINITION. The panel map (01): its record and commits (R39 to R41), the choice of spares (R50, R654, R655), and the
cores that a binding dresses (R34, R35, R37). -/

namespace Sys2Proof.Machine

open Sys2Proof

/-- The 136 compute sites (R25). -/
def computeSites : List Nat := (List.range 144).filter fun x => !isGw x

/-- Change the panel. -/
def State.modPanel (s : State) (f : Panel → Panel) : State := { s with panel := f s.panel }

/-- Set a site's role (R29); a gateway site keeps its own. -/
def State.setRole (s : State) (site : Nat) (r : Role) : State :=
  if isGw site then s else s.modPanel fun p => { p with role := tput p.role site r }

/-- Whether a compute site is in service: bound or spare. -/
def State.inService (s : State) (site : Nat) : Bool := s.roleOf site == .bound || s.roleOf site == .spare

/-- The sites in service whose cores a job's end sweeps (R342). -/
def State.servedSites (s : State) : List Nat := computeSites.filter s.inService

/-- The spare sites in service, in ascending order; one that returns serves once it is swept (R342). -/
def State.spares (s : State) : List Nat := computeSites.filter fun x =>
  s.roleOf x == .spare && tget false s.panel.routerUp x &&
    !((tget {} s.win.sweep x).cause == .back && !(tget {} s.win.sweep x).left.isEmpty)

/-- Whether site `a` is a better replacement for `from_` than `b` (R50): fewer hops, then the same erg, then the lower
number. -/
def betterSpare (from_ a b : Nat) : Bool :=
  if hops from_ a ≠ hops from_ b then decide (hops from_ a < hops from_ b)
  else if (ergOf a == ergOf from_) != (ergOf b == ergOf from_) then ergOf a == ergOf from_
  else decide (a < b)

/-- The best replacement among candidates (R50). -/
def bestSpare (from_ : Nat) : List Nat → Option Nat
  | [] => none
  | x :: xs => match bestSpare from_ xs with
    | none => some x
    | some y => some (if betterSpare from_ x y then x else y)

/-- Give spares to the logical dies of a set, in ascending order, each by R50 from the site it held (R654). -/
def assignSpares : List (Nat × Nat) → List Nat → List Moved
  | [], _ => []
  | (ld, old) :: r, free =>
    match bestSpare old free with
    | none => ⟨ld, old, none⟩ :: assignSpares r free
    | some n => ⟨ld, old, some n⟩ :: assignSpares r (free.filter (· ≠ n))

/-! ### Records (R39 to R41) -/

/-- The 16-bit STACK_SPARE entry of a spare (R319). -/
def SpareRec.entry (r : SpareRec) : Nat := 32768 * b2n r.used + 16384 * b2n r.retired + r.region % 512

/-- STACK_SPARE of every stack, keyed by 16 * stack + 2 * spare. -/
def State.stackSpares (s : State) : Tab Nat :=
  s.plos.rec_.flatMap fun e => e.2.spares.map fun x => (16 * e.1 + 2 * x.1, x.2.entry)

/-- The role code of SITE_ROLE (R39). -/
def roleCode : Role → Nat
  | .gateway => 0
  | .bound => 1
  | .spare => 2
  | .retired => 3
  | .dark => 4

/-- The bytes of a record but for its last 8 (R39). -/
def MapRecord.body (r : MapRecord) : List (BitVec 8) :=
  let count (x : Role) : Nat := (r.role.filter fun e => e.2 == x).length
  leBytes 4 0x4D50564B ++ leBytes 2 1 ++ leBytes 2 0 ++ leBytes 4 r.gen.toNat ++ leBytes 1 (count .spare) ++
  leBytes 1 (count .retired) ++ leBytes 2 0 ++ leBytes 8 r.commitTick.toNat ++
  ((List.range 128).map fun n => BitVec.ofNat 8 (tget 0xFF r.ldSite n)) ++
  ((List.range 144).map fun x => BitVec.ofNat 8 (32 * roleCode (if isGw x then .gateway else tget .dark r.role x))) ++
  ((List.range 1152).map fun x => BitVec.ofNat 8 (tget 0xFF r.rowFault x)) ++
  ((List.range 128).flatMap fun x => leBytes 2 (tget 0 r.spares (2 * x))) ++ List.replicate 2384 0#8

/-- The 4 KiB of a record, with CHECK (R39, R41 step 1). -/
def MapRecord.bytes (r : MapRecord) : List (BitVec 8) := r.body ++ leBytes 8 (crc64 r.body).toNat

/-- Append a record to a side of the system area (R415): `sideB` false is side A; a side out of service leaves it to the other
(R418). -/
def State.sysPut (s : State) (sideB : Bool) (type : Nat) (bytes : List (BitVec 8)) : State :=
  let side := if tget false s.nvm.sysOut (b2n sideB) then !sideB else sideB
  { s with nvm := { s.nvm with sys := tmod [] s.nvm.sys (b2n side) fun l => (type, bytes) :: l } }

/-- Append a table of the system area, of a type, to both sides (R413, R415). -/
def State.sysTable (s : State) (type : Nat) : State :=
  let b := (List.range 4096).map (Config.tableByte type)
  (s.sysPut false type b).sysPut true type b

/-! ### Check-value units (R351 to R355) -/

/-- A check-value unit. -/
def State.cvu (s : State) (u : Nat) : CvuRec := tget {} s.win.cvu u

/-- Change a check-value unit. -/
def State.modCvu (s : State) (u : Nat) (f : CvuRec → CvuRec) : State :=
  { s with win := { s.win with cvu := tmod {} s.win.cvu u f } }

/-- The check value of a stream: CRC-64/XZ or CRC-32C (R351). -/
def checkValue (alg : Bool) (bs : List (BitVec 8)) : Nat := if alg then (crc64 bs).toNat else (crc32c bs).toNat

/-- Post a result into the next entry of the ring (R355). STATUS is 1 DONE, 2 MISMATCH, 3 ABANDONED. -/
def CvuRec.post (c : CvuRec) (q : CvuReq) (status bytes value : Nat) : CvuRec :=
  let seq := (c.lastSeq + 1) % 65536
  { c with
    ring := tput c.ring c.head
      { node := q.node, rseq := q.rseq % 65536, status := status, mode := q.mode, alg := q.alg, eseq := seq, bytes := bytes, value := value }
    head := (c.head + 1) % 16
    lastSeq := seq }

/-- Take the next stream of the queue (R353). -/
def CvuRec.next (c : CvuRec) : CvuRec :=
  match c.queue with
  | [] => { c with busy := none, cut := false }
  | q :: r => { c with busy := some q, cut := false, queue := r }

/-- Count a request that finds a unit's queue full (R353). -/
def State.cvuRefused (s : State) (u : Nat) : State :=
  let c := s.cvu u
  let b := bump 0xFFFF c.refused c.ovf
  let win := if u < 8 then dieWin (gwSite u) + 0x200 else stackWin (u - 8) + 0x200
  (s.modCvu u fun c => { c with refused := b.1, ovf := b.2.1 }).cntOvf b.2.2 (win + 8) 0
    (if u < 8 then nodeAt (gwSite u) 7 else nodeOfStack (u - 8))

/-- Ask a check-value unit for a stream (R353): taken at once, queued, or refused. -/
def State.askCvu (s : State) (u : Nat) (q : CvuReq) : State × Nat :=
  let c := s.cvu u
  if c.busy.isNone then (s.modCvu u fun c => { c with busy := some q }, 0)
  else if c.queue.length < 8 then (s.modCvu u fun c => { c with queue := c.queue ++ [q] }, 1)
  else (s.cvuRefused u, 2)

/-- A stream whose bytes firmware has at hand passes a unit: its value is posted at once, or when the unit takes it; nothing is posted for one that
is refused (R353, R355, log entry 273). -/
def State.passCvu (s : State) (u : Nat) (q : CvuReq) : State :=
  let k := s.askCvu u q
  if k.2 = 0 then k.1.modCvu u fun c => (c.post q 1 q.covers (q.expect.getD 0)).next else k.1

/-- The request of a stream whose bytes firmware has at hand: SNOOP with CRC-64/XZ, and what it posts. -/
def snoopReq (node rseq covers value : Nat) : CvuReq :=
  { node := node, rseq := rseq, mode := 1, alg := true, expect := some value, covers := covers }

/-- The unit of the gateway beside the active panel steward. -/
def State.stewardCvu (s : State) : Nat := if s.stew.active = some true then 7 else 0

/-- Commit a record of the present map (R40, R41): GEN rises by 1, the copy not in force takes the record, GLB_MAP_GEN
takes the new GEN, and EV_MAP_CHANGED is raised. CHECK comes from a check-value unit, whose entry carries the low half of GEN. -/
def State.commitRecord (s : State) : State :=
  let r : MapRecord :=
    { gen := s.panel.mapGen + 1#32, commitTick := s.clock.tick, ldSite := s.panel.ldSite, role := s.panel.role,
      rowFault := s.panel.rowFault, spares := s.stackSpares }
  let s1 := s.passCvu s.stewardCvu (snoopReq panelNode (r.gen.toNat % 65536) 0xFF8 (crc64 r.body).toNat)
  ((s1.sysPut (!s.panel.inForceB) 1 r.bytes).modPanel fun p => { p with
    copyA := if p.inForceB then some r else p.copyA
    copyB := if p.inForceB then p.copyB else some r
    inForceB := !p.inForceB
    mapGen := r.gen
    stackSpare := r.spares }).raise 0x0101 panelNode noUnit []

/-! ### Bindings -/

/-- The faulty column of a row, or 12: the rest position of a newly bound row (R35, R37). -/
def State.restFor (s : State) (site row : Nat) : Nat := (s.rowFaultOf site row).getD 12

/-- CORE_STATE of the cores of a site, as its binding has them (R34): a resting core is RESTING, the others IDLE; a core
that runs, has faulted or is being swept keeps its RUN. -/
def State.dress (s : State) (site : Nat) : State :=
  let ld := s.ldAt site
  { s with cores := tfill {} (fun p c =>
      let col := pCol p
      let row := pRow p
      let keep := c.stat.run != .resting && c.stat.run != .idle
      match ld with
      | none => { c with stat := { c.stat with valid := false, lcore := 0, run := if keep then c.stat.run else .idle } }
      | some d =>
        let r := s.restOf d row
        if col = r then
          { c with stat := { c.stat with valid := false, lcore := 0, run := if keep then c.stat.run else .resting } }
        else { c with stat := { c.stat with
            valid := true, lcore := 96 * d + 12 * row + (if col < r then col else col - 1)
            run := if keep then c.stat.run else .idle } }) (104 * site) 104 s.cores }

/-- A row's rest position moves: every router's copy of it moves too, in a version that lists it (R265, R255). -/
def State.moveRest (s : State) (key col : Nat) : State :=
  let one (v : RouteVersion) : RouteVersion := if tmem v.rest key then { v with rest := tput v.rest key col } else v
  { s with
    panel := { s.panel with rest := tput s.panel.rest key col }
    mesh := { s.mesh with versions := (s.mesh.versions.1, one s.mesh.versions.2.1, one s.mesh.versions.2.2) } }

/-- Bind a logical die to a site: its rows rest at 12, or at their faulty column (R35, R37). -/
def State.bindDie (s : State) (ld site : Nat) : State :=
  let s1 := (s.modPanel fun p => { p with ldSite := tput p.ldSite ld site, away := tdel p.away ld }).setRole site .bound
  let s2 := (List.range 8).foldl (fun s row => s.modPanel fun p => { p with
    rest := tput p.rest (8 * ld + row) (s.restFor site row), restDown := tdel p.restDown (8 * ld + row) }) s1
  s2.dress site

/-- Leave a logical die unbound (R59): the site it held is remembered (R655). -/
def State.unbindDie (s : State) (ld old : Nat) : State :=
  s.modPanel fun p => { p with ldSite := tdel p.ldSite ld, away := tput p.away ld old }

/-- Apply one move of a set: the die leaves its old site, and takes the new one or stays unbound. -/
def State.applyMove (s : State) (m : Moved) : State :=
  let s1 := s.unbindDie m.ld m.old
  match m.new with
  | some n => s1.bindDie m.ld n
  | none => s1

/-- GLB_RELAY_STAT after a substitution, which shows the last die of its set (R62). -/
def relayOf (result : Nat) (ms : List Moved) (old : RelayStat) : RelayStat :=
  match ms.getLast? with
  | some m => { result := result, ld := m.ld, oldSite := m.old, newSite := m.new.getD 0xFF }
  | none => { old with result := result }

/-- The unbound dies with the sites they held, in ascending order. -/
def State.unbound (s : State) : List (Nat × Nat) := s.panel.away

/-- R655: unbound dies take back their own site where it is among `back`, and the rest take spares by R654; GLB_RELAY_STAT shows the last that
took one (R62 RESULT 0x5). -/
def State.rebind (s : State) (back : List Nat) : State :=
  let own := s.unbound.filter fun e => back.contains e.2
  let s1 := own.foldl (fun s e => s.bindDie e.1 e.2) s
  let ms := (assignSpares s1.unbound s1.spares).filter fun m => m.new.isSome
  let s2 := ms.foldl State.applyMove s1
  if ms.isEmpty then s2 else s2.modPanel fun p => { p with relay := relayOf 5 ms p.relay }

/-- A panel in SHORT returns to READY with the binding of the last unbound die (R60). -/
def State.shortOver (s : State) : State :=
  if s.panel.mode = .short ∧ s.panel.away.isEmpty then s.modPanel fun p => { p with mode := .ready } else s

/-- The unit numbers of R481, one for each logical core, each site (held at its die steward's node), each base die. -/
def incKey (node : Nat) : Nat :=
  if node < 0x3000 then node else if node < 0x3900 then node / 16 * 16 else node

/-- The incarnation number of a node (R481). -/
def State.incOf (s : State) (node : Nat) : Nat := tget 0 s.inc (incKey node)

/-- Raise a unit's incarnation number by 1, modulo its 8 bits (R482). -/
def State.raiseInc (s : State) (node : Nat) : State :=
  { s with inc := tput s.inc (incKey node) ((s.incOf node + 1) % 256) }

end Sys2Proof.Machine
end

