-- ==== Sys2Proof/Machine/JobEnd.lean ====
section
/-! DEFINITION. The end of a job (R342, R302, R341, R355, R394, R429, R464) and the sweeps of the scratchpads (R343 to R346);
status words (R455). -/

namespace Sys2Proof.Machine

open Sys2Proof

/-! ### Stacks' records -/

/-- A stack's record. -/
def State.stack (s : State) (n : Nat) : StackRec := tget {} s.plos.rec_ n

/-- Change a stack's record. -/
def State.modStack (s : State) (n : Nat) (f : StackRec → StackRec) : State :=
  { s with plos := { s.plos with rec_ := tmod {} s.plos.rec_ n f } }

/-! ### Status words (R455, R456) -/

/-- Key of a slot. -/
def slotKey (q i : Nat) : Nat := 4096 * q + i

/-- A queue's record. -/
def State.queue (s : State) (q : Nat) : QueueRec := tget {} s.hif.queues q

/-- Change a queue's record. -/
def State.modQueue (s : State) (q : Nat) (f : QueueRec → QueueRec) : State :=
  { s with hif := { s.hif with queues := tmod {} s.hif.queues q f } }

/-- A slot's status word. -/
def State.status (s : State) (q i : Nat) : Status := tget {} s.hif.status (slotKey q i)

/-- Write a slot's status word. -/
def State.modStatus (s : State) (q i : Nat) (f : Status → Status) : State :=
  { s with hif := { s.hif with status := tmod {} s.hif.status (slotKey q i) f } }

/-- A command reaches a terminal state: its queue's next command may begin (R450). -/
def State.endCmd (s : State) (q i : Nat) (st : CmdState) (code : Nat) : State :=
  ((s.modStatus q i fun w => { w with st := st, code := code }).modQueue q fun r =>
    { r with live := r.live.filter (· ≠ i) })

/-- A command ends with a code: DONE with 0, else FAILED (R456). -/
def State.finishCmd (s : State) (q i code : Nat) : State := s.endCmd q i (if code = 0 then .done else .failed) code

/-! ### Check-value results (R355) -/

/-- The job's streams end before their last byte (R355): those that wait never start, and the one that the unit works on is posted ABANDONED
once it ends, with what it covers. -/
def CvuRec.abandonJob (c : CvuRec) : CvuRec :=
  { c with
    queue := c.queue.filter fun q => decide (0x3000 ≤ q.node)
    cut := c.cut || c.busy.any fun q => decide (q.node < 0x3000) }

/-- A stream that a unit works on, or that waits for it, ends after the bytes given: one that has begun posts ABANDONED (R355). -/
def CvuRec.abandon (c : CvuRec) (q : CvuReq) (covered : List (BitVec 8)) : CvuRec :=
  if c.busy = some q then (c.post q 3 covered.length (checkValue q.alg covered)).next else { c with queue := c.queue.erase q }

/-! ### Sweeps (R342 to R346) -/

/-- A site's DIE_SWEEP. -/
def State.dieSweep (s : State) (site : Nat) : DieSweep := tget {} s.win.sweep site

/-- Change a site's DIE_SWEEP. -/
def State.modSweep (s : State) (site : Nat) (f : DieSweep → DieSweep) : State :=
  { s with win := { s.win with sweep := tmod {} s.win.sweep site f } }

/-- What is left of a core's buffers when all work is dropped: the tick's refused ROUTE actions (R214). -/
def CorePipe.refusals (k : CorePipe) : CorePipe := { dropFirst := k.dropFirst, dropCount := k.dropCount }

/-- Steps 1 and 2 of a sweep: fetch stops, pending work is discarded, RUN is SWEEPING (R343). The ROUTE actions that the tick has
refused still raise their event at its end (R214). -/
def CoreRec.beginSweep (c : CoreRec) : CoreRec :=
  { c with stat := { c.stat with run := .sweeping, mirror := false }, ctl := {}, regs := {}, pipe := c.pipe.refusals }

/-- A flit that still waits in its core's unscheduled send buffer (R211). -/
def State.inSendBuffer (s : State) (f : Flit) : Bool :=
  f.fromBuf &&
  match f.pos, s.pcoreOf f.src with
  | .ramp x _, some p => decide (x = posOfPcore p)
  | _, _ => false

/-- The accesses that certain askers have at the base dies are discarded. -/
def Stacks.dropAsker (t : Stacks) (gone : Asker → Bool) : Stacks :=
  let mine (g : Nat) : Bool := (tfind t.gathers g).any fun x => gone x.asker
  { t with accesses := tfilter (fun _ a => !mine a.gather) t.accesses, gathers := tfilter (fun _ g => !gone g.asker) t.gathers }

/-- The request that a remote DMA makes of its sending gateway's unit (R336, R353). -/
def RdmaSend.req (e : RdmaSend) : CvuReq := { node := e.key / 4, rseq := e.seq, mode := e.cvu % 4, alg := bitOf e.cvu 2, expect := none }

/-- The remote DMAs of the logical cores `gone` are abandoned: they write no completion record, their slots are free, and what still travels or
waits for them reports to no slot (R341). -/
def State.dropRdma (s : State) (gone : Nat → Bool) : State :=
  let keep (t : Option Nat) : Option Nat := t.filter fun k => decide (2 ^ 20 ≤ k) || !gone (k / 4)
  let s := (s.zfp.sends.filter fun e => gone (e.key / 4) && e.cvu != 0).foldl
    (fun s e => s.modCvu e.gw fun c => c.abandon e.req (e.got.flatMap fun g => g.2.1)) s
  { s with
    win := { s.win with rdma := tfilter (fun k _ => !gone (k / 4)) s.win.rdma }
    zfp := { s.zfp with sends := s.zfp.sends.filter fun e => !gone (e.key / 4) }
    plos := s.plos.dropAsker fun a => match a with
      | .rdma k => gone (k / 4)
      | _ => false
    mesh := { s.mesh with flits := tmap (fun _ f => { f with tag := keep f.tag }) s.mesh.flits }
    cores := tmap (fun _ c => { c with pipe := { c.pipe with wbuf := c.pipe.wbuf.map fun w => { w with tag := keep w.tag } } }) s.cores }

/-- The contexts of a logical core return to IDLE, its RDMA slots are freed and its unscheduled sends discarded (R343 step 1), and its
wadis close (R329). -/
def State.dropLcores (s : State) (lo n : Nat) : State :=
  let out (w k : Nat) : Bool := decide (k / w < lo) || decide (lo + n ≤ k / w)
  let s := s.dropRdma fun l => !out 1 l
  { s with
    mesh := { s.mesh with flits := tfilter (fun _ f => !(s.inSendBuffer f && !out 1 f.src)) s.mesh.flits }
    ctx := tfilter (fun k _ => out 8 k) s.ctx
    ctxDue := s.ctxDue.filter fun e => out 8 e.2
    win := { s.win with
      wadi := tfilter (fun k _ => out 16 k) s.win.wadi
      wadiWas := tfilter (fun k _ => out 16 k) s.win.wadiWas } }

/-- A trigger's sweep of every core of a site (R342): of the die alone, or of the panel at a job's end (R345). A sweep under way goes on as the new one. -/
def DieSweep.begin_ (d : DieSweep) (cause : SweepCause) (panel : Bool) : DieSweep :=
  { st := 1, cause := cause, left := List.range 104, failed := [], discard := 0
    own := !panel || (d.own && !d.left.isEmpty), panel := panel || (d.panel && !d.left.isEmpty) }

/-- The sweep of every core of a site begins (R342, R343); `panel` tells that a job's end calls for it. -/
def State.sweepSite (s : State) (cause : SweepCause) (panel : Bool) (site : Nat) : State :=
  let s1 := { s with cores := tfill {} (fun _ c => c.beginSweep) (104 * site) 104 s.cores }
  let s2 := s1.modSweep site fun d => d.begin_ cause panel
  match s.ldAt site with
  | some ld => s2.dropLcores (96 * ld) 96
  | none => s2

/-- The sweep of one core begins: R96 CMD SWEEP, and the vacated core of a barchan move (R92). -/
def State.sweepCore (s : State) (p : Nat) : State :=
  let c := s.core p
  let s1 := (s.setCore p c.beginSweep).modSweep (pSite p) fun d => { d with
    st := 1, left := pIdx p :: d.left.filter (· ≠ pIdx p), failed := d.failed.filter (· ≠ pIdx p) }
  if c.stat.valid then s1.dropLcores c.stat.lcore 1 else s1

/-- Steps 3 and 4: zeros with valid ECC over scratchpad and instruction memory, the state of R168, RUN IDLE (R343). -/
def State.sweptCore (s : State) (p : Nat) : State :=
  let out (w k : Nat) : Bool := decide (k / w ≠ p)
  (s.modSrams fun r =>
    { spad := tfilter (fun k _ => out spadSize k) r.spad
      poison := tfilter (fun k _ => out 0x40000 k) r.poison
      flips := tfilter (fun k _ => out 0x40000 k) r.flips
      imem := tfilter (fun k _ => out 2048 k) r.imem
      imemFlips := tfilter (fun k _ => out 2048 k) r.imemFlips }).modCore p fun c =>
    { c with stat := { c.stat with run := .idle }, ctl := {}, regs := {}, pipe := c.pipe.refusals }

/-! ### The end of a job -/

/-- Whether a job is under way whose end is still to come. -/
def Job.live (j : Job) : Bool := j.phase != .none_ && j.phase != .sweep

/-- HIF_JOB_GEN moves on by 2 with every update of its block, odd in between (R460). -/
def Job.touch (j : Job) : Job := { j with gen := (j.gen + 2) % 2 ^ 64 }

/-- Every base die sweeps what any source has written since its last sweep (R348). -/
def StackRec.beginSweep (r : StackRec) : StackRec :=
  { r with sweeping := true, toSweep := (r.toSweep ++ r.written).eraseDups, written := [] }

/-- What the job's reductions have on their way and in their entries is discarded (log entry 224). -/
def Mesh.dropReductions (m : Mesh) : Mesh :=
  { m with flits := tfilter (fun _ f => f.kind != 1) m.flits, partials := [] }

/-- Base dies discard every stream and SAE command of the job (R302), and their claims with them. -/
def State.discardStreams (s : State) : State :=
  { s with plos := { s.plos with
      streams := [], saes := [], notices := []
      rec_ := tmap (fun _ r => { r with ifWin := [], intWin := [], chanWin := [], landed := [] }) s.plos.rec_ } }

/-- The request that a stack's part of a snapshot makes of its base die's unit (R428, R353). -/
def SnapNow.req (n : SnapNow) (stack : Nat) : CvuReq := { node := nodeOfStack stack, rseq := n.rseq, mode := 1, alg := true, expect := none }

/-- What a snapshot has read of a stack, in ascending address order (R354). -/
def SnapNow.part (n : SnapNow) (placed : Bool) (stack : Nat) : List (BitVec 8) :=
  (n.data.filter fun g => (stackAddr placed g.addr).1 == stack).flatMap fun g => g.bytes

/-- A snapshot in progress reads no more, and its streams end where they are (R429, R355). -/
def State.cutSnapshot (s : State) : State :=
  match s.nvm.snapNow with
  | none => s
  | some n =>
    let s1 := (List.range 16).foldl (fun s k => s.modCvu (8 + k) fun c => c.abandon (n.req k) (n.part s.plos.placed k)) s
    { s1 with plos := s1.plos.dropAsker fun a => match a with
        | .snapshot _ => true
        | _ => false }

/-- Pages of some objects are released; a stripe with no data page left is free (R429). -/
def Nvm.releasePages (n : Nvm) (gone : Codeword → Bool) : Nvm :=
  { n with stripes := (n.stripes.map fun e => (e.1, { e.2 with pages := e.2.pages.filter fun p => !p.2.any gone })).filter fun e =>
      !e.2.pages.isEmpty }

/-- The pages whose commit record never came are released: of deltas, and of a snapshot (R425, R429). -/
def Nvm.dropWaiting (n : Nvm) : Nvm := n.releasePages fun c => c.seq.isNone

/-- A snapshot in progress is abandoned (R429), and recording stops. -/
def Nvm.stopRecording (n : Nvm) : Nvm :=
  { n.releasePages fun c => c.kind == 2 && c.seq.isNone with
    snapNow := none, snapAsked := false
    mode := match n.mode with
      | .recording => .idle
      | .snapshot => .idle
      | .restoring => .idle
      | m => m }

/-- A set of dies that waits for its fit test is bound at once when no program is left to fit (R62 RESULT 0x5); a record that the test's end
owes is committed. -/
def State.bindMoving (s : State) (result : Nat) : State :=
  if s.panel.moving.isEmpty then
    if s.panel.commitDue then (s.modPanel fun p => { p with commitDue := false }).commitRecord else s
  else
    let ms := s.panel.moving
    let s1 := ms.foldl State.applyMove s
    (s1.modPanel fun p => { p with moving := [], commitDue := false, relay := relayOf result ms p.relay }).commitRecord

/-- The job ends with a code: its START shows SWEEP (an aborted one keeps its PHASE), the sweeps of R342 and R348 begin, and what its chapters discard at its
end is discarded (R302, R329, R341, R355, R394, R429, R93). The first end stays. -/
def State.finishJob (s : State) (code : Nat) (cause : SweepCause) : State :=
  if !s.job.live then s
  else
    let s0 := s.bindMoving 5
    let s1 := s0.servedSites.foldl (fun s x => s.sweepSite cause true x) s0
    let s2 := (s1.discardStreams.dropRdma fun _ => true).cutSnapshot
    let s3 : State := { s2 with
      ctx := [], ctxDue := []
      win := { s2.win with wadi := [], wadiWas := [], cvu := tmap (fun _ c => c.abandonJob) s2.win.cvu }
      zfp := { s2.zfp with red := [] }
      nvm := s2.nvm.stopRecording
      panel := { s2.panel with moves := [] }
      plos := { s2.plos with rec_ := tfill {} (fun _ r => r.beginSweep) 0 16 s2.plos.rec_ }
      mesh := { s2.mesh.dropReductions with windows := [] }
      job := { s2.job with phase := .sweep, running := false, endCode := some code, cause := cause, resumeAt := none } }
    if cause = .abort then s3 else s3.modStatus s.job.queue s.job.slot fun w => { w with phase := 6 }

/-- A cause of another chapter ends the job (R464). -/
def State.endJob (s : State) (code : Nat) : State := s.finishJob code .jobEnd

/-- Dies whose last sweep failed, among those that the end swept. -/
def State.failedDies (s : State) : Nat := (s.win.sweep.filter fun e => e.2.panel && e.2.st == 3).length

/-- Whether every scratchpad sweep that the end triggered is complete. -/
def State.allSwept (s : State) : Bool := s.win.sweep.all fun e => !e.2.panel || e.2.left.isEmpty

/-- The sweep cause as DIE_SWEEP codes it. -/
def causeCode : SweepCause → Nat
  | .none_ => 0
  | .jobEnd => 1
  | .abort => 2
  | .fence => 3
  | .compute => 4
  | .back => 5

/-- EV_SWEEP_DONE (R345). -/
def State.sweepEvent (s : State) (unit : Nat) (cause : SweepCause) (failed : Nat) : State :=
  s.raise 0x0503 panelNode unit [(1, causeCode cause), (1, failed)]

/-- The ABORTs that end with a job reach DONE (R467). -/
def State.endAborts (s : State) : List (Nat × Nat) → State
  | [] => s
  | (q, i) :: r => (s.finishCmd q i 0).endAborts r

/-- The job's terminal state is written once its sweeps are complete (R345, R464, R467), and the panel takes the next one.
A member whose job was aborted sends LEAVE with cause job end (R502). -/
def State.reportEnd (s : State) : State :=
  match s.job.endCode with
  | none => s
  | some code =>
    if s.job.phase != .sweep || !s.allSwept then s
    else
      let s0 := s.sweepEvent noUnit s.job.cause s.failedDies
      let s1 := { s0 with win := { s0.win with sweep := tmap (fun _ d => { d with panel := false }) s0.win.sweep } }
      let s2 :=
        if s.job.cause = .abort then (s1.endCmd s.job.queue s.job.slot .aborted 0x0CB).endAborts s.job.aborts
        else (s1.finishCmd s.job.queue s.job.slot code).endAborts s.job.aborts
      let s3 := s2.modPanel fun p => { p with
        mode := if p.mode = .running ∨ p.mode = .relay then .ready else p.mode
        die := tmap (fun _ d => if d = .running then .ready else d) p.die }
      let s4 : State := { s3 with job := { s3.job with
        phase := .none_, endCode := none, aborts := [], image := [], left := [], marks := [], closing := [] } }
      if s.job.cause = .abort ∧ s.cons.mode = .member then s4.tellCoord 7 6 0 [s.cons.rank] else s4

/-! ### Going on from the last step record (R100, R503, R504) -/

/-- A core of the job stops where it is: one that runs or is held becomes IDLE. -/
def CoreRec.halt (c : CoreRec) : CoreRec :=
  if c.stat.valid then
    { c with stat := { c.stat with run := if c.stat.run == .running || c.stat.run == .held then .idle else c.stat.run }
             ctl := {}, pipe := c.pipe.refusals }
  else c

/-- Abandon the barchan move of a row (R93): the logical column stays on its source core. A resting core that has received data of the
job is swept (R92). -/
def State.dropMove (s : State) (site row : Nat) : State :=
  match tfind s.panel.moves (8 * site + row) with
  | none => s
  | some m =>
    let dst := pcoreAt site row m.rest
    let s1 := (s.modPanel fun p => { p with moves := tdel p.moves (8 * site + row) }).modStat (pcoreAt site row m.src) fun c =>
      { c with mirror := false }
    match (s1.core dst).stat.run with
    | .receiving => s1.sweepCore dst
    | .selfcheck => s1.modStat dst fun c => { c with run := .resting }
    | _ => s1

/-- Rebind the running program to the present generation, with no re-lay (R48, R56). -/
def State.rebindJob (s : State) : State :=
  let g := s.panel.mapGen.toNat
  if s.job.live && s.job.phase != .loading then
    { s with
      job := { s.job with hdr := { s.job.hdr with mapGen := g } }
      clock := if s.job.running then { s.clock with hdr := { s.clock.hdr with mapGen := g } } else s.clock }
  else s

/-- Unbound dies take what has entered the spare pool, in a record of its own (R655, R60). -/
def State.rebindLate (s : State) : State :=
  if s.panel.away.isEmpty ∨ s.spares.isEmpty then s else ((s.rebind []).commitRecord.rebindJob).shortOver

/-- The job's program stops: its cores halt, and its streams, contexts, wadis, remote DMAs and barchan moves are dropped. -/
def State.haltJob (s : State) : State :=
  let s1 := (s.panel.moves.foldl (fun s e => s.dropMove (e.1 / 8) (e.1 % 8)) s).discardStreams.dropRdma fun _ => true
  { s1 with
    cores := tmap (fun _ c => c.halt) s1.cores
    ctx := [], ctxDue := []
    win := { s1.win with wadi := [], wadiWas := [] }
    mesh := { s1.mesh.dropReductions with flits := tfilter (fun _ f => f.kind != 1 && !s1.inSendBuffer f) s1.mesh.flits } }

/-- A loss calls for a resume: a member sends REWIND (R502); a device alone goes back to its last committed step (R504), its
cores stopped and its streams discarded; with no committed step the job ends with the fault's code. -/
def State.resumeJob (s : State) (code : Nat) : State :=
  if !s.job.running || s.job.phase == .relay then s
  else if s.cons.mode = .member then s.tellCoord 8 2 s.cons.groupStep [s.cons.rank]
  else if s.job.spec.record && s.nvm.valid && decide (0 < s.cons.committed) then
    let s1 := s.haltJob.cutSnapshot
    ({ s1 with
      nvm := { s1.nvm.stopRecording with mode := if s1.nvm.mode = StoreMode.broken then StoreMode.broken else StoreMode.restoring }
      job := { s1.job with phase := .restoring, running := false, resumeAt := some s.cons.committed } }).modStatus
        s.job.queue s.job.slot fun w => { w with phase := 2 }
  else s.endJob code

end Sys2Proof.Machine
end

