-- ==== Sys2Proof/Machine/StackOps.lean ====
section
/-! DEFINITION. Stack memory (08): addresses (R286), regions and spares (R317 to R320), ECC and poison (R303, R304), accepted
writes with what follows from them (R294, R348, R421, R489), and unscheduled access (R306, R349). -/

namespace Sys2Proof.Machine

open Sys2Proof

/-! ### Addresses (R286) -/

/-- Length of the stack range (R290). -/
def stackRange : Nat := 0x18000000000

/-- The device-local address of a stack-local offset. -/
def deviceAddr (placed : Bool) (n off : Nat) : Nat :=
  if placed then n * 0x1800000000 + off else off / 4096 * 65536 + n * 4096 + off % 4096

/-! ### Regions -/

/-- Size of a region. -/
def regionSize : Nat := 0x10000000

/-- The spare that serves a region, when one does (R318, R319): one that has itself failed serves until its successor does. -/
def StackRec.spareFor (r : StackRec) (region : Nat) : Option Nat :=
  (r.spares.find? fun e => e.2.used && e.2.region == region &&
    r.copying != some e.1).map (·.1)

/-- The physical region that serves a region: itself, or 384 + spare. -/
def StackRec.physRegion (r : StackRec) (region : Nat) : Nat :=
  match r.spareFor region with
  | some sp => 384 + sp
  | none => region

/-- A physical region's key base. -/
def regionKey (n phys : Nat) : Nat := 2 ^ 37 * n + phys * regionSize

/-- Key of a stack byte. -/
def State.stKey (s : State) (n off : Nat) : Nat :=
  regionKey n ((s.stack n).physRegion (off / regionSize)) + off % regionSize

/-- Whether reads of a region return poison because it was retired with no spare (R320). -/
def StackRec.dead (r : StackRec) (off : Nat) : Bool := r.deadRegions.contains (off / regionSize)

/-- The lowest free spare (R317). -/
def StackRec.freeSpare (r : StackRec) : Option Nat :=
  (List.range 8).find? fun i => let x := tget {} r.spares i; !x.used && !x.retired

/-- Free spares (PLS_STATE.SPARES_FREE). -/
def StackRec.sparesFree (r : StackRec) : Nat :=
  ((List.range 8).filter fun i => let x := tget {} r.spares i; !x.used && !x.retired).length

/-- A copy of a region into the lowest free spare starts (R318 step 1); a retirement waits while another copy runs; with no
free spare the region's reads are poison, the stack is DEGRADED and the job ends (R320). -/
def State.startCopy (s : State) (n region : Nat) : State :=
  let r := s.stack n
  if r.copy.isSome then s.modStack n fun r => { r with retireQ := r.retireQ ++ [region] }
  else match r.freeSpare with
    | some i => s.modStack n fun r => { r with
        spares := tput r.spares i { used := true, retired := false, region := region }
        copying := some i
        copy := some ⟨i, region, false⟩ }
    | none => (s.modStack n fun r => { r with
        deadRegions := region :: r.deadRegions, mode := if r.mode = .lost then .lost else .degraded }).endJob 0x080

/-- Firmware retires a region (R317): a spare that served it is itself marked RETIRED, and serves on until the copy of what it holds ends
(R318). -/
def State.retireRegion (s : State) (n region : Nat) : State :=
  let r := s.stack n
  if r.deadRegions.contains region ∨ r.retireQ.contains region ∨ (r.copy.any fun c => c.region == region) then s
  else
    let s1 := match r.spareFor region with
      | some sp => s.modStack n fun r => { r with
          spares := tmod {} r.spares sp fun x => { x with retired := true } }
      | none => s
    s1.startCopy n region

/-- Firmware declares a stack lost (R321): its state, its number, the event, and the end of the job. A member's loss
removes it (R502). -/
def State.loseStack (s : State) (n : Nat) : State :=
  if (s.stack n).mode = .lost then s
  else
    let s1 := (((s.modStack n fun r => { r with mode := .lost }).raiseInc (nodeOfStack n)).raise 0x0404 (nodeOfStack n) n []).endJob
      0x081
    if s1.cons.mode = .member then s1.tellCoord 7 1 0 [s1.cons.rank] else s1

/-! ### ECC (R303) -/

/-- Count a corrected granule; the 4,096th of the region or of the spare that serves it retires it (R317, log entry 227). -/
def State.stackCorr (s : State) (n region : Nat) : State :=
  let r := s.stack n
  let b := bump 0x7FF r.corr r.eccOvf
  let phys := r.physRegion region
  let k := tget 0 r.regCorr phys + 1
  let s1 := (s.modStack n fun r => { r with corr := b.1, eccOvf := b.2.1, regCorr := tput r.regCorr phys k }).cntOvf b.2.2
    (stackWin n + 0x10) 20 (nodeOfStack n)
  if k = 4096 then s1.retireRegion n region else s1

/-- Count an uncorrectable granule: the second of the region or of the spare that serves it retires it (R317, log entry 227), and errors in 3 regions within one tick lose the
stack (R321). -/
def State.stackUncorr (s : State) (n region : Nat) : State :=
  let r := s.stack n
  let b := bump 0xFF r.uncorr r.eccOvf
  let phys := r.physRegion region
  let k := tget 0 r.regUncorr phys + 1
  let bad := (region :: r.badThisTick).eraseDups
  let s1 := (s.modStack n fun r => { r with
      uncorr := b.1, eccOvf := b.2.1, lastRegion := region, regUncorr := tput r.regUncorr phys k, badThisTick := bad }).cntOvf
    b.2.2 (stackWin n + 0x10) 12 (nodeOfStack n)
  let s2 := if k = 2 then s1.retireRegion n region else s1
  if 3 ≤ bad.length then s2.loseStack n else s2

/-- Poison bits of 8 consecutive words from word key `w`. -/
def poisonAt (t : Tab Bool) (w : Nat) : BitVec 8 :=
  BitVec.ofNat 8 ((List.range 8).foldl (fun acc i => acc + b2n (tget false t (w + i)) * 2 ^ i) 0)

/-- Set the poison bits of 8 consecutive words. -/
def putPoison (t : Tab Bool) (w : Nat) (p : BitVec 8) : Tab Bool :=
  (List.range 8).foldl (fun t i => mset false t (w + i) (p.getLsbD i)) t

/-- Change the stacks. -/
def State.modStacks (s : State) (f : Stacks → Stacks) : State := { s with plos := f s.plos }

/-- A granule as stored. -/
def State.granuleAt (s : State) (n off : Nat) : List (BitVec 8) × BitVec 8 :=
  let k := s.stKey n (off / 64 * 64)
  (Memory.readBytes s.plos.mem k 64, if (s.stack n).dead off then 0xFF#8 else poisonAt s.plos.poison (k / 8))

/-- Find the error that a granule's check bits show, when it is read (R303): one symbol is corrected and counted; two are
uncorrectable: the granule is stored as poison and counted once. -/
def State.checkGranule (s : State) (n off : Nat) : State :=
  let k := s.stKey n (off / 64 * 64)
  if (s.stack n).dead off then s
  else match tget 0 s.plos.flips (k / 64) with
    | 0 => s
    | 1 => s.stackCorr n (off / regionSize)
    | _ => (s.modStacks fun t => { t with
        flips := mset 0 t.flips (k / 64) 0, poison := putPoison t.poison (k / 8) 0xFF#8 }).stackUncorr n (off / regionSize)

/-- Read a granule (R303, R304). -/
def State.readGranule (s : State) (n off : Nat) : State × List (BitVec 8) × BitVec 8 :=
  let before := s.granuleAt n off
  let s1 := s.checkGranule n off
  let bad := !(s.stack n).dead off && decide (2 ≤ tget 0 s.plos.flips (s.stKey n (off / 64 * 64) / 64))
  (s1, before.1, if bad then 0xFF#8 else before.2)

/-! ### Accepted writes -/

/-- Whether a device-local address lies in the record set (R419). -/
def inRecSet (exts : List (Nat × Nat)) (a : Nat) : Bool := exts.any fun e => decide (e.1 ≤ a) && decide (a < e.1 + e.2)

/-- The step that a write accepted now belongs to (R420). -/
def State.openStep (s : State) : Nat := s.job.closed + 1

/-- A stack's staging ring. -/
def State.ring (s : State) (n : Nat) : RingRec := tget {} s.nvm.rings n

/-- Change the store. -/
def State.modNvm (s : State) (f : Nvm → Nvm) : State := { s with nvm := f s.nvm }

/-- Granules that a staging ring holds (R422). -/
def ringSize : Nat := 16777216

/-- Copy an accepted write into the staging ring (R421); a full ring breaks the step's delta (R422). -/
def State.stage (s : State) (n addr : Nat) (bytes : List (BitVec 8)) (poison : BitVec 8) : State :=
  let r := s.ring n
  let step := s.openStep
  if r.stop = some step then s
  else if r.q.length < ringSize then
    s.modNvm fun v => { v with rings := tput v.rings n { r with q := r.q ++ [⟨addr, step, bytes, poison⟩] } }
  else
    (s.modNvm fun v => { v with
      rings := tput v.rings n { r with stop := some step }
      broken := if v.broken.contains step then v.broken else step :: v.broken
      snapAsked := true }).raise 0x0703 (nodeOfStack n) n []

/-- Store bytes at a key: a whole granule takes its poison bits and new check bits, a part leaves both (R303, R306). -/
def State.putStack (s : State) (k : Nat) (bytes : List (BitVec 8)) (poison : BitVec 8) : State :=
  s.modStacks fun t =>
    if bytes.length = 64 then
      { t with mem := Memory.writeBytes t.mem k bytes, poison := putPoison t.poison (k / 8) poison,
               flips := mset 0 t.flips (k / 64) 0 }
    else { t with mem := Memory.writeBytes t.mem k bytes }

/-- A region is one that a later sweep covers (R348). -/
def State.noteWritten (s : State) (n phys : Nat) : State :=
  s.modStack n fun r => { r with written := if r.written.contains phys then r.written else phys :: r.written }

/-- The job's mark granule (R489). -/
def Job.markAt (j : Job) : Option Nat := if j.running && j.spec.record then j.spec.recSet.head?.map (·.1) else none

/-- Whether `x` writes kept for R294 still matter at cycle `now`. -/
def Recent.live (r : Recent) (now : Nat) : Bool := decide (now < r.at_ + 3072)

/-- A base die accepts a write within one granule, from any source (R294, R303, R306): a part of a granule is a
read-modify-write; a region under copy takes it twice (R318); a dead one drops it (R320). Recording follows (R421),
and a write of the mark's bytes 0 to 7 is noted for the panel steward (R489). -/
def State.acceptWrite (s : State) (n off : Nat) (bytes : List (BitVec 8)) (poison : BitVec 8) : State :=
  if (s.stack n).dead off then s
  else
    let s0 := if bytes.length = 64 then s else s.checkGranule n off
    let gran := off / 64 * 64
    let old := s0.granuleAt n gran
    let region := off / regionSize
    let k := s0.stKey n off
    let r := s0.stack n
    let s1 := (s0.putStack k bytes poison).noteWritten n (r.physRegion region)
    let s2 := match r.copy with
      | some c => if c.region = region ∧ r.copying = some c.spare then
          (s1.putStack (regionKey n (384 + c.spare) + off % regionSize) bytes poison).noteWritten n (384 + c.spare)
        else s1
      | none => s1
    let s3 := s2.modStacks fun t => { t with
      recent := (t.recent.filter fun x => x.live s2.clock.now) ++ [⟨s0.stKey n gran, s2.clock.now, old.1, old.2⟩] }
    let addr := deviceAddr s3.plos.placed n gran
    let new := s3.granuleAt n gran
    let s4 := if s3.job.running && s3.job.spec.record && inRecSet s3.job.spec.recSet addr then s3.stage n addr new.1 new.2 else s3
    if s4.job.markAt = some addr ∧ off = gran ∧ 8 ≤ bytes.length then
      { s4 with job := { s4.job with marks := s4.job.marks ++ [(leNat (bytes.take 8), s4.clock.tick.toNat)] } }
    else s4

/-- Write `n` granules' worth of bytes from an offset on: the first part up to the granule's end, then whole granules. -/
def State.acceptBytes (s : State) (st off : Nat) (bytes : List (BitVec 8)) (poison : List Bool) : Nat → State
  | 0 => s
  | n + 1 =>
    if bytes.isEmpty then s
    else
      let m := min bytes.length (64 - off % 64)
      let p := BitVec.ofNat 8 ((List.range 8).foldl (fun acc i => acc + b2n (poison.getD i false) * 2 ^ i) 0)
      (s.acceptWrite st off (bytes.take m) p).acceptBytes st (off + m) (bytes.drop m) (poison.drop 8) n

/-- Read bytes of one 4 KiB block: the bytes, and the poison of each 8-byte word they touch. -/
def State.readBytesAt (s : State) (st off len : Nat) : Nat → State × List (BitVec 8) × List Bool
  | 0 => (s, [], [])
  | n + 1 =>
    if len = 0 then (s, [], [])
    else
      let m := min len (64 - off % 64)
      let q := s.readGranule st off
      let r := q.1.readBytesAt st (off + m) (len - m) n
      let ws := (List.range ((off % 64 + m + 7) / 8 - off % 64 / 8)).map fun i => q.2.2.getLsbD (off % 64 / 8 + i)
      (r.1, (q.2.1.drop (off % 64)).take m ++ r.2.1, ws ++ r.2.2)

/-- A granule's contents at a contract cycle `c` (R294): nothing of a write accepted at or after it, everything accepted 1,536
cycles before, and in between the old granule or the new one, as the free value says. -/
def State.contractGranule (s : State) (n off c : Nat) (old : Bool) : State × List (BitVec 8) × BitVec 8 :=
  let es := s.plos.recent.filter fun x => x.key == s.stKey n (off / 64 * 64)
  let q := s.readGranule n off
  let base := match es.find? fun x => decide (c ≤ x.at_) with
    | some x => (x.old, x.poison)
    | none => q.2
  match es.find? fun x => old && decide (c < x.at_ + 1536) with
  | some x => (q.1, x.old, x.poison)
  | none => (q.1, base)

/-! ### Unscheduled access (R306, R349) -/

/-- What a request that has been served in full answers: who asked, its code, and the bytes and poison read. -/
structure Served where
  asker : Asker
  code : Nat
  bytes : List (BitVec 8)
  poison : List Bool
  deriving DecidableEq, Repr

/-- Queue the parts of a request, one for each 4 KiB block it touches. -/
def State.askParts (s : State) (cls g addr len part : Nat) (data : Option (List (BitVec 8) × List Bool)) : Nat → State
  | 0 => s
  | n + 1 =>
    if len = 0 then s
    else
      let m := min len (4096 - addr % 4096)
      let q := stackAddr s.plos.placed addr
      let acc : StackAccess :=
        { stack := q.1 % 16, cls := cls, addr := addr, off := q.2, len := m
          data := data.map fun d => (d.1.take m, d.2.take (m / 8)), gather := g, part := part }
      let s1 := s.modStacks fun t => { t with
        accesses := tput t.accesses t.nextId acc, nextId := t.nextId + 1
        gathers := tmod ⟨.steward, 0, [], 0⟩ t.gathers g fun x => { x with left := x.left + 1 } }
      s1.askParts cls g (addr + m) (len - m) (part + 1) (data.map fun d => (d.1.drop m, d.2.drop (m / 8))) n

/-- Ask for an unscheduled access of `len` bytes at a device-local stack address; `data` is none for a read. -/
def State.askStack (s : State) (asker : Asker) (cls addr len : Nat) (data : Option (List (BitVec 8) × List Bool)) : State :=
  let g := s.plos.nextId
  let s1 := s.modStacks fun t => { t with gathers := tput t.gathers g ⟨asker, 0, [], 0⟩, nextId := g + 1 }
  s1.askParts cls g addr len 0 data (len / 4096 + 2)

/-- Sweep one physical region: zeros with valid ECC (R348). -/
def State.sweepRegion (s : State) (n phys : Nat) : State :=
  let lo := regionKey n phys
  let hi := lo + regionSize
  (s.modStacks fun t => { t with
    mem := Memory.clear t.mem lo hi
    poison := tfilter (fun k _ => decide (k < lo / 8) || decide (hi / 8 ≤ k)) t.poison
    flips := tfilter (fun k _ => decide (k < lo / 64) || decide (hi / 64 ≤ k)) t.flips
    recent := t.recent.filter fun x => decide (x.key < lo) || decide (hi ≤ x.key) }).modStack n fun r =>
      { r with toSweep := r.toSweep.filter (· ≠ phys) }

/-- One part is served: its bytes go to its gathering, which answers once its last part is in. -/
def State.partServed (s : State) (a : StackAccess) (code : Nat) (bytes : List (BitVec 8)) (poison : List Bool) :
    State × Option Served :=
  match tfind s.plos.gathers a.gather with
  | none => (s, none)
  | some g =>
    let g1 := { g with
      left := g.left - 1, parts := tput g.parts a.part (bytes, poison), code := if g.code = 0 then code else g.code }
    if g1.left = 0 then
      (s.modStacks fun t => { t with gathers := tdel t.gathers a.gather },
       some ⟨g1.asker, g1.code, g1.parts.flatMap fun e => e.2.1, g1.parts.flatMap fun e => e.2.2⟩)
    else (s.modStacks fun t => { t with gathers := tput t.gathers a.gather g1 }, none)

/-- The link of a host request. -/
def State.hostLinkOf (s : State) (a : StackAccess) : Option Nat :=
  match tfind s.plos.gathers a.gather with
  | some g => match g.asker with
    | .host link _ _ _ => some link
    | _ => none
  | none => none

/-- Whether a host read must wait for an earlier write of its link to a granule it touches (R440). -/
def State.behindWrite (s : State) (id : Nat) (a : StackAccess) : Bool :=
  a.data.isNone && (s.hostLinkOf a).isSome &&
  s.plos.accesses.any fun e => decide (e.1 < id) && e.2.data.isSome && s.hostLinkOf e.2 == s.hostLinkOf a &&
    e.2.stack == a.stack && decide (e.2.off / 64 ≤ (a.off + a.len - 1) / 64) && decide (a.off / 64 ≤ (e.2.off + e.2.len - 1) / 64)

/-- The access that a base die serves next (R306): the lowest class, and within it the oldest. -/
def State.nextAccess (s : State) (n : Nat) : Option (Nat × StackAccess) :=
  let of (c : Nat) := s.plos.accesses.find? fun e => e.2.stack == n && e.2.cls == c && !s.behindWrite e.1 e.2
  (of 1).orElse fun _ => (of 2).orElse fun _ => of 3

/-- The step of a partner's delta granules (R507); none for a write that goes to the stack itself, among them the first whole
copy, which names step 0. -/
def State.shadowStep (s : State) (a : StackAccess) : Option Nat :=
  match tfind s.plos.gathers a.gather with
  | some g => match g.asker with
    | .shadow _ step _ => if step = 0 then none else some step
    | _ => none
  | none => none

/-- Hold granules in the pair log (R507). -/
def State.logShadow (s : State) (addr step : Nat) (bytes : List (BitVec 8)) (poison : List Bool) : Nat → State
  | 0 => s
  | n + 1 =>
    if bytes.isEmpty then s
    else
      let p := BitVec.ofNat 8 ((List.range 8).foldl (fun acc i => acc + b2n (poison.getD i false) * 2 ^ i) 0)
      ({ s with cons := { s.cons with pairLog := s.cons.pairLog ++ [(⟨addr, step, bytes.take 64, p⟩ : Staged)] } }).logShadow (addr + 64) step
        (bytes.drop 64) (poison.drop 8) n

/-- Whether a stack's share of the pair log is full (R507): its granules are then not taken. -/
def State.logFull (s : State) (n : Nat) : Bool :=
  decide (ringSize ≤ (s.cons.pairLog.filter fun g => (stackAddr s.plos.placed g.addr).1 % 16 == n).length)

/-- Serve the next access of a base die (R306). A region not yet swept is swept first (R349); a lost stack answers
ST_STACK_LOST (R321). -/
def State.serveAccess (s : State) (n : Nat) : State × Option Served :=
  match s.nextAccess n with
  | none => (s, none)
  | some (id, a) =>
    let s1 := s.modStacks fun t => { t with accesses := tdel t.accesses id }
    if (s.shadowStep a).isSome && s.logFull n then (s, none)
    else if (s1.stack n).mode = .lost then s1.partServed a 0x081 [] []
    else
      let phys := (s1.stack n).physRegion (a.off / regionSize)
      let s2 := if (s1.stack n).toSweep.contains phys then s1.sweepRegion n phys else s1
      match a.data with
      | some d =>
        match s2.shadowStep a with
        | some step => (s2.logShadow a.addr step d.1 d.2 66).partServed a 0 [] []
        | none => (s2.acceptBytes n a.off d.1 d.2 66).partServed a 0 [] []
      | none =>
        let q := s2.readBytesAt n a.off a.len 66
        q.1.partServed a 0 q.2.1 q.2.2

/-! ### Schedule cycles (R225, R290, R291) -/

/-- The schedule cycle of a cycle of the tick: inserted cycles read D (R291). -/
def schedCycle (h : TickHdr) (ins cyc : Nat) : Nat :=
  if cyc < h.d then cyc else if cyc < h.d + ins then h.d else cyc - ins

/-- The absolute schedule cycle of the present cycle (08 Scheduled streams). -/
def State.absSched (s : State) : Nat :=
  s.clock.tick.toNat * s.clock.hdr.len + schedCycle s.clock.hdr s.clock.ins s.cycle

/-- The device cycle in which absolute schedule cycle `k` falls, as the ticks stand now. -/
def State.cycleOfSched (s : State) (k : Nat) : Nat :=
  let h := s.clock.hdr
  let tk := k / h.len
  let sc := k % h.len
  let cur := s.clock.tick.toNat
  if tk < cur then s.clock.start - (cur - tk) * h.len + sc
  else if tk = cur then s.clock.start + sc + (if h.d ≤ sc then s.clock.ins else 0)
  else s.clock.start + s.clock.ins + (tk - cur) * h.len + sc

/-! ### Attach points (R27, R28, R296, R299) -/

/-- Attach positions in service (R26, R249, R296): 13 at a site of a north or south stack, 8 at one of an east or west one. -/
def State.attachNow (s : State) (n : Nat) : Nat :=
  ((attachSites n).filter fun x => tget false s.panel.routerUp x).length * (if n < 4 ∨ (8 ≤ n ∧ n < 12) then 13 else 8)

/-- A change of N acts from the window after `w` on (R299). -/
def StackRec.reattach (r : StackRec) (n w : Nat) : StackRec :=
  if n = r.nAtt then r else { r with nAtt := n, nAttWas := r.nAtt, nAttFrom := w + 1 }

/-- Every stack's attach positions in service are counted anew (R27, R28, R296). -/
def State.attachAnew (s : State) : State :=
  s.each (fun s n => s.modStack n fun r => r.reattach (s.attachNow n) (s.absSched / 256)) (List.range 16)

end Sys2Proof.Machine
end

