-- ==== Sys2Proof/Machine/Route.lean ====
section
/-! DEFINITION. The ROUTE slot (R208 to R216): what an action checks, and the flits, contexts, wadis and remote DMA
it starts (R251, R254 to R256, R263, R276, R290, R307, R327, R336). -/

namespace Sys2Proof.Machine

open Sys2Proof

/-! ### Mesh bookkeeping -/

/-- A site's mesh registers. -/
def State.meshDie (s : State) (site : Nat) : MeshDie := tget {} s.mesh.die site

/-- Change a site's mesh registers. -/
def State.modDie (s : State) (site : Nat) (f : MeshDie → MeshDie) : State :=
  { s with mesh := { s.mesh with die := tmod {} s.mesh.die site f } }

/-- Count a lost flit in MESH_DROP.LOST (R262, R659). -/
def State.countLost (s : State) (site : Nat) : State :=
  let d := s.meshDie site
  let b := bump 0x7F d.lost d.dropOvf
  (s.modDie site fun d => { d with lost := b.1, dropOvf := b.2.1 }).cntOvf b.2.2 (dieWin site + 0x120) 24 (nodeAt site 0)

/-- Count an action refused by R256. -/
def State.countC0Refused (s : State) (site : Nat) : State :=
  let d := s.meshDie site
  let b := bump 0xFF d.c0Refused d.dropOvf
  (s.modDie site fun d => { d with c0Refused := b.1, dropOvf := b.2.1 }).cntOvf b.2.2 (dieWin site + 0x120) 0
    (nodeAt site 0)

/-- Put a flit on its way under the next flit number. -/
def State.addFlit (s : State) (f : Flit) : State :=
  { s with mesh := { s.mesh with flits := tput s.mesh.flits s.mesh.nextFlit f, nextFlit := s.mesh.nextFlit + 1 } }

/-- The route version that epoch `e` names (R265): the first of the pair when false. -/
def Mesh.version (m : Mesh) (e : Bool) : RouteVersion := if e then m.versions.2.2 else m.versions.2.1

/-- The epoch that a site's on-ramps stamp (R267, R268). -/
def State.epochAt (s : State) (site : Nat) : Bool := (s.meshDie site).active

/-- The part of `x` within a range. -/
def clampTo (lo hi x : Nat) : Nat := max lo (min hi x)

/-- The position at which traffic from position `src` meets stack `n`: the nearest along its facing edges (R249). -/
def stackPos (n src : Nat) : Nat :=
  let P := src % 156
  let Q := src / 156
  if n < 4 then posOf (clampTo (39 * n) (39 * n + 38) P) 0
  else if n < 8 then let k := n - 4; posOf 155 (clampTo (24 * k) (24 * k + 23) Q)
  else if n < 12 then let k := n - 8; posOf (clampTo (117 - 39 * k) (155 - 39 * k) P) 95
  else let k := n - 12; posOf 0 (clampTo (72 - 24 * k) (95 - 24 * k) Q)

/-- The position of a logical core as a route version binds it (R265, R267): what the version does not list is as the map has it, and a core of
an unbound die has none (R659). -/
def State.posOfCore (s : State) (v : RouteVersion) (l : Nat) : Option Nat :=
  if l < 12288 then
    (s.siteOfLd (lDie l)).map fun site =>
      posOfPcore (pcoreAt (tget site v.ldSite (lDie l)) (lRow l)
        (physCol (tget (s.restOf (lDie l) (lRow l)) v.rest (8 * lDie l + lRow l)) (lCol l)))
  else none

/-- The position of a node under a route version (R249, R254, R265), none for a reserved node or a logical core left unbound (R659). -/
def State.nodePos (s : State) (v : RouteVersion) (node src : Nat) : Option Nat :=
  if node < 0x3000 then s.posOfCore v node
  else if node < 0x3900 then
    let site := (node - 0x3000) / 16
    let u := (node - 0x3000) % 16
    if u < 8 then some (posOf (13 * siteX site + 6) (8 * siteY site + u)) else none
  else if 0x3C00 ≤ node ∧ node < 0x3C10 then some (stackPos (node - 0x3C00) src)
  else none

/-! ### Issue stamps (R290, R291) -/

/-- The issue stamp of R290 and R291 written over bytes 0x20 to 0x27 of a descriptor. -/
def State.stamp (s : State) (bs : List (BitVec 8)) : List (BitVec 8) :=
  bs.take 0x20 ++ leBytes 4 s.tick32 ++ leBytes 2 (schedCycle s.clock.hdr s.clock.ins s.cycle) ++ [0#8, 0#8] ++ bs.drop 0x28

/-! ### Wadis (R326 to R333) -/

/-- A wadi drop record of a logical core. -/
def State.wadiDrop (s : State) (l : Nat) : WadiDrop := tget {} s.win.drop l

/-- Change a logical core's wadi drop record. -/
def State.modDrop (s : State) (l : Nat) (f : WadiDrop → WadiDrop) : State :=
  { s with win := { s.win with drop := tmod {} s.win.drop l f } }

/-- What a wadi was before an action of the present cycle is kept: writes that arrive in that cycle still meet it (R212). -/
def State.wadiMark (s : State) (key : Nat) : State :=
  { s with win := { s.win with
      wadiWas := tput (tfilter (fun _ e => decide (s.clock.now ≤ e.1)) s.win.wadiWas) key (s.clock.now, tfind s.win.wadi key) } }

/-- The wadis as writes that arrive in the present cycle meet them (R212). -/
def State.wadisNow (s : State) : Tab WadiRec :=
  s.win.wadiWas.foldl (fun t e =>
    if s.clock.now ≤ e.2.1 then
      match e.2.2 with
      | some w => tput t e.1 w
      | none => tdel t e.1
    else t) s.win.wadi

/-- Close a wadi, for writes from the next cycle on (R212). -/
def State.closeWadi (s : State) (l w : Nat) : State :=
  let s1 := s.wadiMark (16 * l + w)
  { s1 with win := { s1.win with wadi := tdel s1.win.wadi (16 * l + w) } }

/-- The wadi descriptor of R327, none when it has a defect of R328. -/
def parseWadi (bs : List (BitVec 8)) (tick : Nat) : Option WadiRec :=
  let w : WadiRec :=
    { base := leField bs 0 2, size := leField bs 2 2, sources := leField bs 4 1, classes := leField bs 5 1,
      coreLo := leField bs 8 2, coreHi := leField bs 10 2, expiry := leField bs 16 8 }
  let local_ := bitOf w.sources 0
  if 1 ≤ w.size ∧ w.base ≤ 32767 ∧ w.size ≤ 32768 ∧ w.base + w.size ≤ 32768 ∧ w.sources ≠ 0 ∧ w.sources < 8 ∧
      w.classes ≠ 0 ∧ w.classes < 16 ∧ leField bs 6 2 = 0 ∧ leField bs 12 4 = 0 ∧ leField bs 24 8 = 0 ∧
      (if local_ then w.coreLo ≤ w.coreHi ∧ w.coreHi < 12288 else w.coreLo = 0 ∧ w.coreHi = 0) ∧
      (w.expiry = 0 ∨ tick < w.expiry) then some w
  else none

/-- WOPEN's effect (R327, R328): a valid descriptor opens or replaces the wadi, a defective one leaves it closed and
raises EV_WADI_BAD once per core and tick. -/
def State.openWadi (s : State) (p l w : Nat) (bs : List (BitVec 8)) : State :=
  match parseWadi bs s.clock.tick.toNat with
  | some d =>
    let s1 := s.wadiMark (16 * l + w)
    { s1 with win := { s1.win with wadi := tput s1.win.wadi (16 * l + w) d } }
  | none =>
    let s1 := s.closeWadi l w
    if (s.wadiDrop l).badTick then s1
    else (s1.modDrop l fun d => { d with badTick := true }).raise 0x0501 (nodeAt (pSite p) 0) l []

/-! ### Remote DMA (R336 to R341) -/

/-- A completion record (R340). -/
def recordBytes (seq code landed : Nat) : List (BitVec 8) := leBytes 2 landed ++ leBytes 2 (16 * code) ++ leBytes 4 seq

/-- A completion record asks for its bank in the issuing core's scratchpad from the present cycle on, at rank 7 (R340). -/
def State.doneRecord (s : State) (l off seq code landed : Nat) : State :=
  match s.pcoreOf l with
  | some p =>
    if off < spadSize ∧ off % 8 = 0 then
      s.modPipe p fun k => { k with lowBuf := k.lowBuf ++ [(s.clock.now, off, recordBytes seq code landed)] }
    else s
  | none => s

/-- Whether a remote DMA descriptor has a defect of R337; `dev` is this device's number. -/
def rdmaBad (bs : List (BitVec 8)) (dev : Nat) : Bool :=
  let kind := leField bs 1 1
  let cvu := leField bs 2 1
  let len := leField bs 4 4
  let src := leField bs 8 8
  let dest := leField bs 16 8
  let off := dest % 2 ^ 48
  let dn := dest / 2 ^ 48
  let done := leField bs 0x18 4
  decide (leField bs 0 1 ≠ 1) || decide (1 < kind) || decide (8 ≤ cvu) || decide (cvu % 4 = 3) ||
  decide (leField bs 3 1 ≠ 0) || decide (leField bs 0x20 32 ≠ 0) ||
  decide (len % 64 ≠ 0 ∨ len < 64 ∨ 2097152 < len) || decide (src % 64 ≠ 0) ||
  decide (done ≠ 0xFFFFFFFF ∧ (done % 8 ≠ 0 ∨ spadSize ≤ done)) ||
  decide ((if kind = 0 then spadSize else 0x18000000000) < src + len) ||
  decide (off < 0x400000000000 ∨ 0x400600000000 ≤ off) ||
  decide (off % spadSize + len > spadSize) || decide (dn = 65535) || decide (cvu ≠ 0 ∧ dn = dev)

/-- Whether a remote DMA descriptor names a control-space address (R216, R20): of its source in a stack, or of its destination on any
device (log entry 239). -/
def rdmaCtl (bs : List (BitVec 8)) : Bool :=
  (decide (leField bs 1 1 = 1) && inCtl (leField bs 8 8) (max 1 (leField bs 4 4))) ||
  inCtl (leField bs 16 8 % 2 ^ 48) (max 1 (leField bs 4 4))

/-- A free RDMA slot of a logical core (R338). -/
def State.freeRdma (s : State) (l : Nat) : Option Nat :=
  (List.range 4).find? fun i => (tfind s.win.rdma (4 * l + i)).isNone

/-- Read a scratchpad source for a remote DMA: its bytes and the poison of each word (R339, R340). -/
def State.readSource (s : State) (p off len : Nat) : State × List (BitVec 8) × List Bool :=
  let q := s.readWords p (off / 8) (len / 8)
  (q.1, q.2.flatMap (·.1), q.2.map (·.2))

/-- The poison bits of granule `i` among those of 8-byte words. -/
def granPoison (ws : List Bool) (i : Nat) : BitVec 8 :=
  BitVec.ofNat 8 ((List.range 8).foldl (fun acc j => acc + b2n (ws.getD (8 * i + j) false) * 2 ^ j) 0)

/-- Put granules on the mesh as KIND WADI flits, one cycle apart (R339). A flit's `tag` names the account it reports to. -/
def State.sendWadi (s : State) (src dest gran cls srcPos : Nat) (ep : Bool) (tag : Option Nat) (ready i : Nat) (bad : List Bool) :
    Nat → List (BitVec 8) → State
  | 0, _ => s
  | n + 1, bs =>
    let f : Flit :=
      { cls := cls, kind := 3, epoch := ep, idx := 0, last := n == 0, sched := false,
        poison := granPoison bad i, dest := dest, src := src, inc := inc8 (s.incOf src), delay := 0,
        arg := gran % 32768, laps := 0, bytes := bs.take 64, pos := .ramp srcPos ready, fromBuf := false, tag := tag }
    (s.addFlit f).sendWadi src dest (gran + 1) cls srcPos ep tag (ready + 1) (i + 1) bad n (bs.drop 64)

/-! ### Remote DMA on its way -/

/-- A remote DMA's key is 4 * lcore + slot. -/
def State.rdma (s : State) (key : Nat) : Option RdmaRec := tfind s.win.rdma key

/-- Change a busy RDMA slot. -/
def State.modRdma (s : State) (key : Nat) (f : RdmaRec → RdmaRec) : State :=
  match s.rdma key with
  | some r => { s with win := { s.win with rdma := tput s.win.rdma key (f r) } }
  | none => s

/-- The trailer granule (R352). -/
def trailerBytes (alg : Bool) (v : Nat) : List (BitVec 8) := leBytes 8 v ++ [if alg then 1#8 else 0#8] ++ List.replicate 55 0#8

/-- A remote DMA sets out: its granules cross the mesh to its gateway (R339, R387). -/
def State.startSend (s : State) (e : RdmaSend) : State :=
  match s.pcoreOf (e.key / 4) with
  | none => s
  | some p =>
    (s.modZfp fun z => { z with
      sends := z.sends.map fun x => if x.id = e.id then { x with going := true, bytes := [], poison := [] } else x }).sendWadi
      (e.key / 4) (portsNode e.gw) 0 e.cls (posOfPcore p) (s.epochAt (pSite p)) (some (2 ^ 40 + e.id)) (s.clock.now + 2) 0 e.poison e.granules
      e.bytes

/-- The gateway of the port that R371 chooses for a device (R387). -/
def State.gatewayFor (s : State) (p : Packet) : Nat :=
  match s.routeOf (s.zfp.circuit { p with srcDev := s.zfp.devNum, epoch := s.zfp.active }) 32 with
  | some (q, _) => q / 4
  | none => 0

/-- Free a slot; its completion record asks for its bank (R340). -/
def State.finishRdma (s : State) (key code : Nat) : State :=
  match s.rdma key with
  | none => s
  | some r =>
    { s with win := { s.win with rdma := tdel s.win.rdma key } }.doneRecord (key / 4) r.doneOff r.seq code
      (min 65535 r.landed)

/-- A remote DMA whose source has been read sets out as wadi flits (R339): to a core of this device, or to the gateway that leads to another. One whose
gateway's unit has not taken it waits (R353), and one that finds its queue full sends nothing (R340). -/
def State.rdmaGo (s : State) (key : Nat) (bytes : List (BitVec 8)) (ws : List Bool) : State :=
  match s.rdma key with
  | none => s
  | some r =>
    let l := key / 4
    let s1 := s.modRdma key fun x => { x with poison := ws.any id }
    if r.dest / 2 ^ 48 = s.zfp.devNum then
      let off := r.dest % 2 ^ 48 - 0x400000000000
      match s.pcoreOf l with
      | none => s1
      | some p =>
        s1.sendWadi l (off / spadSize) (off % spadSize / 64) r.cls (posOfPcore p) (s.epochAt (pSite p)) (some key)
          (s.clock.now + 2) 0 ws (bytes.length / 64) bytes
    else
      let u := s.gatewayFor { plainPacket 0 r.cls r.dest l r.seq [] with chan := r.seq % 16 }
      let e : RdmaSend :=
        { id := s.zfp.nextSend, key := key, cls := r.cls, dest := r.dest, gw := u, bytes := bytes, poison := ws, cvu := r.cvu, seq := r.seq
          going := false, granules := bytes.length / 64, got := [], sent := 0 }
      let s2 := s1.modZfp fun z => { z with sends := z.sends ++ [e], nextSend := e.id + 1 }
      if r.cvu % 4 = 0 then s2.startSend e
      else
        let q := s2.askCvu u e.req
        match q.2 with
        | 0 => q.1.startSend e
        | 1 => q.1
        | _ => (q.1.modZfp fun z => { z with sends := z.sends.filter fun x => x.id != e.id }).finishRdma key 0x098

/-- RDMA's effect (R336 to R339). -/
def State.postRdma (s : State) (p l cls t : Nat) (bs : List (BitVec 8)) : State :=
  let seq := leField bs 0x1C 4
  let done := leField bs 0x18 4
  let len := leField bs 4 4
  let src := leField bs 8 8
  if rdmaBad bs s.zfp.devNum then s.doneRecord l done seq 0x091 0
  else match s.freeRdma l with
    | none => s.doneRecord l done seq 0x092 0
    | some i =>
      let key := 4 * l + i
      let rec_ : RdmaRec :=
        { cls := cls, dest := leField bs 16 8, seq := seq, doneOff := done, granules := len / 64, landed := 0, dropped := 0,
          poison := false, mismatch := false, cvuBusy := false, cvu := leField bs 2 1, reported := false
          deadline := t + 2 ^ 25 }
      let s1 := { s with win := { s.win with rdma := tput s.win.rdma key rec_ } }
      if leField bs 1 1 = 0 then
        let q := s1.readSource p src len
        q.1.rdmaGo key q.2.1 q.2.2
      else s1.askStack (.rdma key) cls src len none

/-! ### Accounts (R340, R393) -/

/-- The inline data of a REPORT (R393). -/
def reportBytes (a : Incoming) : List (BitVec 8) :=
  leBytes 4 a.seq ++ leBytes 2 a.srcNode ++ leBytes 4 a.landed ++ leBytes 4 a.dropped ++
  [BitVec.ofNat 8 (b2n a.mismatch + 2 * b2n a.cvuBusy)]

/-- A gateway's account of a remote device's RDMA. -/
def State.incoming (s : State) (i : Nat) : Option Incoming := tfind s.zfp.incoming i

/-- Once every granule up to the LAST packet's is accounted for, the gateway returns its REPORT in the RDMA's class (R393);
a partner's step that has landed whole is answered with LOG (R507). -/
def State.settle (s : State) (i : Nat) : State :=
  match s.incoming i with
  | none => s
  | some a =>
    if a.last ∧ a.landed + a.dropped = a.sent then
      let s1 := (s.modZfp fun z => { z with incoming := tdel z.incoming i }).sendPacket
        { plainPacket 2 a.cls (a.srcDev * 2 ^ 48) (portsNode a.gw) a.seq (reportBytes a) with chan := a.chan }
      if a.shadow ∧ 0 < a.seq then
        { s1 with cons := { s1.cons with logGot := a.seq } }.sendState 0xA a.srcDev s1.cons.view 0 0 a.seq [s1.cons.rank]
      else s1
    else s

/-- Report one granule, landed or dropped, to the account that its flit names: a remote DMA of this device, or a gateway's. -/
def State.account (s : State) (tag : Option Nat) (landed : Bool) : State :=
  match tag with
  | none => s
  | some t =>
    if t < 2 ^ 20 then
      s.modRdma t fun r =>
        let r1 := if landed then { r with landed := r.landed + 1 } else { r with dropped := r.dropped + 1 }
        { r1 with reported := r1.reported || decide (r1.landed + r1.dropped = r1.granules) }
    else
      let i := t - 2 ^ 20
      match s.incoming i with
      | none => s
      | some a =>
        let b := if landed then { a with landed := a.landed + 1 } else { a with dropped := a.dropped + 1 }
        (s.modZfp fun z => { z with incoming := tput z.incoming i b }).settle i

/-! ### Row shift stages (R34, R38, R251) -/

/-- The rest position of the row beside a position. -/
def State.restAt (s : State) (x : Nat) : Nat :=
  match s.ldAt (siteOfPos x) with
  | some ld => s.restOf ld (x / 156 % 8)
  | none => 12

/-- The cycles of the row shift stage at a position, 0 or 1 as the rest position of its row has it (R38, R128). -/
def State.shiftAt (s : State) (x : Nat) : Nat := b2n (Config.shiftStage x (s.restAt x))

/-! ### The ROUTE slot's actions -/

/-- The lanes an action sends, from the first, and how many (R208). -/
def routeLanes (op : RouteOp) : Nat × Nat :=
  match op with
  | .sendv => (0, 64)
  | .sendq q => (16 * q.toNat, 16)
  | .sendw => (0, 1)
  | .wsendv => (0, 64)
  | .wsendq q => (16 * q.toNat, 16)
  | .redv => (0, 64)
  | .circv => (0, 64)
  | .strm => (0, 16)
  | .saecmd => (0, 16)
  | .wopen => (0, 8)
  | .rdma => (0, 16)
  | .nop => (0, 0)
  | .wclose => (0, 0)

/-- Whether an action is a message (R213). -/
def routeIsMsg (op : RouteOp) : Bool :=
  match op with
  | .nop => false
  | .wopen => false
  | .wclose => false
  | _ => true

/-- Whether an action of class C0 is refused by R256. -/
def routeNoC0 (op : RouteOp) : Bool :=
  match op with
  | .sendv => true
  | .wsendv => true
  | .redv => true
  | .circv => true
  | .strm => true
  | .saecmd => true
  | .rdma => true
  | _ => false

/-- Whether an action is an unscheduled write (R211). -/
def routeUnsched (op : RouteOp) : Bool :=
  match op with
  | .wsendv => true
  | .wsendq _ => true
  | _ => false

/-- The bytes an action sends, and whether one of their lanes is poison. -/
def routeBytes (r : CoreRegs) (k : Slots) : List (BitVec 8) × Bool :=
  let q := routeLanes k.route
  let ls := r.lanesOf k.rreg q.1 q.2
  (ls.flatMap laneBytes, ls.any (·.poison))

/-- The faults of a ROUTE action whose guard lets it act (R216). Of a stream's granules the first one's address alone is held against the control
space (log entry 238). -/
def routeCauses (r : CoreRegs) (k : Slots) : List Cause :=
  if !r.guard0 k.routeG then []
  else
    let b := routeBytes r k
    (if b.2 then [⟨6, ST_CORE_POISON, none⟩] else []) ++
    (match k.route with
     | .strm => if inCtl (leField b.1 8 8) 64 then [⟨6, ST_CORE_CTRL_SPACE, none⟩] else []
     | .rdma => if rdmaCtl b.1 then [⟨6, ST_CORE_CTRL_SPACE, none⟩] else []
     | _ => [])

/-- Put the flits of one message on the mesh, flit `i` of `n`, one cycle apart (R251, R253, R261). A send to the core
itself turns back at its position and lands from issue + 4 (R656). ARG of a circuit flit is the circuit's number (R253). -/
def State.sendFlits (s : State) (p l dest cls kind arg doff t : Nat) (sched fromBuf : Bool) : Nat → Nat → List (BitVec 8) → State
  | 0, _, _ => s
  | n + 1, i, bs =>
    let posn := posOfPcore p
    let shift := s.shiftAt posn
    let f : Flit :=
      { cls := cls, kind := kind, epoch := s.epochAt (pSite p), idx := i, last := n == 0, sched := sched, poison := 0#8,
        dest := dest, src := l, inc := inc8 (s.incOf l),
        delay := if sched then min 1023 (s.core p).ctl.stallSum else 0, arg := arg, laps := 0, bytes := bs.take 64,
        pos := if dest = l then .land posn (t + 4 + i) .local else .ramp posn (t + 2 + shift + i),
        fromBuf := fromBuf, tag := none, doff := doff }
    (s.addFlit f).sendFlits p l dest cls kind arg doff t sched fromBuf n (i + 1) (bs.drop 64)

/-- The tag entry of a route version at a position (R275). -/
def tagEntryAt (v : RouteVersion) (pos tag : Nat) : Option TagEntry := tfind v.tags (16384 * pos + tag)

/-- Whether an entry waits for an input (R275). -/
def expects (e : TagEntry) (d : Dir) : Bool :=
  match d with
  | .local => e.expLocal
  | .north => e.expNorth
  | .east => e.expEast
  | .south => e.expSouth
  | .west => e.expWest

/-- A reduction fault (R278): the job ends, the die counts it, and the event carries tag, position and kind. -/
def State.redFault (s : State) (pos tag kind : Nat) : State :=
  let site := siteOfPos pos
  let d := s.meshDie site
  let b := bump 0xFF d.redFaults d.redOvf
  (((s.modDie site fun d => { d with redFaults := b.1, redOvf := b.2.1 }).cntOvf b.2.2 (dieWin site + 0x130) 8
    (nodeAt site 0)).raise 0x0306 (nodeAt site 0) site [(2, tag), (2, pos), (1, kind)]).endJob 0x072

/-- A REDV contribution reaches the entry at the sender's own position: flit k in cycle issue + 2 + k (R276). -/
def State.sendRed (s : State) (p l tag cls t : Nat) : Nat → Nat → List (BitVec 8) → State
  | 0, _, _ => s
  | n + 1, i, bs =>
    let f : Flit :=
      { cls := cls, kind := 1, epoch := s.epochAt (pSite p), idx := i, last := n == 0, sched := true, poison := 0#8,
        dest := 0, src := l, inc := inc8 (s.incOf l), delay := min 1023 (s.core p).ctl.stallSum, arg := tag, laps := 0,
        bytes := bs.take 64, pos := .entry (posOfPcore p) (t + 2 + i) .local, fromBuf := false, tag := none }
    (s.addFlit f).sendRed p l tag cls t n (i + 1) (bs.drop 64)

/-- A descriptor or command sets out for the base dies named (R290, R295, R307): `arg` is the stream's context, or 8 for an
SAE command. -/
def State.sendMem (s : State) (p l cls t arg : Nat) (bs : List (BitVec 8)) : List Nat → State
  | [] => s
  | n :: ns =>
    let shift := s.shiftAt (posOfPcore p)
    let f : Flit :=
      { cls := cls, kind := 4, epoch := s.epochAt (pSite p), idx := 0, last := true, sched := false, poison := 0#8,
        dest := nodeOfStack n, src := l, inc := inc8 (s.incOf l), delay := 0, arg := arg, laps := 0, bytes := bs,
        pos := .ramp (posOfPcore p) (t + 2 + shift), fromBuf := false, tag := none }
    (s.addFlit f).sendMem p l cls t arg bs ns

/-- An unscheduled write takes an entry of the core's send buffer (R211); one to the core itself turns back without waiting
(R656). -/
def State.enterBuffer (s : State) (p l dest : Nat) : State :=
  if l = dest then s else s.modPipe p fun c => { c with sendBuf := c.sendBuf + 1 }

/-- The effect of a message that R214 and R256 let out (R208 to R211, R272, R276, R290, R307). A stream on a context in ERROR makes it ACTIVE
anew, and what an earlier stream still delivers counts there too (log entry 242). -/
def State.routeSend (s : State) (p l t : Nat) (k : Slots) (bs : List (BitVec 8)) : State :=
  let cls := k.cls.toNat
  let tg := k.target.toNat
  match k.route with
  | .sendv => s.sendFlits p l tg cls 0 k.doff.toNat 0 t true false 4 0 bs
  | .sendq _ => s.sendFlits p l tg cls 0 k.doff.toNat 0 t true false 1 0 bs
  | .sendw => s.sendFlits p l tg cls 0 k.doff.toNat 0 t true false 1 0 bs
  | .wsendv => (s.enterBuffer p l tg).sendFlits p l tg cls 3 k.doff.toNat 0 t false (l != tg) 4 0 bs
  | .wsendq _ => (s.enterBuffer p l tg).sendFlits p l tg cls 3 k.doff.toNat 0 t false (l != tg) 1 0 bs
  | .redv =>
    match tagEntryAt (s.mesh.version (s.epochAt (pSite p))) (posOfPcore p) tg with
    | some e => if e.expLocal then s.sendRed p l tg cls t 4 0 bs else s.redFault (posOfPcore p) tg 1
    | none => s.redFault (posOfPcore p) tg 1
  | .circv =>
    match tfind (s.mesh.version (s.epochAt (pSite p))).circuits tg with
    | some c =>
      if c.src = l ∧ s.mesh.windows.contains tg ∧ c.start ≤ s.cycle ∧ s.cycle < c.start + c.len then
        s.sendFlits p l c.dest cls 2 tg k.doff.toNat t true false 4 0 bs
      else s.raise 0x0305 (nodeAt (pSite p) 0) l []
    | none => s.raise 0x0305 (nodeAt (pSite p) 0) l []
  | .strm =>
    let key := ctxKey l tg
    if (s.getCtx key).st = .active then s.modCtx key fun c => { c with st := .error }
    else
      let b := s.stamp bs
      let dies := if s.plos.placed then [(stackAddr true (leField bs 8 8)).1 % 16] else List.range 16
      (s.modCtx key fun _ => { st := .active, count := 0, total := leField bs 4 4 }).sendMem p l cls t tg b dies
  | .saecmd =>
    let key := ctxKey l (leField bs 1 1 % 8)
    if (s.getCtx key).st = .active then s.modCtx key fun c => { c with st := .error }
    else (s.modCtx key fun _ => { st := .active, count := 0 }).sendMem p l cls t 8 (s.stamp bs) [tg]
  | .rdma => s.postRdma p l cls t bs
  | _ => s

/-- A ROUTE action in its issue cycle `t`, with no fault: R256's refusal, R214's, then its effect. An action that both refuse is R256's alone (log
entry 236). -/
def State.routeAct (s : State) (p t : Nat) (k : Slots) : State :=
  let c := s.core p
  let l := c.stat.lcore
  if !c.regs.guard0 k.routeG then s
  else
    let b := routeBytes c.regs k
    match k.route with
    | .nop => s
    | .wopen => s.openWadi p l (k.target.toNat % 16) b.1
    | .wclose => s.closeWadi l (k.target.toNat % 16)
    | _ =>
      let c0 := k.cls == 0#2
      if c0 && routeNoC0 k.route then
        let s1 := s.countC0Refused (pSite p)
        if c.pipe.c0Refused then s1
        else (s1.modPipe p fun q => { q with c0Refused := true }).raise 0x0301 (nodeAt (pSite p) 0) l []
      else if (c0 && decide (4 ≤ c.ctl.c0Sent)) || (routeUnsched k.route && decide (8 ≤ c.pipe.sendBuf)) then
        s.modPipe p fun q =>
          { q with dropFirst := if q.dropCount = 0 then routeCode k.route else q.dropFirst, dropCount := q.dropCount + 1 }
      else
        ((if c0 then s.modCtl p fun q => { q with c0Sent := q.c0Sent + 1 } else s)).routeSend p l t k b.1

end Sys2Proof.Machine
end

