-- ==== Sys2Proof/Machine/Routes.lean ====
section
/-! DEFINITION. Routes (R265 to R267, R282): the path of a flit under a route version, what its C0 flits need, the channels of a
circuit (R270 to R272), and the trees that firmware lays from an image's tag records (R274, R275). -/

namespace Sys2Proof.Machine

open Sys2Proof

/-- What a flit does at a position (R265, R266): a listed detour, else along the row to its column, then along the column;
none when it leaves. -/
def nextDir (v : RouteVersion) (pos dst : Nat) : Option Dir :=
  if pos = dst then none
  else match tfind v.detours (144 * pos + siteOfPos dst) with
    | some d => some d
    | none =>
      if pos % 156 < dst % 156 then some .east
      else if dst % 156 < pos % 156 then some .west
      else if pos / 156 < dst / 156 then some .south
      else some .north

/-- The opposite direction: a flit that travels east arrives on the west input. -/
def dirBack : Dir → Dir
  | .east => .west
  | .west => .east
  | .north => .south
  | .south => .north
  | .local => .local

/-- The position next to `x`; at the panel's edge `x` itself. -/
def stepPos (d : Dir) (x : Nat) : Nat :=
  match stepDir d (x % 156) (x / 156) with
  | some q => posOf q.1 q.2
  | none => x

/-- The positions that a flit leaves on its way from `x` to `dst`, each with its direction there. -/
def routePath (v : RouteVersion) (dst : Nat) : Nat → Nat → List (Nat × Dir)
  | 0, _ => []
  | n + 1, x =>
    match nextDir v x dst with
    | none => []
    | some d => (x, d) :: routePath v dst n (stepPos d x)

/-- The most positions that a path is followed over. -/
def pathFuel : Nat := 600

/-- The legs of a path: direction, first and last position of each. -/
def pathLegs : List (Nat × Dir) → List (Dir × Nat × Nat)
  | [] => []
  | (x, d) :: r =>
    match pathLegs r with
    | (d', a, b) :: ls => if d' = d ∧ a = stepPos d x then (d, x, b) :: ls else (d, x, stepPos d x) :: (d', a, b) :: ls
    | [] => [(d, x, stepPos d x)]

/-! ### Detours (R266) -/

/-- Whether every position of the path that R266 names, along the row and then along the column, is in service on the way from a position to a
site. -/
def State.plainWay (s : State) (up : List Nat) (pos site : Nat) : Bool :=
  let x := siteX (siteOfPos pos)
  let y := siteY (siteOfPos pos)
  let X := siteX site
  let Y := siteY site
  let ok (a b : Nat) : Bool := tget false s.panel.routerUp (12 * b + a) || up.contains (12 * b + a)
  ((List.range 12).all fun a => decide (a < min x X) || decide (max x X < a) || ok a y) &&
  (List.range 12).all fun b => decide (b < min y Y) || decide (max y Y < b) || ok X b

/-- Only where some position of that path is out of service does a detour stand (R266); sites that rejoin at the flip count as in service. -/
def State.layDetours (s : State) (v : RouteVersion) : RouteVersion :=
  { v with detours := v.detours.filter fun e => !s.plainWay s.clk.rejoin (e.1 / 144) (e.1 % 144) }

/-! ### C0 routes (R280, R282, MESH_C0_STAT) -/

/-- A step of a path that crosses from one site to the next, or from one half-die to the other. -/
def crossesDie (e : Nat × Dir) : Bool := siteOfPos e.1 != siteOfPos (stepPos e.2 e.1)
def crossesSeam (e : Nat × Dir) : Bool :=
  match e.2 with
  | .east => e.1 % 156 % 13 == 6
  | .west => e.1 % 156 % 13 == 7
  | _ => false

/-- Whether a path to `dst` goes there over positions in service, within the limits of condition 2 of R280. -/
def State.pathOk (s : State) (dst : Nat) (es : List (Nat × Dir)) : Bool :=
  let ends := match es.getLast? with
    | some e => stepPos e.2 e.1 == dst
    | none => true
  ends && (es.all fun e => tget false s.panel.routerUp (siteOfPos e.1) && tget false s.panel.routerUp (siteOfPos (stepPos e.2 e.1))) &&
  decide ((pathLegs es).length ≤ 4) && decide (es.length ≤ 300) && decide ((es.filter crossesDie).length ≤ 26) &&
  decide ((es.filter crossesSeam).length ≤ 14)

/-- The longest contest-free landing of a C0 flit over a path, by the terms of R282's table: 31 cycles for the first slot of its kind at each
arbitration point, a row shift stage at the source, at each turn and at the destination. A send to the position itself takes 4 (R656). -/
def pathWorst (es : List (Nat × Dir)) : Nat :=
  let n := (pathLegs es).length
  if n = 0 then 4
  else 2 + 31 * n + 2 * (n - 1) + es.length + 4 * (es.filter crossesDie).length + 2 * (es.filter crossesSeam).length + (n + 1) + 2

/-- Whether R266's path from one site to another lies in service and no detour stands on it: the path of each of their positions is then its row
and its column, within every limit of R280. -/
def State.plainTo (s : State) (v : RouteVersion) (a b : Nat) : Bool :=
  let on (x : Nat) : Bool :=
    (siteY x == siteY a && decide (min (siteX a) (siteX b) ≤ siteX x) && decide (siteX x ≤ max (siteX a) (siteX b))) ||
    (siteX x == siteX b && decide (min (siteY a) (siteY b) ≤ siteY x) && decide (siteY x ≤ max (siteY a) (siteY b)))
  s.plainWay [] (posOf (13 * siteX a) (8 * siteY a)) b && !v.detours.any fun e => e.1 % 144 == b && on (siteOfPos (e.1 / 144))

/-- How far apart two numbers are. -/
def apart (a b : Nat) : Nat := (a - b) + (b - a)

/-- What one leg of a path adds to the terms of R282's table. -/
def legWorst (len cross : Nat) : Nat := if len = 0 then 0 else 34 + len + cross

/-- The longest contest-free landing over a row and a column, as `pathWorst` has it. -/
def plainWorst (x y : Nat) : Nat :=
  if x = y then 4
  else
    let P := x % 156
    let P' := y % 156
    let Q := x / 156
    let Q' := y / 156
    3 + legWorst (apart P P') (4 * apart (P / 13) (P' / 13) + 2 * apart ((P + 6) / 13) ((P' + 6) / 13)) +
      legWorst (apart Q Q') (4 * apart (Q / 8) (Q' / 8))

/-- The positions at a site of the nodes that a route version has there (R254): its die nodes and the cores of the die bound there, of each row those
at its two ends, or all. -/
def State.nodesOf (s : State) (v : RouteVersion) (site : Nat) (ends : Bool) : List Nat :=
  let lds := (List.range 128).filter fun ld => (s.siteOfLd ld).any fun x => tget x v.ldSite ld == site
  ((List.range 8).map fun u => posOf (13 * siteX site + 6) (8 * siteY site + u)) ++
  lds.flatMap fun ld => (List.range 8).flatMap fun row => (if ends then [0, 11] else List.range 12).filterMap fun c =>
    s.posOfCore v (96 * ld + 12 * row + c)

/-- The sites in service, each with its nodes at the ends of its rows. -/
def State.nodeTable (s : State) (v : RouteVersion) : List (Nat × List Nat) :=
  ((List.range 144).filter fun x => tget false s.panel.routerUp x).map fun x => (x, s.nodesOf v x true)

/-- The positions of a site, and those at its corners, from which a plain path is longest. -/
def sitePositions (site : Nat) : List Nat := (List.range 104).map fun k => posOfPcore (104 * site + k)
def siteCorners (site : Nat) : List Nat := [0, 12, 91, 103].map fun k => posOfPcore (104 * site + k)

/-- The stacks that traffic from position `x` meets at a site (R249). -/
def stackStops (x site : Nat) : List Nat := ((List.range 16).map fun n => stackPos n x).filter fun y => siteOfPos y == site

/-- Every C0 route from a site to another: where it ends, and its path. -/
def State.c0Paths (s : State) (v : RouteVersion) (a b : Nat) : List (Nat × List (Nat × Dir)) :=
  (sitePositions a).flatMap fun x => (s.nodesOf v b false ++ stackStops x b).map fun y => (y, routePath v y pathFuel x)

/-- MESH_C0_STAT.ROUTES_OK of a die under a route version, over the sites in service. -/
def State.c0RoutesOk (s : State) (v : RouteVersion) (t : List (Nat × List Nat)) (site : Nat) : Bool :=
  tget false s.panel.routerUp site &&
  t.all fun e => s.plainTo v site e.1 || (s.c0Paths v site e.1).all fun r => s.pathOk r.1 r.2

/-- MESH_C0_STAT.WORST of a die under a route version, over the sites in service. -/
def State.c0Worst (s : State) (v : RouteVersion) (t : List (Nat × List Nat)) (site : Nat) : Nat :=
  if !tget false s.panel.routerUp site then 0
  else t.foldl (fun m e =>
    if s.plainTo v site e.1 then
      (siteCorners site).foldl (fun m x => (e.2 ++ stackStops x e.1).foldl (fun m y => max m (plainWorst x y)) m) m
    else (s.c0Paths v site e.1).foldl (fun m r => max m (pathWorst r.2)) m) 0

/-! ### Circuits (R270 to R272) -/

/-- The stretches of channels on a circuit's path: channel, first and last position as distances from its origin. -/
def State.circuitWay (s : State) (v : RouteVersion) (c : Circuit) : List (Nat × Nat × Nat) :=
  match s.posOfCore v c.src, s.posOfCore v c.dest with
  | some a, some b => (pathLegs (routePath v b pathFuel a)).map fun e =>
      (chanOf e.1 (e.2.1 % 156) (e.2.1 / 156), distOn e.1 (e.2.1 % 156) (e.2.1 / 156), distOn e.1 (e.2.2 % 156) (e.2.2 / 156))
  | _, _ => []

/-- Whether a circuit's window is open in cycle `c`, of the present tick or, as the ticks stand now, of the next (R272). -/
def State.windowAt (s : State) (r : Circuit) (c : Nat) : Bool :=
  let late := decide (s.boundary ≤ c)
  let n := s.clock.tick.toNat + b2n late - s.job.firstTick
  let x := if late then c - s.boundary else c - s.clock.start
  s.job.running && decide (s.job.firstTick ≤ s.clock.tick.toNat) && decide (r.first ≤ n) && (r.count == 0 || decide (n < r.first + r.count)) &&
    decide (r.start ≤ x) && decide (x < r.start + r.len)

/-- Whether an open circuit window closes the open phases of a channel in cycle `c`, at the position `dist` from its origin (R272). -/
def State.circuitOn (s : State) (v : RouteVersion) (chan dist c : Nat) : Bool :=
  v.circuits.any fun e => s.windowAt e.2 c && (s.circuitWay v e.2).any fun w => w.1 == chan && decide (w.2.1 ≤ dist) && decide (dist ≤ w.2.2)

/-! ### Tag trees (R274, R275) -/

/-- The input on which the next position of a path takes what comes from `d`. -/
def pathInputs (inp : Dir) : List (Nat × Dir) → List (Nat × Dir × Option Dir)
  | [] => []
  | (x, d) :: r => (x, inp, some d) :: pathInputs (dirBack d) r

/-- What a contribution from position `x` meets on its way to `dst`: each position with the input and the direction in which it goes on, none
at its end. -/
def treeWay (v : RouteVersion) (dst x : Nat) : List (Nat × Dir × Option Dir) :=
  let es := routePath v dst pathFuel x
  let last := match es.getLast? with
    | some e => dirBack e.2
    | none => .local
  pathInputs .local es ++ [(dst, last, none)]

/-- The entry at a position whose visits are `vs`, none where the tree passes straight on (R275). -/
def treeEntry (dest doff : Nat) (vs : List (Dir × Option Dir)) : Option TagEntry :=
  let ins := (vs.map (·.1)).eraseDups
  let out := match vs with
    | (_, o) :: _ => o
    | [] => none
  let has (d : Dir) : Bool := ins.contains d
  let mk (o : TagOut) : TagEntry := ⟨has .local, has .north, has .east, has .south, has .west, o⟩
  match out with
  | none => some (mk (.land dest doff))
  | some d => if has .local || decide (2 ≤ ins.length) || !ins.contains (dirBack d) then some (mk (.send d)) else none

/-- The tag entries of one tag (R275): wherever its tree starts, merges, turns or ends. -/
def State.layTag (s : State) (v : RouteVersion) (tag dest doff : Nat) (list : List Nat) : List (Nat × TagEntry) :=
  match s.posOfCore v dest with
  | none => []
  | some t =>
    let vs := (list.filterMap fun l => s.posOfCore v l).flatMap (treeWay v t)
    ((vs.map (·.1)).eraseDups).filterMap fun x =>
      (treeEntry dest doff ((vs.filter fun e => e.1 == x).map (·.2))).map fun e => (16384 * x + tag, e)

def imgNcirc (m : List (BitVec 8)) : Nat := leField m 0x24 2
def imgCirc (m : List (BitVec 8)) : Nat := leField m 0x28 4
def imgNtag (m : List (BitVec 8)) : Nat := leField m 0x2C 4
def imgTag (m : List (BitVec 8)) : Nat := leField m 0x30 4

/-- The contributing cores of tag record `i` (R274). -/
def imgTagList (m : List (BitVec 8)) (i : Nat) : List Nat :=
  let r := imgTag m + 16 * i
  (List.range (leField m (r + 6) 2)).map fun k => leField m (leField m (r + 8) 4 + 2 * k) 2

/-- Circuit record `i` of an image: its number and record (R270). -/
def imgCircuit (m : List (BitVec 8)) (i : Nat) : Nat × Circuit :=
  let r := imgCirc m + 16 * i
  (leField m r 2, { src := leField m (r + 2) 2, dest := leField m (r + 4) 2, start := leField m (r + 6) 2, len := leField m (r + 8) 2
                    count := leField m (r + 10) 2, first := leField m (r + 12) 4 })

/-- The tag entries that an image's records call for under a route version (R274, R275). -/
def State.layTags (s : State) (v : RouteVersion) (m : List (BitVec 8)) : List (Nat × TagEntry) :=
  (List.range (imgNtag m)).flatMap fun i =>
    let r := imgTag m + 16 * i
    s.layTag v (leField m r 2) (leField m (r + 2) 2) (leField m (r + 4) 2) (imgTagList m i)

/-- Whether no position needs more than 64 entries (R275). -/
def treesFit (es : List (Nat × TagEntry)) : Bool :=
  (es.map fun e => e.1 / 16384).eraseDups.all fun x => decide ((es.filter fun e => e.1 / 16384 == x).length ≤ 64)

/-- The circuit and tag entries of a program image under a route version (R265, R270, R275). -/
def State.placeTables (s : State) (m : List (BitVec 8)) (v : RouteVersion) : RouteVersion :=
  { v with
    circuits := (List.range (imgNcirc m)).foldl (fun t i => let c := imgCircuit m i; tput t c.1 c.2) []
    tags := (s.layTags v m).foldl (fun t e => tput t e.1 e.2) [] }

end Sys2Proof.Machine
end

