-- ==== Sys2Proof/Machine/Seif.lean ====
section
/-! DEFINITION. The seif of a row (R241, R245): where a path crosses it, what it holds towards a stretched half-die, and which bundles it
holds. -/

namespace Sys2Proof.Machine

open Sys2Proof

/-- How many of every 8 cycles a half-die of a site swallows (R244). -/
def State.halfSwallows (s : State) (site : Nat) (east : Bool) : Nat :=
  let d := tget {} s.clk.die site
  min 4 (if east then d.stretchE else d.stretchW)

/-- The first cycle from `x` on that a half-die does not swallow. -/
def firstRun (half k x : Nat) : Nat := runCycle half k (runBefore half k x)

/-- What a seif holds in cycle `c`. -/
def seifAt (q : List (Nat × Nat)) (c : Nat) : List (Nat × Nat) := q.filter fun e => decide (e.1 ≤ c) && decide (c < e.2)

/-- The cycle from `c` on in which a crossing finds fewer than 8 entries in the seif (R245). -/
def seifEnter (q : List (Nat × Nat)) : Nat → Nat → Nat
  | 0, c => c
  | n + 1, c =>
    match seifAt q c with
    | [] => c
    | e :: es => if es.length < 7 then c else seifEnter q n (es.foldl (fun m x => min m x.2) e.2)

/-- The cycle in which an entry that enters in cycle `c` leaves: after the 2 cycles of R241 and behind what entered before it, in a cycle
that the half does not swallow. -/
def seifLeave (half k : Nat) (q : List (Nat × Nat)) (c : Nat) : Nat :=
  (q.filter fun e => decide (e.1 ≤ c)).foldl (fun m e => max m (firstRun half k (e.2 + 1))) (firstRun half k (c + 2))

/-- The key of a row's seif in one direction. -/
def seifKey (site row : Nat) (east : Bool) : Nat := 16 * site + 2 * row + b2n !east

/-- A crossing that comes to a row's seif in cycle `c`, with the cycles it waits beyond the 2 of R241. -/
def State.crossSeif (s : State) (site row : Nat) (east : Bool) (c : Nat) : State × Nat :=
  let k := s.halfSwallows site east
  if k = 0 then (s, 0)
  else
    let q := (tget [] s.mesh.seif (seifKey site row east)).filter fun e => decide (s.clock.now < e.2)
    let a := seifEnter q 64 c
    let o := seifLeave (2 * site + b2n east) k q a
    ({ s with mesh := { s.mesh with seif := tput s.mesh.seif (seifKey site row east) (q ++ [(a, o)]) } }, o - (c + 2))

/-- Cross the seifs of the site columns listed, in the order of the path, `w` cycles late so far. -/
def State.crossEach (s : State) (d : Dir) (P Q c w : Nat) : List Nat → State × Nat
  | [] => (s, w)
  | x :: xs =>
    let e := c + (distOn d (13 * x + (if d = .east then 6 else 7)) Q - distOn d P Q) + w
    let r := s.crossSeif (siteOfPos (posOf (13 * x + 6) Q)) (Q % 8) (decide (d = .east)) e
    r.1.crossEach d P Q c (w + r.2) xs

/-- A flit that takes its slot at (P, Q) in cycle `c` crosses every seif up to column `P'` (R245). -/
def State.crossSeams (s : State) (d : Dir) (P Q P' c : Nat) : State × Nat :=
  match d with
  | .east => s.crossEach d P Q c 0 ((List.range 12).filter fun x => decide (P ≤ 13 * x + 6) && decide (13 * x + 6 < P'))
  | .west => s.crossEach d P Q c 0 ((List.range 12).reverse.filter fun x => decide (P' ≤ 13 * x + 6) && decide (13 * x + 6 < P))
  | _ => (s, 0)

/-- The nodes to which a ROUTE action of core `p` sends flits straight from its core: unscheduled writes go by the send buffer (R211),
reductions by their tag entry (R276), remote DMA by the die's engine (R387), and an action on an ACTIVE context sends nothing (R290). -/
def State.routeDests (s : State) (p : Nat) (k : Slots) (bs : List (BitVec 8)) : List Nat :=
  let l := (s.core p).stat.lcore
  let tg := k.target.toNat
  match k.route with
  | .sendv => [tg]
  | .sendq _ => [tg]
  | .sendw => [tg]
  | .circv =>
    match tfind (s.mesh.version (s.epochAt (pSite p))).circuits tg with
    | some c => if c.src = l ∧ s.mesh.windows.contains tg ∧ c.start ≤ s.cycle ∧ s.cycle < c.start + c.len then [c.dest] else []
    | none => []
  | .strm =>
    if (s.getCtx (ctxKey l tg)).st = .active then []
    else if s.plos.placed then [nodeOfStack ((stackAddr true (leField bs 8 8)).1 % 16)] else (List.range 16).map nodeOfStack
  | .saecmd => if (s.getCtx (ctxKey l (leField bs 1 1 % 8))).st = .active then [] else [nodeOfStack tg]
  | _ => []

/-- R245: a core beside the seif whose ROUTE action would make its crossing into a full seif is held. -/
def State.seamHeld (s : State) (p : Nat) (k : Slots) : Bool :=
  let c := s.core p
  let east := decide (pCol p = 6)
  let c0 := k.cls == 0#2
  let v := s.mesh.version (s.epochAt (pSite p))
  decide (k.route ≠ .nop) && (east || decide (pCol p = 7)) &&
    decide (8 ≤ (seifAt (tget [] s.mesh.seif (seifKey (pSite p) (pRow p) east)) s.clock.now).length) && c.regs.guard0 k.routeG &&
    !(c0 && (routeNoC0 k.route || decide (4 ≤ c.ctl.c0Sent))) &&
    (s.routeDests p k (routeBytes c.regs k).1).any fun n =>
      match s.nodePos v n (posOfPcore p) with
      | some t => nextDir v (posOfPcore p) t == some (if east then .east else .west)
      | none => false

/-- Whether what is written into core `p` crosses the seif on the row shift bus, to the core that mirrors it (R90, R245). -/
def State.shiftCrosses (s : State) (p : Nat) : Bool :=
  match s.mirrorOf p with
  | some q => decide (pCol p = 6 ∧ pCol q = 7) || decide (pCol p = 7 ∧ pCol q = 6)
  | none => false

/-- R245: a core is held while a store of its bundle would make its row shift transfer cross into a full seif. -/
def State.shiftHeld (s : State) (p : Nat) (ld0 ls1 : Access) : Bool :=
  ((ld0.store && !ld0.served) || (ls1.store && !ls1.served)) && s.shiftCrosses p &&
    decide (8 ≤ (seifAt (tget [] s.mesh.seif (seifKey (pSite p) (pRow p) (decide (pCol p = 6)))) s.clock.now).length)

/-- The row shift transfer of a store that is served enters the seif, 64 bytes an entry (R245). -/
def State.shiftStore (s : State) (p : Nat) (a : Access) : State :=
  if a.store && s.shiftCrosses p then
    s.each (fun s _ => (s.crossSeif (pSite p) (pRow p) (decide (pCol p = 6)) s.clock.now).1) a.banks
  else s

end Sys2Proof.Machine
end

