-- ==== Sys2Proof/Machine/Issue.lean ====
section
/-! DEFINITION. Issuing a bundle (R97, R133 to R141, R154 to R162, R173 to R207): the first request cycle, the
service of its accesses, and what its slots do when it issues. -/

namespace Sys2Proof.Machine

open Sys2Proof

/-! ### LD0 and LS1 accesses (R73, R77, R151, R205) -/

/-- The banks of an access (R74). -/
def banksOf (off size : Nat) : List Nat := (List.range (max 1 (size / 64))).map fun i => bankOf (off + 64 * i)

/-- The scratchpad offset of an access (R151). -/
def accessOff (r : CoreRegs) (op : MemOp) (base : BitVec 4) (off : BitVec 16) : Nat :=
  ((r.addr base.toNat) + off.signExtend 32 * BitVec.ofNat 32 (memSize op)).toNat % spadSize

/-- Lanes a store takes its data from (R205). -/
def storeLanes (op : MemOp) : Nat := if memSize op = 4 then 1 else memSize op / 4

/-- An access in its first request cycle: a guarded-off one and a NOP are served at once and ask for no bank; a store
takes its data (R77 step 1). -/
def mkAccess (r : CoreRegs) (op : MemOp) (g : BitVec 5) (reg : BitVec 6) (base : BitVec 4) (off : BitVec 16) : Access :=
  let o := accessOff r op base off
  if op = .nop ∨ !r.guard0 g then ⟨true, [], 0, 0, false, [], [], none⟩
  else if memIsStore op then
    let ls := r.lanesOf reg (memLane0 op) (storeLanes op)
    ⟨false, banksOf o (memSize op), o, memSize op, true, ls.flatMap laneBytes, ls.map (·.poison), none⟩
  else ⟨false, banksOf o (memSize op), o, memSize op, false, [], [], none⟩

/-- Whether an access breaks R73's alignment. -/
def misaligned (a : Access) : Bool := !a.served && decide (a.off % a.size ≠ 0)

/-- Cut store bytes and lane poison into words; a word is poison when a lane of it is (R82). -/
def storeWords (bytes : List (BitVec 8)) (bad : List Bool) : Nat → Nat → List (List (BitVec 8) × Bool)
  | 0, _ => []
  | n + 1, i =>
    ((bytes.drop (8 * i)).take 8, bad.getD (2 * i) false || bad.getD (2 * i + 1) false) :: storeWords bytes bad n (i + 1)

/-- The first bank of a poison word among words read from `off` on. -/
def firstBadBank : Nat → List (List (BitVec 8) × Bool) → Option Nat
  | _, [] => none
  | off, w :: ws => if w.2 then some (bankOf off) else firstBadBank (off + 8) ws

/-- Serve an access that is granted its banks (R77 step 3): a load stages its bytes and the poison of each 4-byte
lane, a store writes the scratchpad. -/
def State.serve (s : State) (p : Nat) (a : Access) : State × Access :=
  if a.store then
    if a.size = 4 then (s.putHalf p a.off a.bytes (a.poison.getD 0 false), { a with served := true })
    else (s.putWords p (a.off / 8) (storeWords a.bytes a.poison (a.size / 8) 0), { a with served := true })
  else if a.size = 4 then
    let q := s.readWord p (a.off / 8)
    (q.1, { a with served := true, bytes := (q.2.1.drop (a.off % 8)).take 4, poison := [q.2.2],
                   badBank := if q.2.2 then some (bankOf a.off) else none })
  else
    let q := s.readWords p (a.off / 8) (a.size / 8)
    (q.1, { a with served := true, bytes := q.2.flatMap (·.1), poison := q.2.flatMap fun w => [w.2, w.2],
                   badBank := firstBadBank a.off q.2 })

/-- Serve an access, which takes its banks in the present cycle (R75 ranks 4 and 5). -/
def State.serveNow (s : State) (p : Nat) (a : Access) : State × Access :=
  let q := s.serve p a
  ((q.1.modPipe p fun k => k.useBanks s.clock.now a.banks).shiftStore p a, q.2)

/-- Whether two sets of banks meet. -/
def meet (a b : List Nat) : Bool := a.any fun x => b.contains x

/-- One cycle of service for a bundle's two accesses (R75 to R78): LD0 first, and LS1 keeps out of every bank that an
unserved LD0 asks for. -/
def State.serveCycle (s : State) (p : Nat) (ld0 ls1 : Access) : State × Access × Access :=
  let taken := s.rankBanks p
  let q := if ld0.served || meet ld0.banks taken then (s, ld0) else s.serveNow p ld0
  let q1 := if ls1.served || meet ls1.banks taken || (!ld0.served && meet ls1.banks ld0.banks) then (q.1, ls1)
    else q.1.serveNow p ls1
  (q1.1, q.2, q1.2)

/-- Lanes that a load writes, with the word of data each takes (R205, R206). -/
def loadWrites (op : MemOp) (reg : BitVec 6) (a : Access) : List (Loc × Pending) :=
  let word (i : Nat) : Lane := mkLane (BitVec.ofNat 32 (leField a.bytes (4 * i) 4)) (a.poison.getD i false)
  match op with
  | .ldw =>
    if reg.toNat < 32 then (List.range 64).map fun i => (.v reg.toNat i, .put (word 0))
    else if reg.toNat < 48 then [(.a (reg.toNat - 32), .put (word 0))]
    else [(.s (reg.toNat - 48), .put (word 0))]
  | .ldd => (List.range 64).map fun i => (.v reg.toNat i, .put (word (i % 2)))
  | .ldsc64 => (List.range 64).map fun i =>
      (.scale (reg.toNat % 8) (64 * (reg.toNat / 8 % 4) + i), .put (mkLane ((byteAt a.bytes i).setWidth 32) false))
  | .ldsc256 => (List.range 256).map fun i =>
      (.scale (reg.toNat % 8) i, .put (mkLane ((byteAt a.bytes i).setWidth 32) false))
  | _ => (List.range (memSize op / 4)).map fun i => (.v reg.toNat (memLane0 op + i), .put (word i))

/-- Poison that a load carries to an address register or the scale file (R83, R207). -/
def loadCauses (slot : Nat) (op : MemOp) (reg : BitVec 6) (a : Access) : List Cause :=
  let bad := !a.store && a.poison.any id
  match op with
  | .ldw => if bad && decide (32 ≤ reg.toNat) && decide (reg.toNat < 48) then [⟨slot, ST_CORE_POISON, a.badBank⟩] else []
  | .ldsc64 => if bad then [⟨slot, ST_CORE_POISON, a.badBank⟩] else []
  | .ldsc256 => if bad then [⟨slot, ST_CORE_POISON, a.badBank⟩] else []
  | _ => []

/-! ### The CTRL slot (R173 to R193) -/

/-- What a CTRL operation does when it issues. -/
structure CtrlEffect where
  causes : List Cause := []
  writes : List (Loc × Pending) := []
  goto : Option Nat := none
  swap : Bool := false
  seed : Option (BitVec 64) := none
  page : Option (Nat × Nat) := none
  hint : Option (Nat × Nat) := none
  deriving DecidableEq, Repr

/-- A predicate written whole. -/
def predWrites (r : Nat) (v : BitVec 64) : List (Loc × Pending) :=
  (List.range 64).map fun i => (.p r i, .put (mkLane (if v.getLsbD i then 1#32 else 0#32) false))

/-- Poison at a place named in R83, in the CTRL slot. -/
def ctrlPoison : List Cause := [⟨1, ST_CORE_POISON, none⟩]

/-- Write a CTRL result: poison into an address register faults (R83, R175). -/
def ctrlPut (dst : BitVec 5) (l : Lane) : CtrlEffect :=
  if l.poison && isAddr dst then { causes := ctrlPoison } else { writes := [(ctrlLoc dst, .put l)] }

/-- The CSRRD values (R193). -/
def State.csr (s : State) (p : Nat) (fn : CsrFn) : BitVec 32 :=
  match fn with
  | .lcore => BitVec.ofNat 32 (s.core p).stat.lcore
  | .tickLo => s.clock.tick.setWidth 32
  | .tickHi => (s.clock.tick >>> 32).setWidth 32
  | .cycle => BitVec.ofNat 32 s.cycle
  | .mapGen => BitVec.ofNat 32 s.clock.hdr.mapGen
  | .tickLen => BitVec.ofNat 32 s.clock.hdr.len

/-- A CTRL operation in its issue cycle, its guard letting it act. `tsm` is the bundle's mark. -/
def State.ctrlEval (s : State) (p : Nat) (tsm : Bool) (op : CtrlOp) : CtrlEffect :=
  let k := s.core p
  let r := k.regs
  match op with
  | .nop => {}
  | .alu fn d a b => ctrlPut d (mkLane (aluEval fn (r.ctrl a).bits (r.ctrl b).bits) ((r.ctrl a).poison || (r.ctrl b).poison))
  | .movi d imm => ctrlPut d (mkLane (imm.signExtend 32) false)
  | .movhi d imm => ctrlPut d (mkLane (BitVec.ofNat 32 (imm.toNat * 65536 + (r.ctrl d).bits.toNat % 65536)) (r.ctrl d).poison)
  | .addi d imm => ctrlPut d (mkLane ((r.ctrl d).bits + imm.signExtend 32) (r.ctrl d).poison)
  | .cmp fn d a b =>
    if (r.ctrl a).poison || (r.ctrl b).poison then { causes := ctrlPoison }
    else { writes := predWrites d.toNat (allBits (cmpEval fn (r.ctrl a).bits (r.ctrl b).bits)) }
  | .plog fn d a b => { writes := predWrites d.toNat (plogEval fn (r.pred a.toNat) (r.pred b.toNat)) }
  | .jmp imm => { goto := some (imm.toNat % 2048) }
  | .jmpr a => if (r.ctrl a).poison then { causes := ctrlPoison } else { goto := some ((r.ctrl a).bits.toNat % 2048) }
  | .loop d imm =>
    let v := (r.ctrl d).bits - 1#32
    if (r.ctrl d).poison then { causes := ctrlPoison }
    else { writes := [(ctrlLoc d, .put (mkLane v false))], goto := if v = 0#32 then none else some (imm.toNat % 2048) }
  | .tsync imm => if tsm then { goto := some (imm.toNat % 2048) } else {}
  | .accswap => { swap := true }
  | .pagein imm =>
    let page := bitsOf imm.toNat 8 3
    match (if page = k.ctl.pc / 256 then [⟨1, ST_CORE_PAGE_LIVE, none⟩] else []) ++
        (if k.ctl.pagein.isSome && k.ctl.pageinQ.isSome then [⟨1, ST_CORE_PAGE_BUSY, none⟩] else []) with
    | [] => { page := some (page, bitsOf imm.toNat 0 8) }
    | cs => { causes := cs }
  | .loadhint imm => { hint := some (64 * (bitsOf imm.toNat 18 3 + 1), bitsOf imm.toNat 14 4) }
  | .srseed a b =>
    if (r.ctrl a).poison || (r.ctrl b).poison then { causes := ctrlPoison }
    else { seed := some (((r.ctrl b).bits.setWidth 64 <<< 32) ||| (r.ctrl a).bits.setWidth 64) }
  | .waitstr d a fn =>
    let c := s.getCtx (ctxKey k.stat.lcore (fn.toNat % 8))
    if (r.ctrl a).poison then { causes := ctrlPoison }
    else { writes := predWrites d.toNat (allBits (decide ((r.ctrl a).bits.toNat ≤ c.count))) }
  | .strcnt d fn =>
    ctrlPut d (mkLane (BitVec.ofNat 32 (s.getCtx (ctxKey k.stat.lcore (fn.toNat % 8))).count) false)
  | .csrrd fn d => ctrlPut d (mkLane (s.csr p fn) false)

/-- Whether WAITSTR holds its bundle in the present cycle (R188). -/
def State.waits (s : State) (p : Nat) (k : Slots) : Bool :=
  let r := (s.core p).regs
  match k.ctrl with
  | .waitstr d a fn =>
    let c := s.getCtx (ctxKey (s.core p).stat.lcore (fn.toNat % 8))
    ctrlOk (.waitstr d a fn) && guardOk k.ctrlG && r.guard0 k.ctrlG && !(r.ctrl a).poison &&
      decide (c.count < (r.ctrl a).bits.toNat) && decide (c.st = .active)
  | _ => false

/-- Start or queue a page-in that issues in cycle `t` (R85, R86, R161, R166). -/
def CoreCtl.startPage (k : CoreCtl) (t page src : Nat) : CoreCtl :=
  let k1 := { k with
    pageValid := k.pageValid &&& ~~~(1#8 <<< page)
    pageSrc := tput k.pageSrc page src
    pageFromIn := k.pageFromIn ||| (1#8 <<< page) }
  match k.pagein with
  | none => { k1 with pagein := some ⟨page, src, 0, t + 2⟩ }
  | some _ => { k1 with pageinQ := some ⟨page, src⟩ }

/-- The control state after a bundle issues in cycle `t` (R134 to R136). -/
def CoreCtl.after (k : CoreCtl) (h : Header) (goto : Option Nat) (t : Nat) : CoreCtl :=
  if h.stop then { k with stopped := true, readyAt := none }
  else
    { k with
      pc := match goto with
        | some x => x
        | none => if h.pgm then (k.pc / 256 + 1) % 8 * 256 else (k.pc + 1) % 2048
      readyAt := if h.tsm then none else some (t + 1 + h.hold.toNat) }

/-- Add a slot's results `lat` cycles after issue. -/
def CorePipe.fly (k : CorePipe) (t lat : Nat) (ws : List (Loc × Pending)) : CorePipe :=
  if ws.isEmpty then k else { k with flights := addFlight ⟨t + lat, ws⟩ k.flights }

/-! ### Issue (R97, R154) -/

/-- The causes for which a bundle faults in its issue cycle, once its accesses are served (R83, R86, R216). -/
def State.issueCauses (s : State) (p : Nat) (k : Slots) (ld0 ls1 : Access) : List Cause :=
  let c := s.core p
  let v := vecEval c.regs c.ctl.inactive c.ctl.srState k.vec k.vecG k.vargs
  (if c.regs.guard0 k.ctrlG then (s.ctrlEval p k.hdr.tsm k.ctrl).causes else []) ++
  (match v with
   | .poison => [⟨3, ST_CORE_POISON, none⟩]
   | .writes _ => []) ++
  loadCauses 4 k.ld0 k.ld0Reg ld0 ++ loadCauses 5 k.ls1 k.ls1Reg ls1 ++ routeCauses c.regs k

/-- The results of a bundle's loads. -/
def loadResults (op : MemOp) (reg : BitVec 6) (a : Access) : List (Loc × Pending) :=
  if a.store || a.banks.isEmpty then [] else loadWrites op reg a

/-- A bundle without fault causes issues in the present cycle: every slot takes effect (R134, R154, R155). -/
def State.issueNow (s : State) (p : Nat) (k : Slots) (ld0 ls1 : Access) : State :=
  let t := s.clock.now
  let c := s.core p
  let ce : CtrlEffect := if c.regs.guard0 k.ctrlG then s.ctrlEval p k.hdr.tsm k.ctrl else {}
  let vw := match vecEval c.regs c.ctl.inactive c.ctl.srState k.vec k.vecG k.vargs with
    | .writes ws => ws
    | .poison => []
  let tw := match k.tensor with
    | .nop => []
    | .mma va vb af bf sc ag bg z =>
      if c.regs.guard0 k.tensorG then
        mmaWrites c.regs c.ctl.active va vb af.toNat bf.toNat sc.toNat ag.toNat bg.toNat z
      else []
  let tl := match k.tensor with
    | .nop => (0, 0)
    | .mma _ _ af bf .. => (mmaLatency af.toNat bf.toNat, mmaOccupancy af.toNat bf.toNat)
  let pipe1 := ((((c.pipe.fly t 1 ce.writes).fly t tl.1 tw).fly t (vecLatency k.vec) vw).fly t 5
    (loadResults k.ld0 k.ld0Reg ld0)).fly t 5 (loadResults k.ls1 k.ls1Reg ls1)
  let pipe2 := { pipe1 with
    held := none
    tensorFree := if k.tensor = TensorOp.nop then pipe1.tensorFree else t + tl.2
    vectorFree := if k.vec = VecOp.nop then pipe1.vectorFree else t + vecOccupancy k.vec
    arriveAt := if k.hdr.tsm && !k.hdr.stop then some (t + 1 + k.hdr.hold.toNat) else pipe1.arriveAt
    stopAt := if k.hdr.stop then some (t + 1 + k.hdr.hold.toNat) else pipe1.stopAt }
  let ctl1 := c.ctl.after k.hdr ce.goto t
  let ctl2 := match ce.page with
    | some q => ctl1.startPage t q.1 q.2
    | none => ctl1
  let ctl3 := { ctl2 with
    accAct := ctl2.accAct != ce.swap
    srState := match ce.seed with
      | some x => x
      | none => srAfter k.vec k.vargs c.ctl.srState }
  let s1 := s.routeAct p t k
  let s2 := s1.modCore p fun c' => { c' with
    ctl := { ctl3 with c0Sent := c'.ctl.c0Sent }
    pipe := { pipe2 with
      sendBuf := c'.pipe.sendBuf, dropFirst := c'.pipe.dropFirst, dropCount := c'.pipe.dropCount,
      c0Refused := c'.pipe.c0Refused, lowBuf := c'.pipe.lowBuf, holdReq := false }
    stat := { c'.stat with run := if c'.pipe.holdReq then .held else c'.stat.run } }
  match ce.hint with
  | some h => { s2 with hints := s2.hints ++ [(c.stat.lcore, t + h.1, h.2)] }
  | none => s2

/-- A bundle whose accesses are served in the present cycle issues, or faults and issues no slot (R76, R97). -/
def State.issue (s : State) (p : Nat) (k : Slots) (ld0 ls1 : Access) : State :=
  match s.issueCauses p k ld0 ls1 with
  | [] => s.issueNow p k ld0 ls1
  | c :: cs => s.recordFault p (s.core p).ctl.pc c cs

/-- A cycle in which a full seif holds a bundle is a seam stall cycle (R245). -/
def State.seamCycle (s : State) (p : Nat) (h : HeldBundle) : State :=
  (s.modCtl p fun c => { c with tickSeif := satAdd 0xFF c.tickSeif 1, stallSum := satAdd 0xFFFF c.stallSum 1 }).modPipe p fun c =>
    { c with held := some h }

/-- Serve in the present cycle; issue when nothing is outstanding, else hold the bundle from `since` on (R76, R77). A bundle whose ROUTE
action or row shift transfer waits for a full seif is held too, and each such cycle is a seam stall cycle, no conflict (R245). -/
def State.serveOrHold (s : State) (p since : Nat) (k : Slots) (ld0 ls1 : Access) : State :=
  if s.shiftHeld p ld0 ls1 then s.seamCycle p ⟨k, false, since + 1, ld0, ls1⟩
  else
  let q := s.serveCycle p ld0 ls1
  if q.2.1.served && q.2.2.served then
    if q.1.seamHeld p k then q.1.seamCycle p ⟨k, false, since + 1, q.2.1, q.2.2⟩
    else
    let d := q.1.clock.now - since
    (q.1.modCtl p fun c => { c with
      tickConflict := satAdd 0xFF c.tickConflict d, stallSum := satAdd 0xFFFF c.stallSum d }).issue p k q.2.1 q.2.2
  else q.1.modPipe p fun c => { c with held := some ⟨k, false, since, q.2.1, q.2.2⟩ }

/-- Slots issued inside their unit's occupancy (R157). -/
def busySlots (c : CoreRec) (t : Nat) (k : Slots) : List Nat :=
  (if k.tensor ≠ TensorOp.nop ∧ t < c.pipe.tensorFree then [2] else []) ++
  (if k.vec ≠ VecOp.nop ∧ t < c.pipe.vectorFree then [3] else [])

/-- The first request cycle of a bundle (R77, R139): the encoding check, then offsets and alignment, then service. A bundle that faults here
records these causes alone, none of its issue cycle (log entry 235). -/
def State.firstRequest (s : State) (p : Nat) (k : Slots) : State :=
  let c := s.core p
  let t := s.clock.now
  let bad := undefinedSlots k ++ (busySlots c t k).filter fun x => !(undefinedSlots k).contains x
  let ld0 := mkAccess c.regs k.ld0 k.ld0G k.ld0Reg k.ld0Base k.ld0Off
  let ls1 := mkAccess c.regs k.ls1 k.ls1G k.ls1Reg k.ls1Base k.ls1Off
  let causes := ((List.range 7).filter bad.contains).map (fun x => (⟨x, ST_CORE_ILLEGAL, none⟩ : Cause)) ++
    (if misaligned ld0 && !bad.contains 4 then [⟨4, ST_CORE_ALIGN, none⟩] else []) ++
    (if misaligned ls1 && !bad.contains 5 then [⟨5, ST_CORE_ALIGN, none⟩] else [])
  match causes with
  | [] => s.serveOrHold p t k ld0 ls1
  | x :: xs => s.recordFault p c.ctl.pc x xs

/-- The bundle's ready cycle: WAITSTR may hold it before its accesses ask for anything (R188, R189). -/
def State.ready (s : State) (p : Nat) (k : Slots) : State :=
  if s.waits p k then
    s.modPipe p fun c => { c with held := some ⟨k, true, s.clock.now,
      ⟨false, [], 0, 1, false, [], [], none⟩, ⟨false, [], 0, 1, false, [], [], none⟩⟩ }
  else s.firstRequest p k

/-- The page check and the fetch path's error check at the program counter (R87, R162). -/
def State.fetchCheck (s : State) (p : Nat) : State × Option Cause :=
  let pc := (s.core p).ctl.pc
  if !(s.core p).ctl.pageValid.getLsbD (pc / 256) then (s, some ⟨0, ST_CORE_PAGE_LATE, none⟩)
  else match tget 0 s.srams.imemFlips (imKey p pc) with
    | 0 => (s, none)
    | 1 => (s.countCorr p, none)
    | _ => (s.countUncorr p none, some ⟨0, ST_CORE_IMEM_ECC, none⟩)

/-- Whether a core can issue its next bundle: it runs, holds none, and waits at no TSYNC. -/
def CoreRec.canIssue (c : CoreRec) : Option Nat :=
  if c.stat.run = .running ∧ c.pipe.held.isNone then c.ctl.readyAt else none

/-- The machine in the cycle in which a core meets its next bundle, ready in cycle `r`: not a cycle that its half-die swallows
(R134, R244). -/
def State.meetAt (s : State) (p r : Nat) : State :=
  let k := s.swallows p
  let t := s.realCycle p r
  ((s.advance (if k = 0 then t else max t (runCycle (halfOf p) k (runBefore (halfOf p) k s.clock.now)))).sync p).syncCtx

/-- A core meets the ready cycle of a bundle: not before R134's cycle, and in the present cycle when that is later. A
core that cannot issue does nothing. -/
def State.issueBundle (s : State) (p : Nat) (k : Slots) : State :=
  match (s.core p).canIssue with
  | none => s
  | some r =>
    let s1 := s.meetAt p r
    if (s1.core p).stat.run = .running then
      let q := s1.fetchCheck p
      match q.2 with
      | some c => q.1.recordFault p (s1.core p).ctl.pc c []
      | none => q.1.ready p k
    else s1

/-- The bundle at the program counter. -/
def State.fetch (s : State) (p : Nat) : Slots := decBundle (tget 0#256 s.srams.imem (imKey p (s.core p).ctl.pc))

/-- Work a held bundle's banks cycle by cycle until its last access is served; each round is one cycle (R76, R77). -/
def State.serveOn (s : State) (p : Nat) : Nat → State
  | 0 => s
  | n + 1 =>
    match (s.core p).pipe.held with
    | none => s
    | some h =>
      if h.wait then s
      else
        let s1 := ((s.advance (s.clock.now + 1)).sync p).syncCtx
        let since := match (s1.core p).pipe.held with
          | some g => g.since
          | none => h.since
        (if s1.dead p s1.clock.now then s1 else s1.serveOrHold p since h.bundle h.ld0 h.ls1).serveOn p n

end Sys2Proof.Machine
end

