-- ==== Sys2Proof/Machine/Tick.lean ====
section
/-! DEFINITION. The tick (06): its boundary, the quiet window, the late decision, its check, and the margin fault; with
the parts of 02, 07, 09, 18 that happen at a boundary. -/

namespace Sys2Proof.Machine

open Sys2Proof

/-- The physical cores that the machine lists. -/
def State.coreIds (s : State) : List Nat := s.cores.map (·.1)

/-- Bring every core to the present cycle. -/
def State.syncAll (s : State) : State := s.syncCtx.each State.sync s.coreIds

/-- Whether a core takes part in the running job: it carries a logical column and runs or is held. -/
def CoreRec.inJob (c : CoreRec) : Bool :=
  c.stat.valid && (c.stat.run == .running || c.stat.run == .held)

/-- Whether a core counts as arrived at TSYNC (R135, R136). -/
def CoreRec.isArrived (c : CoreRec) : Bool := c.ctl.atTsync || c.ctl.stopped

/-- Cores of the job that have not arrived, faulted ones among them (R231). -/
def State.lateCores (s : State) : List Nat :=
  s.coreIds.filter fun p => (s.core p).stat.valid && !(s.core p).isArrived

/-- Whether every core of the job has executed STOP or has no code (R463 step 7). -/
def State.allStopped (s : State) : Bool :=
  s.cores.all fun e => !e.2.stat.valid || (e.2.stat.run == .idle && e.2.ctl.stopped)

/-- Cores of the job that their die steward holds (R237). -/
def State.heldCores (s : State) : List Nat :=
  s.coreIds.filter fun p => (s.core p).stat.valid && (s.core p).stat.run == .held

/-- The stall sum of a core as it stands, with the cycles of a hold that is still going on (R229). -/
def State.stallNow (s : State) (p : Nat) : Nat :=
  let c := s.core p
  match c.pipe.held with
  | some h => min 0xFFFF (c.ctl.stallSum + (s.clock.now - h.since))
  | none => c.ctl.stallSum

/-- Lowest of a list of numbers. -/
def lowest : List Nat → Nat
  | [] => 0
  | [x] => x
  | x :: xs => min x (lowest xs)

/-- Largest of a list of numbers. -/
def largest : List Nat → Nat
  | [] => 0
  | x :: xs => max x (largest xs)

/-- STRETCH_LEN as the events report it: 0 under FAULT (R233, R236). -/
def Clock.reportLen (c : Clock) : Nat := if c.stretch then c.stretchLen else 0
/-- The unit in which a tick held open grows (R233, R237). -/
def Clock.holdUnit (c : Clock) : Nat := if c.stretch then c.stretchLen else 512

/-- EV_TICK_OVERRUN, once a tick, about the cores `ps` (R236). -/
def State.overrunEvent (s : State) (kind : Nat) (ps : List Nat) : State :=
  if s.clock.overrunSent then s
  else
    let l := lowest (ps.map fun p => (s.core p).stat.lcore)
    ({ s with clock := { s.clock with overrunSent := true } }).raise 0x0202 panelNode l
      [(4, s.tick32), (1, kind), (2, l), (2, ps.length), (2, largest (ps.map s.stallNow)),
       (1, b2n (!s.clock.stretch)), (2, s.clock.reportLen)]

/-! ### Urgent slices (R238, R616 to R619) -/

/-- Work served per urgent slice, U of R616: granules, bytes or every unit, as each activity counts. -/
def bgU (a : Nat) : Nat :=
  match a with
  | 0 => 2048
  | 1 => 262144
  | 2 => 1
  | 3 => 1
  | 4 => 221184
  | 5 => 2097152
  | _ => 1

/-- Slice length of an activity (R616). -/
def bgSlice (a : Nat) : Nat :=
  match a with
  | 0 => 2048
  | 1 => 1024
  | 2 => 512
  | 3 => 256
  | 4 => 2048
  | 5 => 1024
  | _ => 256

/-- Period of an activity in units of 1/126 ns (R616); activity 5 has the patrol period of R409, in days. -/
def bgPeriod (a days : Nat) : Nat :=
  match a with
  | 0 => 10 * 126000000000
  | 1 => 126000000000
  | 2 => 12600000000
  | 3 => 126000000000
  | 4 => 86400 * 126000000000
  | 5 => days * 86400 * 126000000000
  | _ => 12600000000

/-- An activity's record. -/
def State.bgAct (s : State) (a : Nat) : BgAct := tget {} s.bg.acts a

/-- Change an activity's record. -/
def State.modAct (s : State) (a : Nat) (f : BgAct → BgAct) : State :=
  { s with bg := { s.bg with acts := tmod {} s.bg.acts a f } }

/-- Whether an activity is urgent at a boundary (R618). -/
def urgentNow (act : BgAct) (a spacing tickTime : Nat) : Bool :=
  let n := (act.work + bgU a - 1) / bgU a
  decide (0 < act.work) && decide (act.left / tickTime ≤ 2 * spacing * (n + 1))

/-- The urgency of one activity at a tick boundary: EV_BG_URGENT rises once each time it becomes urgent (R618, R619). -/
def State.urgency (s : State) (a : Nat) : State :=
  let act := s.bgAct a
  let u := act.urgent && decide (0 < act.work) || urgentNow act a s.bg.spacing (max 1 (s.clock.hdr.len * cycleTime s.clk.step))
  let s1 := s.modAct a fun x => { x with urgent := u }
  if u && !act.urgent then s1.raise 0x0E01 panelNode a [] else s1

/-- The length of the slice that this tick's decision inserts, 0 for none, as in a tick whose quiet window ends the job (R619). -/
def State.sliceLen (s : State) : Nat :=
  let urgent := (List.range 7).filter fun a => (s.bgAct a).urgent
  let near : Bool := match s.bg.lastSlice with
    | some t => decide (s.clock.tick.toNat < t + s.bg.spacing)
    | none => false
  if s.job.running && !near && !s.allStopped then largest (urgent.map bgSlice) else 0

/-- Insert the slice of this tick, when there is one (R238). -/
def State.insertSlice (s : State) : State :=
  let n := s.sliceLen
  if n = 0 then s
  else { s with clock := { s.clock with ins := s.clock.ins + n, quietIns := s.clock.quietIns + n },
                bg := { s.bg with lastSlice := some s.clock.tick.toNat } }

/-! ### Frequency steps at the boundary (R246, R517, R518, R544) -/

/-- Change the power block. -/
def State.modPwr (s : State) (f : Pwr → Pwr) : State := { s with pwr := f s.pwr }

/-- Change the clocks. -/
def State.modClk (s : State) (f : Clk → Clk) : State := { s with clk := f s.clk }

/-- The range of a step's setpoint in mV (R517). -/
def setpointRange (step : Nat) : Nat × Nat :=
  match step with
  | 0 => (660, 900)
  | 1 => (620, 840)
  | 2 => (600, 800)
  | 3 => (570, 760)
  | 4 => (550, 700)
  | _ => (550, 620)

/-- The setpoint of a step: the fused value, within its range (R517). -/
def setpointOf (step : Nat) : Nat := max (setpointRange step).1 (min (setpointRange step).2 (Config.setpoint step))

/-- Every erg that is up takes the setpoint of a step (R518). -/
def State.setSetpoints (s : State) (step : Nat) : State :=
  s.modPwr fun p => { p with ergs := tmap (fun _ e =>
    if e.mode = .up ∨ e.mode = .derated then { e with setpoint := setpointOf step } else e) p.ergs }

/-- At the boundary that starts tick T the step changes, for the whole panel at once (R544 steps 3 and 4, R246); a drop that R546 holds back
is then pending. -/
def State.stepDue (s : State) : State :=
  let c := s.clk
  if c.pending ∧ c.atTick.toNat ≤ s.clock.tick.toNat then
    let s1 := ((s.modClk fun c => { c with step := c.next, pending := false }).setSetpoints c.next).raise 0x0B03 panelNode noUnit []
    match c.drop with
    | none => s1
    | some d => (s1.modClk fun c => { c with
        next := d.1, pending := true, atTick := BitVec.ofNat 64 d.2, drop := none }).setSetpoints (min d.1 c.next)
  else s

/-! ### Barchan moves at the boundary (R90, R169) -/

/-- The register files, control state and flights that a handover carries (R88, R169). -/
def CoreRec.takeOver (dst src : CoreRec) : CoreRec :=
  { dst with
    regs := src.regs, ctl := src.ctl
    pipe := { src.pipe with meshBuf := [], streamBuf := [], ramp := [] }
    stat := { src.stat with mirror := false } }

/-- The boundary of tick H: the logical column runs on the former resting core, the rest position moves, mirroring stops,
and the vacated core starts its sweep (R90, R92). -/
def State.finishMove (s : State) (key : Nat) (m : Move) : State :=
  let site := key / 8
  let row := key % 8
  let src := pcoreAt site row m.src
  let dst := pcoreAt site row m.rest
  let c := s.core src
  let s1 := ((s.setCore dst ((s.core dst).takeOver c)).setCore src { c with stat := { c.stat with valid := false, lcore := 0 } }).sweepCore src
  let s2 := match s.ldAt site with
    | some ld => s1.moveRest (8 * ld + row) m.src
    | none => s1
  { s2 with panel := { s2.panel with moves := tdel s2.panel.moves key } }

/-- Write mirroring begins: the source's writes are repeated into the resting core (R90). -/
def State.startMirror (s : State) (key : Nat) (m : Move) : State :=
  let at_ (c : Nat) : Nat := pcoreAt (key / 8) (key % 8) c
  (((s.modStat (at_ m.src) fun c => { c with mirror := true }).modStat (at_ m.rest) fun c => { c with run := .receiving })).modPanel
    fun p => { p with moves := tput p.moves key { m with phase := .copying } }

/-- What a boundary does to a move. -/
def State.moveBoundary (s : State) (key : Nat) (m : Move) : State :=
  match m.phase with
  | .checked => s.startMirror key m
  | .copied => s.modPanel fun p => { p with moves := tput p.moves key { m with phase := .ready } }
  | .passing => s.finishMove key m
  | _ => s

/-- Every handover that was carried out in the quiet window takes effect, and every move whose check has passed begins to mirror. -/
def State.finishMoves (s : State) : List (Nat × Move) → State
  | [] => s
  | (k, m) :: r => (s.moveBoundary k m).finishMoves r

/-! ### Route versions that wait (R268, R269) -/

/-- Every site of the panel. -/
def allSites : List Nat := List.range 144

/-- Change every die's mesh registers. -/
def State.eachDie (s : State) (f : Nat → MeshDie → MeshDie) : State :=
  s.each (fun s site => s.modDie site (f site)) allSites

/-- Whether every die satisfies a condition. -/
def State.allDies (s : State) (p : MeshDie → Bool) : Bool := allSites.all fun site => p (s.meshDie site)

/-- Whether firmware may load a version now (R269). -/
def State.mayLoad (s : State) : Bool := s.allDies fun d => decide (d.hold = 0) && !d.pending

/-- Firmware writes a version into the inactive epoch (R268 step 1): its detours as R266 lets them stand, and the circuit and tag entries of the
program that is loaded, laid on its routes (R275). -/
def State.loadVersion (s : State) (v : RouteVersion) : State :=
  let v1 := s.layDetours v
  let v2 := if s.job.live && !s.job.image.isEmpty then s.placeTables s.job.image v1 else v1
  let m := s.mesh.versions
  ({ s with mesh := { s.mesh with
      versions := if m.1 then (m.1, v2, m.2.2) else (m.1, m.2.1, v2)
      waiting := none } }).eachDie fun _ d => { d with loaded := false }

/-- A version that waits is loaded once it may be (R269). -/
def State.loadWaiting (s : State) : State :=
  match s.mesh.waiting with
  | some v => if s.mayLoad then s.loadVersion v else s
  | none => s

/-! ### The boundary -/

/-- A core at a tick boundary: counts copied and cleared, those of a bundle that it holds included (R167), a core that waits at TSYNC issues in the new tick's
first cycle (R134, R135), EV_ROUTE_DROP raised once for its refused actions (R214). -/
def State.coreBoundary (s : State) (start : Nat) (p : Nat) : State :=
  let c := (s.core p).settle start
  let t := c.count.total + c.ctl.stallSum
  let full := 2 ^ 63 - 1
  let cnt := { c.count with
    lastConflict := c.ctl.tickConflict, lastSeif := c.ctl.tickSeif, lastStream := c.ctl.tickStream
    total := min full t, totalOvf := c.count.totalOvf || decide (full < t) }
  let go := c.ctl.atTsync && (c.stat.run == .running || c.stat.run == .held)
  let s1 := s.setCore p { c with
    count := cnt
    ctl := { c.ctl with
      tickConflict := 0, tickSeif := 0, tickStream := 0, stallSum := 0, c0Sent := 0, atTsync := false
      readyAt := if go then some start else c.ctl.readyAt }
    pipe := { c.pipe with arrived := none, margin := false, dropCount := 0, dropFirst := 0, c0Refused := false } }
  let s2 := s1.cntOvf (decide (full < t) && !c.count.totalOvf) (coreWin p + 0x20) 0 (nodeAt (pSite p) 0)
  if 0 < c.pipe.dropCount then
    s2.raise 0x0203 (nodeAt (pSite p) 0) c.stat.lcore
      [(2, c.stat.lcore), (1, c.pipe.dropFirst), (4, c.pipe.dropCount)]
  else s2

/-- A die's mesh registers at a boundary: MESH_LATE of the tick that ends, and HOLD falls by 1 (R268, 07). -/
def MeshDie.boundary (d : MeshDie) : MeshDie :=
  { d with delayMax := d.curDelay, late := d.curLate, curDelay := 0, curLate := 0, hold := d.hold - 1 }

/-- A stack at a boundary: a region copy that has ended serves from its spare, and a spare that failed in its place no more (R318 step 3). -/
def StackRec.boundary (r : StackRec) : StackRec :=
  let r1 := { r with badThisTick := [], lateWin := [] }
  match r.copy with
  | some c =>
    if c.done then { r1 with
      spares := tmap (fun i x => if x.region = c.region ∧ i ≠ c.spare then { x with used := false } else x) r1.spares
      copying := none, copy := none }
    else r1
  | none => r1

/-- Whether a region copy of a stack switches at this boundary. -/
def StackRec.switches (r : StackRec) : Bool := r.copy.any fun c => c.done

/-- After the switches of a boundary: one record with the new STACK_SPARE entries, to whose generation the running program is rebound,
EV_PLS_REGION for each stack, and the next retirement that waited (R318). -/
def State.regionSwitch (s : State) (ns : List Nat) : State :=
  if ns.isEmpty then s
  else
    s.commitRecord.rebindJob.each (fun s n =>
      let s1 := s.raise 0x0403 (nodeOfStack n) n []
      match (s1.stack n).retireQ with
      | [] => s1
      | x :: r => (s1.modStack n fun k => { k with retireQ := r }).startCopy n x) ns

/-- The tick header that the next tick runs by (R220): a loaded job's from its first tick on, the idle one while no job
runs; a job that a restore has stopped keeps its own. -/
def Job.header (j : Job) (now : TickHdr) : TickHdr :=
  match j.phase with
  | .ready => j.hdr
  | .none_ => {}
  | .sweep => {}
  | .loading => {}
  | .waitSweep => {}
  | .restoring => if j.started then now else {}
  | .waitDie => if j.started then now else {}
  | _ => now

/-- A core of a loaded job at the boundary of its first tick: it issues bundle 0x000 in the first cycle (R164); one with
no code counts as stopped (R463 step 6). -/
def CoreRec.begin (c : CoreRec) (b : Nat) : CoreRec :=
  if c.stat.valid ∧ c.stat.run = .idle ∧ !c.ctl.stopped ∧ c.ctl.pageValid = 0xFF#8 then
    { c with stat := { c.stat with run := .running }, ctl := { c.ctl with readyAt := some b } }
  else c

/-- A new job's first tick: with a quiet window too short for handovers firmware raises EV_THM_ROT, once for the job (R552), every erg may raise
EV_PWR_UNHINTED again (R523), and no core has been held in it (R237). -/
def State.newJob (s : State) : State :=
  if s.job.started then s
  else
    let s1 : State := { s with
      pwr := { s.pwr with ergs := tmap (fun _ e => { e with noted := false }) s.pwr.ergs }
      clock := { s.clock with heldJob := false } }
    if s.job.hdr.quiet < 112 then s1.raise 0x0B07 panelNode noUnit [] else s1

/-- Whether the loaded program may not start because some half-die of the panel is stretched (R243). -/
def State.stretchBars (s : State) : Bool :=
  !s.job.hdr.test && s.clk.die.any fun e => e.2.stretchW != 0 || e.2.stretchE != 0

/-- The job fails before its program is in the cores: its START ends, and the device stays READY (R463). -/
def State.failStart (s : State) (code : Nat) : State :=
  ({ s with job := { s.job with phase := .none_, aborts := [], image := [] } }).finishCmd s.job.queue s.job.slot code

/-- R243 refuses the program with ST_TICK_HDR; a job that had started ends with it. -/
def State.refuseStretched (s : State) : State := if s.job.started then s.endJob 0x060 else s.failStart 0x060

/-- A loaded job starts at this boundary (R220, R463 step 6), unless R243 refuses it. -/
def State.beginJob (s0 : State) (b : Nat) : State :=
  if s0.job.phase = .ready ∧ s0.stretchBars then s0.refuseStretched
  else if s0.job.phase = .ready then
    let s := s0.newJob
    let n := s.clock.tick.toNat
    ({ s with
      cores := tmap (fun _ c => c.begin b) s.cores
      panel := { s.panel with
        mode := .running
        die := tmap (fun site d => if d == DieMode.ready && s.roleOf site == Role.bound then DieMode.running else d) s.panel.die }
      nvm := { s.nvm with mode := if s.job.spec.record then .recording else s.nvm.mode }
      job := { s.job.touch with phase := .running, running := true, started := true, firstTick := n, regFirst := n } }).modStatus
        s.job.queue s.job.slot fun w => { w with phase := 3 }
  else s0

/-- A tick boundary (R217): the clock reaches it, every core, die and stack closes its tick, the counter advances, the step that is due
changes (R246), and the next tick begins with no inserted cycle. -/
def State.tickBoundary (s0 : State) : State :=
  let b := s0.boundary
  let s := (s0.advance b).syncAll
  let took := (s.clock.hdr.len + s.clock.ins) * cycleTime s.clk.step
  let s1 := s.finishMoves s.panel.moves
  let s2 := s1.each (fun s p => s.coreBoundary b p) s1.coreIds
  let s3 : State := { s2 with
    clock := { s2.clock with
      start := b, tick := s2.clock.tick + 1#64, hdr := s2.job.header s2.clock.hdr, ins := 0, quietIns := 0, late := [], lateOpen := false,
      heldOpen := false, decided := false, heldTick := false, overrunSent := false }
    mesh := { s2.mesh with
      die := tmap (fun _ d => d.boundary) s2.mesh.die
      slots := s2.mesh.slots.filter fun u => decide ((s2.clock.now : Int) ≤ u.origin + 1600)
      windows := [] }
    plos := { s2.plos with rec_ := tmap (fun _ r => r.boundary) s2.plos.rec_ }
    win := { s2.win with drop := tmap (fun _ d => { d with sentTick := false, badTick := false }) s2.win.drop }
    panel := { s2.panel with restSeen := s2.panel.rest }
    bg := { s2.bg with acts := tmap (fun _ a => { a with left := a.left - took }) s2.bg.acts } }
  let ns := (s2.plos.rec_.filter fun e => e.2.switches).map (·.1)
  (((s3.stepDue.loadWaiting).beginJob b).regionSwitch ns).each State.urgency (List.range 7)

/-- The entries that still hold a partial, by position and tag (R278 kind 0x3). -/
def State.openPartials (s : State) : List Nat :=
  ((s.mesh.partials.filter fun e => !e.2.sent).map fun e => e.1 / 4).eraseDups

/-- R221, R278: the quiet window begins after any inserted cycles of lateness or holding; an entry that still holds a
partial ends the job. -/
def execQuietWindowStart (s : State) : Out :=
  let s1 := (s.advance (s.clock.start + s.clock.hdr.d + s.clock.ins)).syncAll
  .next ((s1.each (fun s k => s.redFault (k / 16384) (k % 16384) 3) s1.openPartials))

/-- R231 to R238: at cycle D the panel finds the held and the late cores and decides the tick's length, once a tick. A core is not
late in a tick whose quiet window ends the job. -/
def execLateDecision (s : State) : Out :=
  if s.clock.decided then .next s
  else
  let s0 := (s.advance (s.clock.start + s.clock.hdr.d)).syncAll
  let s1 : State := { s0 with clock := { s0.clock with decided := true } }
  let held := s1.heldCores
  let late := s1.lateCores
  if !s1.job.running then .next s1
  else if !held.isEmpty then
    .next (({ s1 with clock := { s1.clock with
        heldOpen := true, heldTick := true, heldJob := true, late := late, ins := s1.clock.ins + s1.clock.holdUnit } }.overrunEvent 4
      held).insertSlice)
  else if !late.isEmpty then
    if s1.clock.stretch then
      .next ({ s1 with clock := { s1.clock with
          lateOpen := true, late := late, ins := s1.clock.ins + s1.clock.stretchLen } }.insertSlice)
    else .next (((s1.overrunEvent 1 late).endJob 0x062))
  else .next s1.insertSlice

/-- R234, R236, R237: at D + STRETCH_LEN a core still late ends the job; a tick held open grows by one unit until every
held core is resumed and every core has arrived. -/
def State.stretchCheck (s : State) : State :=
  let at_ := s.clock.start + s.clock.hdr.d + (s.clock.ins - s.clock.quietIns)
  let s1 := (s.advance at_).syncAll
  let late := s1.lateCores
  let held := s1.heldCores
  if s1.clock.heldOpen then
    if held.isEmpty && late.isEmpty then { s1 with clock := { s1.clock with heldOpen := false } }
    else { s1 with clock := { s1.clock with ins := s1.clock.ins + s1.clock.holdUnit } }
  else if s1.clock.lateOpen then
    let s2 := { s1 with clock := { s1.clock with lateOpen := false } }
    if late.isEmpty then s2.overrunEvent 1 s1.clock.late
    else (s2.overrunEvent 3 late).endJob 0x062
  else s1

/-- R234, R237. -/
def execStretchCheck (s : State) : Out := .next s.stretchCheck

/-- R217, R167: the boundary comes once the tick's check has been made (R234), and not while the tick is held open (R237). -/
def execTickBoundary (s : State) : Out :=
  let s1 := if s.clock.lateOpen || s.clock.heldOpen then s.stretchCheck else s
  .next (if s1.clock.heldOpen then s1 else s1.tickBoundary.pace)

/-- R230: a core's stall sum exceeds B + M while no core of the job is held, in a tick that was not held open (R237): the job ends, and the
event names every core that exceeds it. -/
def execMarginFault (p : PCore) (s : State) : Out :=
  let s1 := s.syncAll
  let lim := s1.clock.hdr.budget + s1.clock.hdr.margin
  if s1.job.running && !s1.clock.heldTick && s1.heldCores.isEmpty && (s1.core p).inJob && decide (lim < s1.stallNow p) then
    let excess := s1.coreIds.filter fun q => (s1.core q).inJob && decide (lim < s1.stallNow q)
    .next (((s1.modPipe p fun c => { c with margin := true }).overrunEvent 2 excess).endJob 0x061)
  else .next s1

end Sys2Proof.Machine
end

