-- ==== Sys2Proof/Machine/Mesh.lean ====
section
/-! DEFINITION. The mesh (07): slots and arbitration, landing, errors, route versions and the epoch flip, circuits, and
reduction in flight. -/

namespace Sys2Proof.Machine

open Sys2Proof

/-- A flit by its number. -/
def State.flit (s : State) (i : Nat) : Option Flit := tfind s.mesh.flits i

/-- The header that a flit carries on the wire (R253). -/
def Flit.header (f : Flit) : BitVec 96 :=
  BitVec.ofNat 96 (f.cls % 4 * 2 ^ 94 + f.kind % 16 * 2 ^ 90 + b2n f.epoch * 2 ^ 89 + f.idx % 4 * 2 ^ 87 + b2n f.last * 2 ^ 86 +
    b2n f.sched * 2 ^ 85 + f.poison.toNat * 2 ^ 77 + f.dest % 2 ^ 14 * 2 ^ 63 + f.src % 2 ^ 14 * 2 ^ 49 + f.inc.toNat * 2 ^ 41 +
    f.delay % 2 ^ 10 * 2 ^ 31 + f.arg % 2 ^ 15 * 2 ^ 16 + f.laps % 8 * 2 ^ 13)

/-- A flit with the fields that a header names (R253). -/
def Flit.ofHeader (f : Flit) (h : BitVec 96) : Flit :=
  let w := h.toNat
  { f with
    cls := bitsOf w 94 2, kind := bitsOf w 90 4, epoch := bitOf w 89, idx := bitsOf w 87 2, last := bitOf w 86, sched := bitOf w 85
    poison := BitVec.ofNat 8 (bitsOf w 77 8), dest := bitsOf w 63 14, src := bitsOf w 49 14, inc := BitVec.ofNat 8 (bitsOf w 41 8)
    delay := bitsOf w 31 10, arg := bitsOf w 16 15, laps := bitsOf w 13 3 }

/-- Put back a flit. -/
def State.setFlit (s : State) (i : Nat) (f : Flit) : State :=
  { s with mesh := { s.mesh with flits := tput s.mesh.flits i f } }

/-- Take a flit off the mesh. -/
def State.dropFlit (s : State) (i : Nat) : State := { s with mesh := { s.mesh with flits := tdel s.mesh.flits i } }

/-- A flit dropped for its epoch is counted, with EV_MESH_FLIP (R268 step 6). -/
def State.countOldEpoch (s : State) (site : Nat) : State :=
  let d := s.meshDie site
  let b := bump 0xFF d.oldEpoch d.dropOvf
  ((s.modDie site fun d => { d with oldEpoch := b.1, dropOvf := b.2.1 }).cntOvf b.2.2 (dieWin site + 0x120) 8 (nodeAt site 0)).raise
    0x0304 (nodeAt site 0) site []

/-- Count a flit dropped for a stale incarnation. -/
def State.countStale (s : State) (site : Nat) : State :=
  let d := s.meshDie site
  let b := bump 0xFF d.staleInc d.dropOvf
  (s.modDie site fun d => { d with staleInc := b.1, dropOvf := b.2.1 }).cntOvf b.2.2 (dieWin site + 0x120) 16
    (nodeAt site 0)

/-- Whether a site's router is in service. -/
def State.routerUp (s : State) (site : Nat) : Bool := tget false s.panel.routerUp site

/-- The direction's number among the off-ramp queues. -/
def dirNo : Dir → Nat
  | .local => 0
  | .north => 1
  | .east => 2
  | .south => 3
  | .west => 4

/-- Where a flit that has joined a channel comes to. -/
inductive Stop where
  | land (pos : Nat)
  | turn (pos : Nat)
  | entry (pos : Nat) (input : Dir)
  | edge (pos : Nat)
  | lost (pos : Nat)
  deriving DecidableEq, Repr

/-- What position `x` does with a flit that comes to it in direction `d` (R250, R262, R276): it takes it off at a tag entry that waits for it,
where it lands or turns, and where it is out of service; none where the flit goes on. `red` is the tag of a reduction flit. -/
def State.stopAt (s : State) (v : RouteVersion) (d : Dir) (dst red : Option Nat) (x : Nat) : Option Stop :=
  if !s.routerUp (siteOfPos x) then some (.lost x)
  else match red with
    | some tag =>
      match tagEntryAt v x tag with
      | some e => if expects e (dirBack d) then some (.entry x (dirBack d)) else none
      | none => none
    | none =>
      match dst with
      | none => some (.lost x)
      | some t =>
        match nextDir v x t with
        | none => some (.land x)
        | some d' => if d' = d then none else some (.turn x)

/-- Follow a channel from position (P, Q) in direction `d`, at most to the panel's edge. -/
def State.walk (s : State) (v : RouteVersion) (d : Dir) (dst red : Option Nat) : Nat → Nat → Nat → Stop
  | 0, P, Q => .lost (posOf P Q)
  | n + 1, P, Q =>
    match stepDir d P Q with
    | none => .edge (posOf P Q)
    | some (P', Q') =>
      match s.stopAt v d dst red (posOf P' Q') with
      | some e => e
      | none => s.walk v d dst red n P' Q'

/-- Past the turnaround at the edge position `x` a flit goes on along the opposite channel of its ring (R250). -/
def State.walkBack (s : State) (v : RouteVersion) (d : Dir) (dst red : Option Nat) (x : Nat) : Stop :=
  match s.stopAt v d dst red x with
  | some e => e
  | none =>
    match s.walk v d dst red 156 (x % 156) (x / 156) with
    | .edge y => .lost y
    | e => e

/-- Where a flit that joins a channel comes to, and the edge position at which its ring turns it round on its way there. -/
def State.ride (s : State) (v : RouteVersion) (d : Dir) (dst red : Option Nat) (P Q : Nat) : Stop × Option Nat :=
  match s.walk v d dst red 156 P Q with
  | .edge x => (s.walkBack v (dirBack d) dst red x, some x)
  | e => (e, none)

/-- The position at which a walk stops. -/
def Stop.pos : Stop → Nat
  | .land x => x
  | .turn x => x
  | .entry x _ => x
  | .edge x => x
  | .lost x => x

/-- A stretch of a channel that a flit rides: from and to, as distances from its origin, and the cycles from the slot's name at the origin of the
ride's first channel to that at this one's. -/
structure Stretch where
  chan : Nat
  lo : Nat
  hi : Nat
  off : Nat
  deriving DecidableEq, Repr

/-- The stretches of a ride from position (P, Q) to `x`, which turns round at `edge` when it does: half a ring lies between the origins of
the two channels of a ring (R252). -/
def stretches (d : Dir) (P Q x : Nat) (edge : Option Nat) : List Stretch :=
  match edge with
  | none => [⟨chanOf d P Q, distOn d P Q, distOn d (x % 156) (x / 156), 0⟩]
  | some y =>
    let b := dirBack d
    [⟨chanOf d P Q, distOn d P Q, distOn d (y % 156) (y / 156), 0⟩,
     ⟨chanOf b P Q, distOn b (y % 156) (y / 156), distOn b (x % 156) (x / 156), ringLen d / 2⟩]

/-- The cycles from a slot's passing the first position of a ride to its passing the last (R251, R252). -/
def rideTime : List Stretch → Nat
  | [] => 0
  | a :: r => (r.foldl (fun _ b => b.off + b.hi) a.hi) - a.lo

/-- The open mask of a channel (R259): bits 1 to 15 while no job runs. -/
def State.maskOf (s : State) (v : RouteVersion) (chan : Nat) : BitVec 16 :=
  if s.job.running then tget 0xFFFE#16 v.masks chan else 0xFFFE#16

/-- Whether the slot that passes a position, `dist` from its channel's origin, in cycle `c` is of a kind open to a flit
(R259, R272, R615), as the circuits' windows stand in that cycle. -/
def State.slotOpen (s : State) (v : RouteVersion) (f : Flit) (chan dist c : Nat) : Bool :=
  let name : Int := (c : Int) - dist - s.clock.start
  let m32 := (name % 32).toNat
  let m16 := m32 % 16
  if f.cls = 0 then decide (m32 = if f.sched then 0 else 16)
  else if m16 = 0 then false
  else if f.sched then true
  else
    let quiet := !s.job.running || decide ((s.clock.hdr.d : Int) ≤ name)
    !s.circuitOn v chan dist c && (quiet || (s.maskOf v chan).getLsbD m16)

/-- Whether a slot is empty over a stretch of its channel. -/
def slotEmpty (us : List SlotUse) (chan : Nat) (origin : Int) (lo hi : Nat) : Bool :=
  !us.any fun u => u.chan == chan && decide (u.origin = origin) && decide (u.lo < hi) && decide (lo < u.hi)

/-- Whether one more C0 flit of a kind, with the slot of name `o` over a stretch, would let some position see more than 3 within 1,024 consecutive
cycles (condition 4 of R280). -/
def c0Full (us : List SlotUse) (kind chan lo hi : Nat) (o : Int) : Bool :=
  let mine := us.filter fun u => u.chan == chan && u.c0 == kind && decide (u.lo ≤ hi) && decide (lo ≤ u.hi)
  (lo :: mine.map (·.lo)).any fun x => decide (lo ≤ x) &&
    (o :: mine.map (·.origin)).any fun w => decide (w ≤ o) && decide (o < w + 1024) &&
      decide (3 ≤ (mine.filter fun u => decide (u.lo ≤ x) && decide (x ≤ u.hi) && decide (w ≤ u.origin) && decide (u.origin < w + 1024)).length)

/-- The kind of a C0 flit: 1 scheduled, 2 unscheduled; 0 for a flit of another class. -/
def Flit.c0Kind (f : Flit) : Nat := if f.cls = 0 then (if f.sched then 1 else 2) else 0

/-- Whether a flit may have the slot that passes the start of its ride in cycle `c`: every stretch is empty; a C0 flit of a steward, a gateway
or a base die waits in its queue also while it would break condition 4 of R280 (R281, R390). -/
def slotFree (us : List SlotUse) (f : Flit) (rs : List Stretch) (c : Nat) : Bool :=
  let lo := match rs with
    | r :: _ => r.lo
    | [] => 0
  rs.all fun r => slotEmpty us r.chan ((c : Int) - lo + r.off) r.lo r.hi &&
    !(decide (f.cls = 0) && decide (0x3000 ≤ f.src) && f.inp == .local && c0Full us f.c0Kind r.chan r.lo r.hi ((c : Int) - lo + r.off))

/-- The first cycle from `c` on whose slot is open to the flit and free for its ride, with the number of open slots
that passed taken (R261, R263 step 2). -/
def State.findSlot (s : State) (v : RouteVersion) (f : Flit) (rs : List Stretch) : Nat → Nat → Nat → Option (Nat × Nat)
  | 0, _, _ => none
  | n + 1, c, lost =>
    match rs with
    | [] => none
    | r :: _ =>
      if s.slotOpen v f r.chan r.lo c then
        if slotFree s.mesh.slots f rs c then some (c, lost) else s.findSlot v f rs n (c + 1) (lost + 1)
      else s.findSlot v f rs n (c + 1) lost

/-- The most C0 flits of one kind that a position, `x` from the origin of a channel, sees in two aligned 512-cycle
windows of which the one of cycle `c` is one (R283). -/
def c0Seen (us : List SlotUse) (chan kind x c : Nat) : Nat :=
  let k : Int := ((c / 512 : Nat) : Int)
  let at_ (w : Int) : Nat := (us.filter fun u => u.chan == chan && u.c0 == kind && decide (u.lo ≤ x) && decide (x ≤ u.hi) &&
    decide ((u.origin + (x : Int)) / 512 = w)).length
  at_ k + max (at_ (k - 1)) (at_ (k + 1))

/-- The positions of a stretch in direction `d` through (P, Q). -/
def stretchPositions (d : Dir) (P Q : Nat) (r : Stretch) : List (Nat × Nat) :=
  let ps := (List.range 156).map fun i => match d with
    | .east => (i, Q)
    | .west => (i, Q)
    | _ => (P, i)
  ps.filter fun p => decide (p.2 < 96) && decide (r.lo ≤ distOn d p.1 p.2) && decide (distOn d p.1 p.2 ≤ r.hi)

/-- R283: every die of whose positions one on the stretch now sees more than 3 C0 flits of the kind. The slot passes the distance `lo` in cycle
`c`. -/
def State.c0Check (s : State) (d : Dir) (P Q kind c lo : Nat) (r : Stretch) : State :=
  if kind = 0 then s
  else
    let seen := (stretchPositions d P Q r).filter fun p =>
      decide (3 < c0Seen s.mesh.slots r.chan kind (distOn d p.1 p.2) (c + distOn d p.1 p.2 - lo))
    s.each (fun s site => (s.modDie site fun m => { m with loadOver := true }).raise 0x0308 (nodeAt site 0) site [])
      (seen.map fun p => siteOfPos (posOf p.1 p.2)).eraseDups

/-- An entry's partial of a flit has left: the entry is idle once all four have (R277). -/
def State.partialLeft (s : State) (key : Nat) : State :=
  let base := key / 4 * 4
  let t := tmod ⟨[], 0#8, [], 0, true⟩ s.mesh.partials key fun p => { p with sent := true }
  let done := (List.range 4).all fun i => match tfind t (base + i) with
    | some p => p.sent
    | none => false
  let t' := if done then tfilter (fun k _ => decide (k / 4 ≠ base / 4)) t else t
  { s with mesh := { s.mesh with partials := t' } }

/-- A message has left the core's unscheduled send buffer with its last flit (R211). -/
def State.leftBuffer (s : State) (f : Flit) : State :=
  if f.fromBuf && f.last then
    match s.pcoreOf f.src with
    | some p => s.modPipe p fun c => { c with sendBuf := c.sendBuf - 1 }
    | none => s
  else s

/-- A flit that a position drops leaves its core's send buffer and, as a wadi write, is reported to its account (R659, R393). -/
def State.flitGone (s : State) (f : Flit) : State := (if f.kind = 3 then s.account f.tag false else s).leftBuffer f

/-- Whether a position drops a flit at once: its epoch is no longer routed, or its source's incarnation is stale. -/
def State.dropCheck (s : State) (site : Nat) (f : Flit) : Option (State → State) :=
  let d := s.meshDie site
  if f.epoch != d.active && decide (d.hold = 0) then some fun s => s.countOldEpoch site
  else if f.inc ≠ inc8 (s.incOf f.src) then some fun s => s.countStale site
  else none

/-- What becomes of a flit at its arbitration point: it has no route (R659), leaves the mesh where it is, or rides in direction `d` to a stop,
turned round at an edge or not, in the slot that passes in a cycle after a number of lost ones. -/
inductive Plan where
  | none_
  | stay
  | go (d : Dir) (stop : Stop) (edge : Option Nat) (slot : Option (Nat × Nat))
  deriving DecidableEq, Repr

/-- The plan of a flit that waits at `pos` from cycle `ready` on (R251, R259 to R263, R267). -/
def State.plan (s : State) (f : Flit) (pos ready : Nat) : Plan :=
  let v := s.mesh.version f.epoch
  let P := pos % 156
  let Q := pos / 156
  let red := if f.kind = 1 then some f.arg else none
  let dst := if f.kind = 1 then none else s.nodePos v f.dest pos
  let dir : Option Dir := match red with
    | some tag => match tagEntryAt v pos tag with
      | some e => match e.out with
        | .send d => some d
        | .land .. => none
      | none => none
    | none => match dst with
      | some t => nextDir v pos t
      | none => none
  if f.kind ≠ 1 ∧ dst.isNone then .none_
  else match dir with
    | none => .stay
    | some d =>
      let e := s.ride v d dst red P Q
      .go d e.1 e.2 (s.findSlot v f (stretches d P Q e.1.pos e.2) 4096 (max ready s.clock.now) 0)

/-- A flit's slot is held over a stretch of its ride, and the crossings of stretched seams there (R245, R283). -/
def State.rideOn (s : State) (d : Dir) (P Q kind c lo end_ : Nat) (r : Stretch) : State × Nat :=
  let o : Int := (c : Int) - lo + r.off
  let s1 := { s with mesh := { s.mesh with slots := ⟨r.chan, o, r.lo, r.hi, kind⟩ :: s.mesh.slots } }
  (s1.c0Check d P Q kind (c + r.off) lo r).crossSeams d P Q end_ (c + r.off + r.lo - lo)

/-- The whole ride: its second stretch, when it turns round, begins at the edge position. -/
def State.rideAll (s : State) (d : Dir) (P Q x kind c : Nat) (edge : Option Nat) : State × Nat :=
  match stretches d P Q x edge, edge with
  | [a], _ => s.rideOn d P Q kind c a.lo (x % 156) a
  | [a, b], some y =>
    let g := s.rideOn d P Q kind c a.lo (y % 156) a
    let h := g.1.rideOn (dirBack d) (y % 156) (y / 156) kind c a.lo (x % 156) b
    (h.1, g.2 + h.2)
  | _, _ => (s, 0)

/-- R251, R259 to R263, R245: the flit takes its slot in the first cycle it can, and travels to the next position where something
happens to it, later by what it waits at stretched seams and at that position's row shift stage. -/
def State.arbitrate (s : State) (i : Nat) : State :=
  match s.flit i with
  | none => s
  | some f =>
    match f.pos with
    | .ramp pos ready =>
      let site := siteOfPos pos
      match s.dropCheck site f with
      | some drop => (drop (s.dropFlit i)).flitGone f
      | none =>
        match s.plan f pos ready with
        | .none_ => ((s.dropFlit i).countLost site).flitGone f
        | .stay => (s.leftBuffer f).setFlit i { f with fromBuf := false, pos := .land pos (max ready s.clock.now + 2) .local }
        | .go _ _ _ none => s
        | .go d stop edge (some (c, lost)) =>
          let arr := c + rideTime (stretches d (pos % 156) (pos / 156) stop.pos edge)
          let n := s.shiftAt stop.pos
          let f1 := { f with fromBuf := false, delay := if f.sched then min 1023 (f.delay + lost) else f.delay }
          let s1 := (s.advance c).leftBuffer f
          let s2 := match f.tag with
            | some key => if f.kind = 1 then s1.partialLeft key else s1
            | none => s1
          let g := s2.rideAll d (pos % 156) (pos / 156) stop.pos f.c0Kind c edge
          let dIn := if edge.isSome then dirBack d else d
          match stop with
          | .land x => g.1.setFlit i { f1 with pos := .land x (arr + g.2 + n + 2) dIn }
          | .turn x => g.1.setFlit i { f1 with pos := .ramp x (arr + g.2 + 2 + n), inp := dirBack dIn }
          | .entry x inp => g.1.setFlit i { f1 with pos := .entry x (arr + g.2 + n) inp }
          | .edge x => ((g.1.dropFlit i).countLost (siteOfPos x)).flitGone f1
          | .lost x => ((g.1.dropFlit i).countLost (siteOfPos x)).flitGone f1
    | _ => s

/-! ### Several flits ready for one slot (R249, R261) -/

/-- The order in which an arbitration point takes flits: scheduled ones first, then by input, local first, a core's before those of the other
nodes that share its local port (R249), then as they became ready. -/
def Flit.rank (i : Nat) (f : Flit) : List Nat :=
  let ready := match f.pos with
    | .ramp _ r => r
    | _ => 0
  [b2n !f.sched, dirNo f.inp, b2n (decide (0x3000 ≤ f.src)), ready, i]

/-- Lexicographic order. -/
def rankLt : List Nat → List Nat → Bool
  | a :: as, b :: bs => decide (a < b) || (decide (a = b) && rankLt as bs)
  | _, _ => false

/-- The slot, as its channel and cycle, that a waiting flit would take now. -/
def State.wants (s : State) (f : Flit) : Option (Nat × Nat) :=
  match f.pos with
  | .ramp pos ready =>
    if (s.dropCheck (siteOfPos pos) f).isSome then none
    else match s.plan f pos ready with
      | .go d _ _ (some (c, _)) => some (chanOf d (pos % 156) (pos / 156), c)
      | _ => none
  | _ => none

/-- Where a flit waits. -/
def FlitPos.at_ : FlitPos → Option Nat
  | .ramp pos _ => some pos
  | _ => none

/-- The flit that the point takes before flit `i` for the slot that this one would take, none where that is `i` itself. -/
def State.rival (s : State) (i : Nat) (f : Flit) : Option Nat :=
  let rs := s.mesh.flits.filter fun e =>
    e.1 != i && e.2.pos.at_.isSome && e.2.pos.at_ == f.pos.at_ && rankLt (e.2.rank e.1) (f.rank i) && (s.wants f).isSome && s.wants e.2 == s.wants f
  rs.foldl (fun b e => match b with
    | none => some e.1
    | some j => match s.flit j with
      | some g => if rankLt (e.2.rank e.1) (g.rank j) then some e.1 else b
      | none => some e.1) none

/-- A flit takes its slot once those that its point takes first for that slot have taken theirs. -/
def State.contest (s : State) (i : Nat) : Nat → State
  | 0 => s.arbitrate i
  | n + 1 =>
    match s.flit i with
    | none => s
    | some f =>
      match s.rival i f with
      | none => s.arbitrate i
      | some j => (s.arbitrate j).contest i n

/-- R261. -/
def execArbitration (flit : Nat) (s : State) : Out := .next (s.contest flit s.mesh.flits.length)

/-! ### Laps (R250, R252, R262) -/

/-- The positions of a ring that a flit at position `x` passes after it in one lap in direction `d`. -/
def ringAfter (d : Dir) (x : Nat) : List Nat :=
  let ps := match d with
    | .east => (List.range 156).map fun i => posOf i (x / 156)
    | .west => (List.range 156).reverse.map fun i => posOf i (x / 156)
    | .south => (List.range 96).map fun i => posOf (x % 156) i
    | .north => (List.range 96).reverse.map fun i => posOf (x % 156) i
    | .local => []
  (ps.dropWhile (· ≠ x)).drop 1 ++ ps.reverse ++ ps.takeWhile (· ≠ x)

/-- An unscheduled flit that cannot leave its channel at position `x`, which its slot passes in cycle `c`, goes on round its ring in that
slot and adds 1 to LAPS; the first position of its ring that is out of service drops it (R262). -/
def State.goRound (s : State) (i : Nat) (f : Flit) (x c due : Nat) (d : Dir) : State :=
  match (ringAfter d x).find? fun y => !s.routerUp (siteOfPos y) with
  | some y => ((s.dropFlit i).countLost (siteOfPos y)).flitGone f
  | none =>
    let P := x % 156
    let Q := x / 156
    let b := dirBack d
    let o : Int := (c : Int) - distOn d P Q
    let half := ringLen d / 2
    let end_ := match d with
      | .east => 223
      | .west => 223
      | _ => 139
    let us : List SlotUse :=
      [⟨chanOf d P Q, o, distOn d P Q, end_, f.c0Kind⟩, ⟨chanOf b P Q, o + half, 0, end_, f.c0Kind⟩,
       ⟨chanOf d P Q, o + ringLen d, 0, distOn d P Q, f.c0Kind⟩]
    { s with mesh := { s.mesh with slots := us ++ s.mesh.slots } }.setFlit i
      { f with laps := f.laps + 1, pos := .land x (due + ringLen d) d }

/-- R262: an unscheduled flit past its seventh lap is dropped and counted. -/
def execFlitLapDrop (flit : Nat) (s : State) : Out :=
  match s.flit flit with
  | none => .next s
  | some f =>
    match f.pos with
    | .land pos _ _ =>
      if !f.sched && decide (7 ≤ f.laps) then .next (((s.dropFlit flit).countLost (siteOfPos pos)).flitGone f) else .next s
    | _ => .next s

/-- R257. -/
def execMeshFlitError (flit : Nat) (site : Site) (kind : FlitError) (s : State) : Out :=
  let d := s.meshDie site
  match s.flit flit with
  | none => .next s
  | some f =>
    match kind with
    | .corrected =>
      let b := bump 0x7FFF d.corr d.errOvf
      .next ((s.modDie site fun d => { d with corr := b.1, errOvf := b.2.1 }).cntOvf b.2.2 (dieWin site + 0x118) 16
        (nodeAt site 0))
    | .payload =>
      let b := bump 0xFF d.uncorrPay d.errOvf
      .next (((s.setFlit flit { f with poison := 0xFF#8 }).modDie site fun d =>
        { d with uncorrPay := b.1, errOvf := b.2.1 }).cntOvf b.2.2 (dieWin site + 0x118) 8 (nodeAt site 0))
    | .header =>
      let b := bump 0xFF d.uncorrHdr d.errOvf
      .next ((((((s.dropFlit flit).modDie site fun d => { d with uncorrHdr := b.1, errOvf := b.2.1 }).cntOvf b.2.2
        (dieWin site + 0x118) 0 (nodeAt site 0)).flitGone f).raise 0x0302 (nodeAt site 0) site []).endJob 0x071)

/-! ### Landing of scheduled traffic (R210, R263, R264) -/

/-- Count a flit that a swept core's off-ramp discards (R344). -/
def State.discard (s : State) (site : Nat) : State :=
  { s with win := { s.win with sweep := tmod {} s.win.sweep site fun d => { d with discard := satAdd 0xFF d.discard 1 } } }

/-- Keep the tick's largest DELAY and the number of late flits of a die (MESH_LATE), and end the job for a DELAY above
B + M (R264). -/
def State.lateness (s : State) (site dest delay : Nat) : State :=
  let s1 := s.modDie site fun d => { d with
    curDelay := max d.curDelay delay, curLate := if delay = 0 then d.curLate else satAdd 0xFFFF d.curLate 1 }
  if s.clock.hdr.budget + s.clock.hdr.margin < delay ∧ s.job.running then
    (s1.raise 0x0303 (nodeAt site 0) dest [(2, dest), (2, delay)]).endJob 0x070
  else s1

/-- R210: the flit lands in its contract-free cycle, at its granule (R209), with the poison it brings (R257). -/
def execScheduledDelivery (flit : Nat) (s : State) : Out :=
  match s.flit flit with
  | none => .next s
  | some f =>
    match f.pos with
    | .land pos due dir =>
      if f.sched ∧ f.kind ≤ 2 then
        let p := pcoreOfPos pos
        let site := siteOfPos pos
        let s1 := (s.advance due).dropFlit flit
        if s1.coreShut p then .next (s1.discard site)
        else
          let s2 := s1.lateness site f.dest f.delay
          .next (s2.arriveMesh p (dirNo dir) ⟨((if f.kind = 2 then f.doff else f.arg) + f.idx) % 32768 * 64, f.bytes, f.poison, none⟩)
      else .next s
    | _ => .next s

/-! ### Route versions (R265 to R269) -/

/-- R268 step 1, R269: the version goes into the inactive epoch, and only while HOLD is 0 in every die and no flip is pending; else it waits for
that, and takes the place of one that waits already, whose changes it holds too. -/
def execRouteVersionLoad (v : RouteVersion) (s : State) : Out :=
  if s.mayLoad then .next (s.loadVersion v) else .next { s with mesh := { s.mesh with waiting := some v } }

/-- R268 step 2. -/
def execTableLoadCheck (site : Site) (ok : Bool) (s : State) : Out :=
  .next (s.modDie site fun d => { d with loaded := ok })

/-- R268 step 3: a flip tick at least 2 ticks ahead, once every die in service has checked its load. -/
def execFlipNotice (flipTick : BitVec 64) (s : State) : Out :=
  if s.clock.tick.toNat + 2 ≤ flipTick.toNat ∧
      (allSites.all fun x => !s.routerUp x || (s.meshDie x).loaded) then
    .next (s.eachDie fun _ d => { d with pending := true, flipTick := flipTick })
  else .next s

/-- The most tag entries at a position of a site (MESH_RED.TAGS_MAX). -/
def tagsMaxOf (v : RouteVersion) (site : Nat) : Nat :=
  largest ((v.tags.filter fun e => siteOfPos (e.1 / 16384) == site).map fun e =>
    (v.tags.filter fun e' => e'.1 / 16384 == e.1 / 16384).length)

/-- Take a route version into force: ROUTES_OK, WORST and TAGS_MAX of every die, with EV_MESH_C0_ROUTE for each in which ROUTES_OK
falls (R282, 07 Mesh registers). -/
def State.inForce (s : State) (v : RouteVersion) : State :=
  let t := s.nodeTable v
  let fell := allSites.filter fun site => (s.meshDie site).routesOk && !s.c0RoutesOk v t site
  let s1 := s.eachDie fun site d => { d with
    routesOk := s.c0RoutesOk v t site, worst := min 1023 (s.c0Worst v t site), tagsMax := tagsMaxOf v site }
  { s1 with evq := { s1.evq with
      travelling := s1.evq.travelling ++ fell.map fun site => ⟨0x0307, s.tick32, s.raiser (nodeAt site 0), site, []⟩ } }

/-- R268 step 4: in the flip tick every on-ramp stamps the new epoch, and the old one is routed for 64 ticks more; positions that waited for a flip return to
service (R541, R585). -/
def execEpochFlip (s : State) : Out :=
  if s.allDies fun d => d.pending && decide (d.flipTick = s.clock.tick) then
    let m := s.mesh.versions
    let v := if m.1 then m.2.1 else m.2.2
    let s1 := ({ s with
      mesh := { s.mesh with versions := (!m.1, m.2) }
      panel := { s.panel with routerUp := s.clk.rejoin.foldl (fun t x => tput t x true) s.panel.routerUp }
      clk := { s.clk with rejoin := [] } }.eachDie fun _ d =>
      { d with active := !d.active, hold := 64, pending := false, loaded := false }).inForce v
    .next (if s.clk.rejoin.isEmpty then s1 else s1.attachAnew.rebindLate)
  else .next s

/-- R268 step 6: with HOLD at 0 every flit of the old epoch is dropped where it is, counted, and reported. -/
def execOldEpochHoldEnd (s : State) : Out :=
  if s.allDies fun d => decide (d.hold = 0) then
    let old := s.mesh.flits.filter fun e => e.2.epoch != s.mesh.versions.1
    let siteOf (f : Flit) : Nat := match f.pos with
      | .ramp x _ => siteOfPos x
      | .land x _ _ => siteOfPos x
      | .entry x _ _ => siteOfPos x
    let s1 := { s with mesh := { s.mesh with flits := tfilter (fun _ f => f.epoch == s.mesh.versions.1) s.mesh.flits } }
    let s2 := old.foldl (fun s e => s.flitGone e.2) s1
    .next (s2.each State.countOldEpoch (old.map fun e => siteOf e.2))
  else .next s

/-! ### Circuits (R270 to R272) -/

/-- A circuit of the version in force. -/
def State.circuit (s : State) (c : Nat) : Option Circuit := tfind (s.mesh.version s.mesh.versions.1).circuits c

/-- R272: the window opens in its START cycle, in the run of ticks from FIRST, COUNT of them or all. -/
def execCircuitWindowOpen (circ : Nat) (s : State) : Out :=
  match s.circuit circ with
  | none => .next s
  | some c =>
    let n := s.clock.tick.toNat - s.job.firstTick
    if s.job.running ∧ s.job.firstTick ≤ s.clock.tick.toNat ∧ c.first ≤ n ∧ (c.count = 0 ∨ n < c.first + c.count) ∧
        s.cycle ≤ c.start ∧ !s.mesh.windows.contains circ then
      let s1 := s.advance (s.clock.start + c.start)
      .next { s1 with mesh := { s1.mesh with windows := circ :: s1.mesh.windows } }
    else .next s

/-- R272: the window closes LEN cycles later. -/
def execCircuitWindowClose (circ : Nat) (s : State) : Out :=
  match s.circuit circ with
  | none => .next s
  | some c =>
    if s.mesh.windows.contains circ then
      let s1 := s.advance (s.clock.start + c.start + c.len)
      .next { s1 with mesh := { s1.mesh with windows := s1.mesh.windows.filter (· ≠ circ) } }
    else .next s

/-! ### Reduction in flight (R275 to R279) -/

/-- The 16 FP32 lanes of a flit's payload. -/
def lanesOfBytes (bs : List (BitVec 8)) : List (BitVec 32) :=
  (List.range 16).map fun i => BitVec.ofNat 32 (leField bs (4 * i) 4)

/-- Whether an entry has every input it waits for. -/
def allIn (e : TagEntry) (got : List Dir) : Bool :=
  [Dir.local, .north, .east, .south, .west].all fun d => !expects e d || got.contains d

/-- R276: a contribution is added in its arrival cycle; a complete partial goes out in the cycle after, toward the next
entry, or lands, in the class of the contribution added last (log entry 237). -/
def State.contribute (s : State) (i : Nat) : State :=
  match s.flit i with
  | none => s
  | some f =>
    match f.pos with
    | .entry pos due inp =>
      let s1 := (s.advance due).dropFlit i
      let key := 4 * (16384 * pos + f.arg) + f.idx
      match tagEntryAt (s1.mesh.version f.epoch) pos f.arg with
      | none => s1
      | some e =>
        let old := tget ⟨[], 0#8, [], 0, false⟩ s1.mesh.partials key
        if old.got.contains inp then s1.redFault pos f.arg 2
        else
          let ls := lanesOfBytes f.bytes
          let sum := if old.got.isEmpty then ls else List.zipWith (fadd32 .rne) old.lanes ls
          let new : Partial := ⟨sum, old.poison ||| f.poison, inp :: old.got, max old.delay f.delay, false⟩
          let s2 := { s1 with mesh := { s1.mesh with partials := tput s1.mesh.partials key new } }
          if allIn e new.got then
            let bytes := sum.flatMap fun x => leBytes 4 x.toNat
            let out : Flit := { f with bytes := bytes, poison := new.poison, delay := new.delay, tag := some key }
            match e.out with
            | .send _ => s2.addFlit { out with pos := .ramp pos (s2.clock.now + 1), inp := .local }
            | .land dest doff =>
              (s2.partialLeft key).addFlit
                { out with kind := 0, dest := dest, arg := doff, pos := .land pos (s2.clock.now + 3) .local }
          else s2
    | _ => s

/-- The flits of a contribution's tag and index that reach its entry in the same cycle from an input before its own in the order of
R125, in that order. -/
def State.before (s : State) (f : Flit) : List Nat :=
  match f.pos with
  | .entry pos due inp =>
    ([Dir.local, .north, .east, .south, .west].take (dirNo inp)).flatMap fun d =>
      (s.mesh.flits.filter fun e =>
        e.2.pos == .entry pos due d && e.2.arg == f.arg && e.2.idx == f.idx && e.2.epoch == f.epoch).map (·.1)
  | _ => []

/-- R125, R276: those that come first in the same cycle are added first. -/
def execRedFlitArrival (flit : Nat) (s : State) : Out :=
  match s.flit flit with
  | none => .next s
  | some f => .next ((s.before f ++ [flit]).foldl State.contribute s)

end Sys2Proof.Machine
end

