-- ==== Sys2Proof/Machine/Stack.lean ====
section
/-! DEFINITION. Scheduled streams and admission (R290 to R302), refresh, region copies and lost stacks (R305, R317 to R321),
and the memory mode (R287). -/

namespace Sys2Proof.Machine

open Sys2Proof

/-! ### Descriptors -/

/-- A stream of the machine. -/
def State.stream (s : State) (i : Nat) : Option StreamRec := tfind s.plos.streams i

/-- Put back a stream; one with nothing left to do leaves the table (R296). -/
def State.setStream (s : State) (i : Nat) (r : StreamRec) : State :=
  s.modStacks fun t => { t with
    streams := if r.mine.isEmpty && r.outs.isEmpty then tdel t.streams i else tput t.streams i r }

/-- The absolute schedule cycle that an issue stamp names (R291): the latest tick up to the present one with its low 32 bits. -/
def State.issueOf (s : State) (bs : List (BitVec 8)) : Nat :=
  let cur := s.clock.tick.toNat
  let back := (cur % 2 ^ 32 + 2 ^ 32 - leField bs 0x20 4) % 2 ^ 32
  (cur - back) * s.clock.hdr.len + leField bs 0x24 2

/-- The stream that a descriptor describes (R290). -/
def parseStream (bs : List (BitVec 8)) (n l ctx cls issue : Nat) : StreamRec :=
  { stack := n, lcore := l, ctx := ctx, cls := cls, write := decide (leField bs 0 1 = 1), pace := leField bs 2 2,
    count := leField bs 4 4, addr := leField bs 8 8, rowLen := leField bs 0x10 2, rowStride := leField bs 0x14 4,
    doff := leField bs 0x18 2, issue := issue, defer := leField bs 0x1C 4, mine := [], outs := [] }

/-- Stack address of granule `i` (R290). -/
def StreamRec.gaddr (r : StreamRec) (i : Nat) : Nat :=
  let row := if r.rowLen = 0 then r.count else r.rowLen
  r.addr + i / row * r.rowStride + 64 * (i % row)

/-- Scratchpad offset of granule `i` (R290). -/
def StreamRec.spOff (r : StreamRec) (i : Nat) : Nat := (r.doff + i) % 32768 * 64

/-- k_i of R292. -/
def StreamRec.k (r : StreamRec) (i : Nat) : Nat := r.issue + r.defer + i * r.pace

/-- Case FIELD of R297. -/
def streamBadField (bs : List (BitVec 8)) (r : StreamRec) : Bool :=
  decide (1 < leField bs 0 1) || decide (leField bs 1 1 ≠ 0) || decide (r.pace < 1 ∨ 1024 < r.pace) ||
  decide (r.count < 1 ∨ 262144 < r.count) || decide (r.addr % 64 ≠ 0 ∨ stackRange ≤ r.addr) || decide (leField bs 0x12 2 ≠ 0) ||
  decide (r.rowStride % 64 ≠ 0) || decide (32767 < r.doff) || decide (leField bs 0x1A 2 ≠ 0) || decide (524287 < r.defer) ||
  decide (leField bs 0x26 26 ≠ 0)

/-- L of R296. -/
def StackRec.limit (r : StackRec) : Nat := min 5120 (240 * r.nAtt)

/-- L for window `w`: a change of N acts on later windows alone (R299). -/
def StackRec.limitAt (r : StackRec) (w : Nat) : Nat := if w < r.nAttFrom then min 5120 (240 * r.nAttWas) else r.limit

/-- The internal channel of a stack-local offset (R285). -/
def channelOf (off : Nat) : Nat := off / 64 % 64

/-- Add one count at each key. -/
def countAt (t : Tab Nat) : List Nat → Tab Nat
  | [] => t
  | k :: ks => countAt (tmod 0 t k (· + 1)) ks

/-- Whether every key listed stays within a limit. -/
def within (t : Tab Nat) (ks : List Nat) (lim : Nat) : Bool := ks.all fun k => decide (tget 0 t k ≤ lim)

/-- Whether every window listed stays within its interface limit. -/
def StackRec.withinL (r : StackRec) (t : Tab Nat) (ws : List Nat) : Bool := ws.all fun w => decide (tget 0 t w ≤ r.limitAt w)

/-- The windows of a stream's granules at one base die: the landing cycle's for a read, the acceptance cycle's for a write
(08 Admission). -/
def StreamRec.wins (r : StreamRec) : List Nat := r.mine.map fun i => (r.k i + 1536) / 256

/-- The channel counts of a stream's granules, keyed 64 * window + channel. -/
def StreamRec.chans (r : StreamRec) (placed : Bool) : List Nat :=
  r.mine.map fun i => 64 * ((r.k i + 1536) / 256) + channelOf (stackAddr placed (r.gaddr i)).2

/-- The reason that refuses a descriptor, the first of R297's order, 0 when none applies. -/
def State.streamReason (s : State) (bs : List (BitVec 8)) (r : StreamRec) : Nat :=
  let st := s.stack r.stack
  let h := s.clock.hdr
  let all := List.range r.count
  let off := if r.write then 16 else 1536
  if streamBadField bs r then 2
  else if st.mode ≠ .ready then 9
  else if all.any (fun i => decide (stackRange ≤ r.gaddr i)) ∨
      (s.plos.placed ∧ all.any fun i => (stackAddr true (r.gaddr i)).1 ≠ (stackAddr true r.addr).1) then 1
  else if r.issue + 448 < s.absSched then 3
  else if 1048576 < r.defer + (r.count - 1) * r.pace + 1536 then 8
  else if all.any fun i => decide (h.d ≤ (r.k i + off) % h.len) then 4
  else if r.mine.isEmpty then 0
  else if 1024 ≤ (s.plos.streams.filter fun e => e.2.stack == r.stack).length then 7
  else if !st.withinL (countAt st.ifWin r.wins) r.wins then 5
  else if !within (countAt st.intWin r.wins) r.wins 27648 ∨
      !within (countAt st.chanWin (r.chans s.plos.placed)) (r.chans s.plos.placed) 432 then 6
  else 0

/-- A refusal (R297, R298): counted, with its reason and core, and a notice that reaches the context by A_issue + 1,536. -/
def State.refuse (s : State) (n l ctx issue reason : Nat) : State :=
  let r := s.stack n
  let b := bump 0x1FFF r.refCount r.refOvf
  let s1 := (s.modStack n fun r => { r with
      refCount := b.1, refOvf := b.2.1, refReason := reason, refCore := l }).cntOvf b.2.2 (stackWin n + 0x8) 18 (nodeOfStack n)
  s1.modStacks fun t => { t with
    notices := tput t.notices t.nextId ⟨l, ctx, s1.cycleOfSched (issue + 1536)⟩, nextId := t.nextId + 1 }

/-- R290, R296, R297: the descriptor arrives at its base die, which refuses it or claims its counts. -/
def execStreamDescriptor (flit : Nat) (s : State) : Out :=
  match s.flit flit with
  | none => .next s
  | some f =>
    match f.pos with
    | .land _ due _ =>
      if f.kind = 4 ∧ f.arg < 8 ∧ 0x3C00 ≤ f.dest then
        let s1 := (s.advance due).dropFlit flit
        let n := (f.dest - 0x3C00) % 16
        let issue := s1.issueOf f.bytes
        let r0 := parseStream f.bytes n f.src f.arg f.cls issue
        let r := { r0 with mine := if 262144 < r0.count then [] else
          (List.range r0.count).filter fun i => (stackAddr s1.plos.placed (r0.gaddr i)).1 == n }
        match s1.streamReason f.bytes r with
        | 0 =>
          let s2 := s1.modStack n fun st => { st with
            ifWin := countAt st.ifWin r.wins, intWin := countAt st.intWin r.wins
            chanWin := countAt st.chanWin (r.chans s1.plos.placed) }
          let id := s2.plos.nextId
          .next ((s2.modStacks fun t => { t with nextId := id + 1 }).setStream id r)
        | reason => .next (s1.refuse n f.src f.arg issue reason)
      else .next s
    | _ => .next s

/-- R298, R187: the notice reaches the context, which becomes ERROR with its count unchanged, by its last cycle also without this command. -/
def execRefusalNotice (notice : Nat) (s : State) : Out :=
  match tfind s.plos.notices notice with
  | none => .next s
  | some r =>
    let s1 := (s.modStacks fun t => { t with notices := tdel t.notices notice }).syncCtx
    .next (s1.modCtx (ctxKey r.lcore r.ctx) Ctx.refused)

/-! ### Granules (R292 to R294, R299 to R301) -/

/-- The schedule cycle in which a granule due in schedule cycle `c` is delivered: its own, or, in a window that a loss has
filled, the start of the next window with room (R299). -/
def StackRec.deliverAt (r : StackRec) (c : Nat) : Nat → Nat
  | 0 => c
  | n + 1 => if tget 0 r.landed (c / 256) < r.limitAt (c / 256) then c else r.deliverAt ((c / 256 + 1) * 256) n

/-- A granule that is due in schedule cycle `c` crosses the panel interface of its stack: the cycle in which it does, counted in its window
(R299). -/
def State.crossIf (s : State) (n c : Nat) : State × Nat :=
  let d := (s.stack n).deliverAt c 8192
  (s.modStack n fun t => { t with landed := tmod 0 t.landed (d / 256) (· + 1) }, d)

/-- The cycles of a path but for its slots (R251). -/
def pathTime (es : List (Nat × Dir)) : Nat :=
  es.length + 4 * (es.filter crossesDie).length + 2 * (es.filter crossesSeam).length + 2 * ((pathLegs es).length - 1)

/-- How much longer the routes in force make the way from a base die to a core than the plain ones that a compiler counts with (R228,
R300). -/
def State.layDelay (s : State) (n l : Nat) : Nat :=
  let v := s.mesh.version s.mesh.versions.1
  if v.detours.isEmpty then 0
  else match s.posOfCore v l with
    | none => 0
    | some t =>
      let x := stackPos n t
      pathTime (routePath v t pathFuel x) - pathTime (routePath { v with detours := [] } t pathFuel x)

/-- Deliver bytes into a logical core's scratchpad in the present cycle, at rank 2; a core under sweep discards them
(R344). -/
def State.deliverTo (s : State) (l : Nat) (d : Deliv) : State :=
  match s.pcoreOf l with
  | none => s
  | some p => if s.coreShut p then s.discard (pSite p) else s.arriveStream p d

/-- R292, R294, R299 to R301: the next granule lands in its contract cycle, later by what the routes in force add. -/
def execStreamGranuleLand (stream : Nat) (s : State) : Out :=
  match s.stream stream with
  | none => .next s
  | some r =>
    match r.mine with
    | [] => .next s
    | i :: rest =>
      if r.write then .next s
      else
        let g := s.crossIf r.stack (r.k i + 1536)
        let s1 := s.advance (s.cycleOfSched g.2 + s.layDelay r.stack r.lcore)
        let s2 := g.1.advance s1.clock.now
        let off := (stackAddr s2.plos.placed (r.gaddr i)).2
        let q := s2.contractGranule r.stack off (s1.cycleOfSched (r.k i + 1536)) (Config.readsOld stream i)
        let s3 := q.1.setStream stream { r with mine := rest }
        .next (s3.deliverTo r.lcore ⟨r.spOff i, q.2.1, q.2.2, some (ctxKey r.lcore r.ctx)⟩)

/-- Take a bank at rank 2, behind every delivery that waits for it, in the first cycle from the present one in which it is free (R293, R75). -/
def State.takeBank (s : State) (p bank : Nat) : Nat → State
  | 0 => s
  | n + 1 =>
    let s1 := s.sync p
    if (s1.landBanks p).contains bank then (s1.advance (s1.clock.now + 1)).takeBank p bank n
    else s1.modPipe p fun k => k.claim s1.clock.now bank

/-- R292, R293, R304: the next granule is read out at rank 2 in cycle k_i + 16, or in the first later cycle in which its bank
is granted. Poison faults the core, and the granule travels marked poison. -/
def execWriteGranuleReadout (stream : Nat) (s : State) : Out :=
  match s.stream stream with
  | none => .next s
  | some r =>
    match r.mine with
    | [] => .next s
    | i :: rest =>
      if !r.write then .next s
      else
        let s1 := s.advance (s.cycleOfSched (r.k i + 16))
        match s1.pcoreOf r.lcore with
        | none => .next s1
        | some p =>
          let off := r.spOff i
          let s2 := s1.takeBank p (bankOf off) 4096
          let q := s2.readWords p (off / 8) 8
          let bad := anyBad q.2
          let out : OutGranule := ⟨i, q.2.flatMap (·.1), if bad then 0xFF#8 else 0#8⟩
          let s3 := q.1.setStream stream { r with mine := rest, outs := r.outs ++ [out] }
          if bad then
            .next (s3.recordFault p ((s3.core p).ctl.pc) ⟨6, ST_CORE_POISON, some (bankOf off)⟩ [])
          else .next s3

/-- EV_PLS_LATE, once for each window (R293, R299). -/
def State.lateEvent (s : State) (n w : Nat) : State :=
  if (s.stack n).lateWin.contains w then s
  else (s.modStack n fun r => { r with lateWin := w :: r.lateWin }).raise 0x0401 (nodeOfStack n) n []

/-- R292, R293: the oldest granule on its way arrives in the present cycle. Up to k_i + 1,536 it is accepted, where a loss has filled its window
in the next with room (R299), and counts a cycle later; after it, it is discarded and its context becomes ERROR, while later granules still
count. -/
def execWriteGranuleAccept (stream : Nat) (s0 : State) : Out :=
  let s := s0.syncCtx
  match s.stream stream with
  | none => .next s
  | some r =>
    match r.outs with
    | [] => .next s
    | g :: rest =>
      let s1 := s.setStream stream { r with outs := rest }
      let key := ctxKey r.lcore r.ctx
      if s.absSched ≤ r.k g.idx + 1536 then
        let off := (stackAddr s.plos.placed (r.gaddr g.idx)).2
        let x := s1.crossIf r.stack s.absSched
        let s2 := (x.1.advance (s.cycleOfSched x.2)).acceptWrite r.stack off g.bytes g.poison
        .next { s2 with ctxDue := s2.ctxDue ++ [(s2.clock.now + 1, key)] }
      else
        .next ((s1.modCtx key fun c => if c.st = .idle then c else { c with st := .error }).lateEvent r.stack (s.absSched / 256))

/-- The windows from `w` on whose granules do not all find room, with what each passes on to the next (R299). -/
def overWindows (t : Tab Nat) (lim : Nat) : Nat → Nat → Nat → List Nat
  | 0, _, _ => []
  | n + 1, w, carry =>
    let k := tget 0 t w + carry
    if lim < k then w :: overWindows t lim n (w + 1) (k - lim) else overWindows t lim n (w + 1) 0

/-- R299: L is computed anew for every later window; EV_PLS_LATE rises once for each window from which granules move on. -/
def execAttachLoss (stack : Stack) (s : State) : Out :=
  let w := s.absSched / 256
  let s1 := s.modStack stack fun r => r.reattach (s.attachNow stack) w
  let r := s1.stack stack
  let last := (r.ifWin.map (·.1)).foldl max w
  .next (s1.each (fun s w => s.lateEvent stack w) (if r.limit = 0 then (r.ifWin.map (·.1)).filter fun x => decide (w < x)
    else overWindows r.ifWin r.limit (last - w + (r.ifWin.foldl (fun a e => a + e.2) 0) / r.limit) (w + 1) 0))

/-! ### Unscheduled access, refresh, regions, mode -/

/-- R306: a steward's access is queued by class at its base die; MEMREQ traffic has no class C0 (R255). -/
def execUnscheduledStackAccess (cls : Fin 4) (addr len : Nat) (data : Option (List (BitVec 8))) (s : State) : Out :=
  if cls.val = 0 ∨ stackRange < addr + len then .next s
  else .next (s.askStack .steward cls addr len (data.map fun d => ((d ++ List.replicate len 0#8).take len, [])))

/-- R305: refresh moves no contract cycle, and programs see nothing of it. -/
def execStackRefresh (_stack : Stack) (s : State) : Out := .next s

/-- The cells of a region under another region's keys. -/
def shiftCells {α : Type} (t : Tab α) (lo hi to_ : Nat) : List (Nat × α) :=
  (t.filter fun e => decide (lo ≤ e.1) && decide (e.1 < hi)).map fun e => (e.1 - lo + to_, e.2)

/-- Put cells into a table. -/
def putCells {α : Type} (t : Tab α) : List (Nat × α) → Tab α
  | [] => t
  | e :: r => putCells (tput t e.1 e.2) r

/-- The copy of a region reads every granule of it: what its check bits show is found (R303). -/
def State.findStackFlips (s : State) (n region : Nat) : State :=
  let a := regionKey n ((s.stack n).physRegion region) / 64
  let ks := (s.plos.flips.filter fun e => decide (a ≤ e.1) && decide (e.1 < a + regionSize / 64)).map (·.1)
  s.each (fun s k => s.checkGranule n (region * regionSize + 64 * (k - a))) ks

/-- Copy a region whole, poison words as poison, errors that can be corrected corrected (R318 step 2, R303). -/
def State.copyRegion (s : State) (n src dst : Nat) : State :=
  let a := regionKey n src
  let b := regionKey n dst
  s.modStacks fun t => { t with
    flips := tfilter (fun k _ => decide (k < b / 64) || decide ((b + regionSize) / 64 ≤ k)) t.flips
    mem := putCells (Memory.clear t.mem b (b + regionSize)) (shiftCells t.mem a (a + regionSize) b)
    poison := putCells (tfilter (fun k _ => decide (k < b / 8) || decide ((b + regionSize) / 8 ≤ k)) t.poison)
      (shiftCells t.poison (a / 8) ((a + regionSize) / 8) (b / 8)) }

/-- R318: the copy ends and waits for the boundary; what is still to be swept is swept first (R348, R350). A spare that failed under it is
RETIRED and the next free one starts again. -/
def execRegionCopyDone (stack : Stack) (spareOk : Bool) (s : State) : Out :=
  let r := s.stack stack
  match r.copy with
  | none => .next s
  | some c =>
    if c.done then .next s
    else if spareOk then
      let src := r.physRegion c.region
      let s1 := if r.toSweep.contains src then s.sweepRegion stack src else s.findStackFlips stack c.region
      .next ((s1.copyRegion stack src (384 + c.spare)).noteWritten stack (384 + c.spare)
        |>.modStack stack fun r => { r with copy := some { c with done := true } })
    else
      .next ((s.modStack stack fun r => { r with
        spares := tput r.spares c.spare { used := false, retired := true, region := c.region }
        copy := none, copying := none }).startCopy stack c.region)

/-- R321. -/
def execStackLost (stack : Stack) (s : State) : Out := .next (s.loseStack stack)

/-- R287: written only while the panel is READY; a change of mode moves no data. -/
def execPlsModeWrite (placed : Bool) (s : State) : Out :=
  if s.panel.mode = .ready then .next (s.modStacks fun t => { t with placed := placed }) else .next s

end Sys2Proof.Machine
end

