-- ==== Sys2Proof/Machine/Sae.lean ====
section
/-! DEFINITION. The stack attention engines (R307 to R316). -/

namespace Sys2Proof.Machine

open Sys2Proof

/-- An admitted SAE command. -/
def State.sae (s : State) (i : Nat) : Option SaeRec := tfind s.plos.saes i

/-! ### Fields (R307) -/

def saeItems (c : List (BitVec 8)) : Nat := leField c 2 2
def saeList (c : List (BitVec 8)) : Nat := leField c 4 4 * 64
def saeRbound (c : List (BitVec 8)) : Nat := leField c 8 4
def saeRate (c : List (BitVec 8)) : Nat := leField c 0xC 1
def saeRpar (c : List (BitVec 8)) : Nat := leField c 0xD 1
def saeGq (c : List (BitVec 8)) : Nat := leField c 0xE 1
def saeFmt (c : List (BitVec 8)) : Nat := leField c 0xF 1
/-- P, the tokens of a page (R309). -/
def saeP (c : List (BitVec 8)) : Nat := if saeFmt c = 9 then 32 else 16
/-- E of R314. -/
def saeE (c : List (BitVec 8)) : Nat := if saeFmt c = 9 then 128 else 64
/-- Result granules of an item (R312). -/
def saeRg (c : List (BitVec 8)) : Nat := 8 * saeGq c + 1
/-- Cycles that the reading is claimed for (R314). -/
def saeSpan (c : List (BitVec 8)) : Nat := (saeRbound c + saeRate c - 1) / max 1 (saeRate c)

/-- Pages of a stack (R286). -/
def stackPages : Nat := 25165824

/-- Case FIELD for an SAE command (R297, R307). -/
def saeBadField (c : List (BitVec 8)) : Bool :=
  decide (leField c 0 1 ≠ 1) || decide (8 ≤ leField c 1 1) || decide (saeItems c < 1 ∨ 1024 < saeItems c) ||
  decide (saeRate c < 1 ∨ 108 < saeRate c) || decide (saeRpar c < 1 ∨ 16 < saeRpar c) || decide (saeGq c < 1 ∨ 8 < saeGq c) ||
  decide (saeFmt c ≠ 9 ∧ saeFmt c ≠ 5 ∧ saeFmt c ≠ 6) || decide (2 ≤ leField c 0x14 1) || decide (leField c 0x15 3 ≠ 0) ||
  decide (leField c 0x28 24 ≠ 0)

/-- The deliveries of a command in order (R312): the cycle after RESULT_AT, the item and the granule of each. -/
def saeOrder (c : List (BitVec 8)) : List (Nat × Nat × Nat) :=
  let rp := max 1 (saeRpar c)
  (List.range ((saeItems c + rp - 1) / rp)).flatMap fun grp =>
    (List.range (saeRg c)).flatMap fun g =>
      ((List.range rp).filter fun j => decide (grp * rp + j < saeItems c)).map fun j => (saeRg c * grp + g, grp * rp + j, g)

/-- Claims of a command's reading by window: RATE granules in each cycle from START on (R314). -/
def saeClaims (c : List (BitVec 8)) (start : Nat) : List (Nat × Nat) :=
  let fin := start + saeSpan c
  (List.range (fin / 256 + 1 - start / 256)).map fun i =>
    let w := start / 256 + i
    (w, saeRate c * (min fin (256 * w + 256) - max start (256 * w)))

/-- The windows of a command's interface counts: RPAR granules in each of its delivery cycles (R314). -/
def saeWins (c : List (BitVec 8)) (resultAt : Nat) : List Nat :=
  (List.range (saeRg c * ((saeItems c + saeRpar c - 1) / max 1 (saeRpar c)))).flatMap fun x =>
    List.replicate (saeRpar c) ((resultAt + x) / 256)

/-- The conditions of R314 that R297 does not name. -/
def State.saeFits (s : State) (n : Nat) (c : List (BitVec 8)) (start resultAt : Nat) : Bool :=
  let r := s.stack n
  let wins := saeWins c resultAt
  decide (saeRate c * saeGq c * saeE c ≤ 14336) &&
  ((saeClaims c start).all fun e => decide (tget 0 r.intWin e.1 + e.2 ≤ 27648) &&
    ((List.range 64).all fun ch => decide (tget 0 r.chanWin (64 * e.1 + ch) + (e.2 + 63) / 64 ≤ 432))) &&
  decide (start + saeSpan c + 256 ≤ resultAt) &&
  r.withinL (countAt r.ifWin wins) wins &&
  decide ((s.plos.saes.filter fun e => e.2.stack == n).length < 8)

/-- The reason that refuses an SAE command, 0 when it is admitted (R297, R314): RANGE is a list that leaves the stack, and the last
contract cycle is the last result's (log entry 226). -/
def State.saeReason (s : State) (n : Nat) (c : List (BitVec 8)) (issue start resultAt : Nat) : Nat :=
  let h := s.clock.hdr
  let last := resultAt + saeRg c * ((saeItems c + saeRpar c - 1) / max 1 (saeRpar c))
  if saeBadField c then 2
  else if (s.stack n).mode ≠ .ready then 9
  else if stackPages * 4096 < saeList c + 16 * saeItems c then 1
  else if issue + 448 < s.absSched then 3
  else if issue + 1048576 < last - 1 then 8
  else if (saeOrder c).any fun e => decide (h.d ≤ (resultAt + e.1) % h.len) then 4
  else if s.saeFits n c start resultAt then 0
  else 0xA

/-- R307, R314: the command arrives at its base die, which refuses it or claims its counts. -/
def execSaeCommand (flit : Nat) (s : State) : Out :=
  match s.flit flit with
  | none => .next s
  | some f =>
    match f.pos with
    | .land _ due _ =>
      if f.kind = 4 ∧ f.arg = 8 ∧ 0x3C00 ≤ f.dest then
        let s1 := (s.advance due).dropFlit flit
        let n := (f.dest - 0x3C00) % 16
        let c := f.bytes
        let issue := s1.issueOf c
        let start := issue + 1536 + leField c 0x18 4
        let resultAt := issue + leField c 0x1C 4
        match s1.saeReason n c issue start resultAt with
        | 0 =>
          let wins := saeWins c resultAt
          let s2 := s1.modStack n fun r => { r with
            ifWin := countAt r.ifWin wins
            intWin := (saeClaims c start).foldl (fun t e => tmod 0 t e.1 (· + e.2)) r.intWin
            chanWin := (saeClaims c start).foldl (fun t e =>
              (List.range 64).foldl (fun t ch => tmod 0 t (64 * e.1 + ch) (· + (e.2 + 63) / 64)) t) r.chanWin }
          .next (s2.modStacks fun t => { t with
            saes := tput t.saes t.nextId
              { stack := n, lcore := f.src, cls := f.cls, cmd := c, issue := issue, start := start, resultAt := resultAt,
                ran := false, faults := [], out := [], dests := [], next := 0 }
            nextId := t.nextId + 1 })
        | reason => .next (s1.refuse n f.src (leField c 1 1 % 8) issue reason)
      else .next s
    | _ => .next s

/-! ### What an item reads (R308, R309) -/

/-- Bytes of a stack by stack-local offset. -/
def State.saeBytes (s : State) (n off len : Nat) : List (BitVec 8) :=
  ((List.range ((off % 64 + len + 63) / 64)).flatMap fun i => (s.granuleAt n (off / 64 * 64 + 64 * i)).1).drop (off % 64) |>.take len

/-- Whether a word of a range is poison, or its granule shows an uncorrectable error (R303). -/
def State.saePoison (s : State) (n off len : Nat) : Bool :=
  (List.range ((off % 64 + len + 63) / 64)).any fun i =>
    let o := off / 64 * 64 + 64 * i
    let p := (s.granuleAt n o).2
    ((List.range 8).any fun w => p.getLsbD w && decide (o + 8 * w < off + len) && decide (off < o + 8 * w + 8)) ||
      decide (2 ≤ tget 0 s.plos.flips (s.stKey n o / 64))

/-- A work item (R308): block table, entries, tokens, queries, core and granule. -/
structure SaeItem where
  bt : Nat
  npages : Nat
  tokens : Nat
  q : Nat
  dest : Nat
  doff : Nat
  deriving DecidableEq, Repr

/-- Item `i` of a command's list. -/
def State.saeItem (s : State) (n : Nat) (c : List (BitVec 8)) (i : Nat) : SaeItem :=
  let b := s.saeBytes n (saeList c + 16 * i) 16
  { bt := leField b 0 4 * 64, npages := leField b 4 2, tokens := leField b 6 2, q := leField b 8 4 * 64, dest := leField b 12 2,
    doff := leField b 14 2 }

/-- W of R314. -/
def SaeItem.work (x : SaeItem) (c : List (BitVec 8)) : Nat :=
  2 * x.tokens * (128 / saeE c) + x.npages * saeP c / 8 + (x.npages + 7) / 8 + 4 * saeGq c

/-- The work of a command (R314). -/
def State.saeWork (s : State) (n : Nat) (c : List (BitVec 8)) : Nat :=
  ((List.range (saeItems c)).map fun i => (s.saeItem n c i).work c).sum + (saeItems c + 3) / 4

/-- Block-table entry `j` (R309). -/
def State.saeEntry (s : State) (n : Nat) (x : SaeItem) (j : Nat) : Nat := leNat (s.saeBytes n (x.bt + 8 * j) 8)

def entryValid (e : Nat) : Bool := bitOf e 63
def entryKv (e : Nat) : Nat := bitsOf e 0 25
def entryScPage (e : Nat) : Nat := bitsOf e 32 25
def entryScSlot (e : Nat) : Nat := bitsOf e 57 5

/-- Stack-local offset of an entry's scale slot. -/
def slotOff (c : List (BitVec 8)) (e : Nat) : Nat := entryScPage e * 4096 + entryScSlot e * (8 * saeP c)

/-- The tokens of page `j` of an item (R308). -/
def SaeItem.pageTokens (x : SaeItem) (c : List (BitVec 8)) (j : Nat) : Nat :=
  if j + 1 = x.npages then min (saeP c) (x.tokens - saeP c * j) else saeP c

/-- The ranges that an item reads, but for its list record: of each page the rows of its tokens, in both planes, and their scales. -/
def State.saeRanges (s : State) (n : Nat) (c : List (BitVec 8)) (x : SaeItem) : List (Nat × Nat) :=
  (x.bt, 8 * x.npages) :: (x.q, 256 * saeGq c) ::
    ((List.range x.npages).flatMap fun j =>
      let e := s.saeEntry n x j
      let t := x.pageTokens c j
      let row := 2048 / saeP c
      [(entryKv e * 4096, row * t), (entryKv e * 4096 + 2048, row * t), (slotOff c e, 8 * t)])

/-- The fault kind of an item (R315, PLS_SAE.LAST_KIND), 0 for none. -/
def State.saeKind (s : State) (n : Nat) (c : List (BitVec 8)) (excess : Bool) (i : Nat) : Nat :=
  let x := s.saeItem n c i
  let p := saeP c
  let es := (List.range x.npages).map fun j => s.saeEntry n x j
  if excess then 1
  else if s.saePoison n (saeList c + 16 * i) 16 then 5
  else if x.npages < 1 ∨ 256 < x.npages ∨ x.tokens ≤ p * (x.npages - 1) ∨ p * x.npages < x.tokens ∨ 12288 ≤ x.dest ∨
      32768 ≤ x.doff then 2
  else if stackPages * 4096 < x.bt + 8 * x.npages ∨ stackPages * 4096 < x.q + 256 * saeGq c then 4
  else if es.any fun e => !entryValid e then 3
  else if es.any fun e => decide (stackPages ≤ entryKv e) || decide (stackPages * 4096 < slotOff c e + 8 * p) then 4
  else if (s.saeRanges n c x).any fun r => s.saePoison n r.1 r.2 then 5
  else 0

/-! ### The computation (R310, R311) -/

/-- The exponential of `a - b` (R311): the exact results of R118 at infinities and NaN, else a free value that keeps R118's error
of the exact difference (log entry 11). -/
def saeExpOf (a b : BitVec 32) : BitVec 32 :=
  match specialExact 0x43 (fsub32 .rne a b) with
  | some r => r
  | none =>
    match (f32Val a).add .rne (f32Val b).neg with
    | .fin neg m e =>
      let c := Config.saeExp a b
      if specialNear 0x43 neg m e c then c else specialNearest (specialOf 0x43 neg m e)
    | _ => nan32

/-- A quotient rounded once to FP32 (R311). -/
def fdiv32 (a b : BitVec 32) : BitVec 32 :=
  match f32Val a, f32Val b with
  | .nan, _ => nan32
  | _, .nan => nan32
  | .inf _, .inf _ => nan32
  | .inf sa, .fin sb _ _ => toF32 .rne (.inf (sa != sb))
  | .fin sa _ _, .inf sb => toF32 .rne (.fin (sa != sb) 0 0)
  | .fin sa ma ea, .fin sb mb eb =>
    if mb = 0 then (if ma = 0 then nan32 else toF32 .rne (.inf (sa != sb)))
    else toF32 .rne (.fin (sa != sb) (2 * (ma * 2 ^ 64 / mb) + (if ma * 2 ^ 64 % mb = 0 then 0 else 1)) (ea - eb - 65))

/-- Element `d` of a token's row in a plane, in the planar layout (R107, R309). -/
def planeElem (c : List (BitVec 8)) (plane : List (BitVec 8)) (t d : Nat) : Fv :=
  if saeFmt c = 9 then
    let b := (byteAt plane (64 * t + d / 2)).toNat
    elemVal 9 (if d % 2 = 0 then b % 16 else b / 16)
  else elemVal (saeFmt c) (byteAt plane (128 * t + d)).toNat

/-- The element with its block scale (R105, R309); `v` is 4 for the V scales. -/
def scaledElem (c : List (BitVec 8)) (plane slot : List (BitVec 8)) (v t d : Nat) : Fv :=
  let x := (byteAt slot (8 * t + v + d / 32)).toNat
  if x = 255 then .nan else (planeElem c plane t d).scale ((x : Int) - 127)

/-- The state of one head's sum: m, l and the 128 elements of o. -/
structure SaeAcc where
  m : BitVec 32 := 0xFF800000#32
  l : BitVec 32 := 0#32
  o : List (BitVec 32) := List.replicate 128 0#32
  deriving DecidableEq, Repr

/-- One page of R310's loop. -/
def saePage (c : List (BitVec 8)) (q : List (BitVec 8)) (kv slot : List (BitVec 8)) (nt : Nat) (a : SaeAcc) : SaeAcc :=
  let kp := kv.take 2048
  let vp := kv.drop 2048
  let scale := f32Val (BitVec.ofNat 32 (leField c 0x10 4))
  let score (t : Nat) : BitVec 32 :=
    toF32 .rne (scale.mul (sumTerms ((List.range 128).map fun d =>
      (elemVal 1 (leField q (2 * d) 2)).mul (scaledElem c kp slot 0 t d))))
  let ss := (List.range nt).map score
  let mn := ss.foldl fmax32 a.m
  let cc := if a.m = 0xFF800000#32 then 0#32 else saeExpOf a.m mn
  let pr := ss.map fun x => saeExpOf x mn
  let cv := f32Val cc
  let l := toF32 .rne (((f32Val a.l).mul cv).add .rne (sumTerms (pr.map f32Val)))
  let o := (List.range 128).map fun d =>
    toF32 .rne (((f32Val (a.o.getD d 0#32)).mul cv).add .rne
      (sumTerms ((List.range nt).map fun t => (f32Val (pr.getD t 0#32)).mul (scaledElem c vp slot 4 t d))))
  { m := mn, l := l, o := o }

/-- The pages of an item in order, for one head. -/
def State.saeHead (s : State) (n : Nat) (c : List (BitVec 8)) (x : SaeItem) (h : Nat) : SaeAcc :=
  let q := s.saeBytes n (x.q + 256 * h) 256
  let p := saeP c
  let a := (List.range x.npages).foldl (fun a j =>
    let e := s.saeEntry n x j
    saePage c q (s.saeBytes n (entryKv e * 4096) 4096) (s.saeBytes n (slotOff c e) (8 * p))
      (if j + 1 = x.npages then x.tokens - p * j else p) a) {}
  if bitOf (leField c 0x14 1) 0 then { a with o := a.o.map fun v => fdiv32 v a.l } else a

/-- The result granules of an item, from granule 0 (R312). -/
def State.saeItemOut (s : State) (n : Nat) (c : List (BitVec 8)) (x : SaeItem) : List (List (BitVec 8)) :=
  let as_ := (List.range (saeGq c)).map fun h => s.saeHead n c x h
  (as_.flatMap fun a => (List.range 8).map fun r =>
    (List.range 16).flatMap fun i => leBytes 4 (a.o.getD (16 * r + i) 0#32).toNat) ++
  [((as_.flatMap fun a => leBytes 4 a.m.toNat ++ leBytes 4 a.l.toNat) ++ List.replicate 64 0#8).take 64]

/-- R315: each faulted item is counted in PLS_SAE and raises EV_SAE_FAULT. -/
def State.saeFault (s : State) (n kind : Nat) : State :=
  let r := s.stack n
  let b := bump 0xFF r.saeFaults r.saeOvf
  ((s.modStack n fun r => { r with saeFaults := b.1, saeOvf := b.2.1, saeKind := kind }).cntOvf b.2.2 (stackWin n + 0x18) 8
    (nodeOfStack n)).raise 0x0402 (nodeOfStack n) n []

/-- R310: at START the engine reads and computes every item; the results wait for their contract cycles. -/
def execSaeStart (cmd : Nat) (s : State) : Out :=
  match s.sae cmd with
  | none => .next s
  | some r =>
    if r.ran then .next s
    else
      let s1 := s.advance (s.cycleOfSched r.start)
      let n := r.stack
      let c := r.cmd
      let excess := decide (saeRbound c < s1.saeWork n c)
      let kinds := (List.range (saeItems c)).map fun i => (i, s1.saeKind n c excess i)
      let out := kinds.flatMap fun e =>
        if e.2 = 0 then s1.saeItemOut n c (s1.saeItem n c e.1) else List.replicate (saeRg c) (List.replicate 64 0#8)
      let bad := kinds.filter fun e => e.2 != 0
      let dests := (List.range (saeItems c)).map fun i => let x := s1.saeItem n c i; (x.dest, x.doff)
      let ranges := (saeList c, 16 * saeItems c) ::
        ((kinds.filter fun e => e.2 == 0 || e.2 == 5).flatMap fun e =>
          let x := s1.saeItem n c e.1
          if 1 ≤ x.npages ∧ x.npages ≤ 256 then s1.saeRanges n c x else [])
      let s2 := ranges.foldl (fun s e =>
        (List.range ((e.1 % 64 + e.2 + 63) / 64)).foldl (fun s i => s.checkGranule n (e.1 / 64 * 64 + 64 * i)) s) s1
      let s3 := bad.foldl (fun s e => s.saeFault n e.2) s2
      .next (s3.modStacks fun t => { t with saes := tput t.saes cmd { r with ran := true, faults := bad, out := out, dests := dests } })

/-- R312, R315, R299, R300: the next result granule lands in its cycle, at rank 2, later by what the routes in force add; a faulted item's
granules are poison. -/
def execSaeResult (cmd : Nat) (s : State) : Out :=
  match s.sae cmd with
  | none => .next s
  | some r =>
    match (saeOrder r.cmd)[r.next]? with
    | none => .next s
    | some (cyc, i, g) =>
      if !r.ran then .next s
      else
        let x := r.dests.getD i (12288, 0)
        let q := s.crossIf r.stack (r.resultAt + cyc)
        let s1 := q.1.advance (s.cycleOfSched q.2 + s.layDelay r.stack x.1)
        let bad := r.faults.any fun e => e.1 == i
        let s2 := s1.modStacks fun t => { t with saes := tput t.saes cmd { r with next := r.next + 1 } }
        .next (s2.deliverTo x.1
          ⟨(x.2 + g) % 32768 * 64, r.out.getD (saeRg r.cmd * i + g) (List.replicate 64 0#8), if bad then 0xFF#8 else 0#8, none⟩)

/-- R313: the completion notice makes the context DONE with count ITEMS, in the cycle the tick compiler laid. -/
def execSaeDone (cmd : Nat) (s : State) : Out :=
  match s.sae cmd with
  | none => .next s
  | some r =>
    let c := r.cmd
    let at_ := r.resultAt + saeRg c * ((saeItems c + saeRpar c - 1) / max 1 (saeRpar c))
    let s1 := (s.advance (s.cycleOfSched at_)).syncCtx
    let k := s1.stack r.stack
    let b := bump 0x7FFF k.saeDone k.saeOvf
    let s2 := (s1.modStack r.stack fun k => { k with saeDone := b.1, saeOvf := b.2.1 }).cntOvf b.2.2 (stackWin r.stack + 0x18) 16
      (nodeOfStack r.stack)
    let s3 := s2.modCtx (ctxKey r.lcore (leField c 1 1 % 8)) fun x =>
      if x.st = .active then { x with st := .done, count := saeItems c } else x
    .next (s3.modStacks fun t => { t with saes := tdel t.saes cmd })

end Sys2Proof.Machine
end

