-- ==== Sys2Proof/Machine/Windows.lean ====
section
/-! DEFINITION. Wadi flits at their destination (R329 to R334), the account of a remote DMA (R340, R393), sweeps (R343 to R346)
and requests to check-value units (R353). -/

namespace Sys2Proof.Machine

open Sys2Proof

/-! ### The checks of a wadi flit (R330, R331, R333) -/

/-- What a wadi admits by its source node (R330). -/
def WadiRec.source (w : WadiRec) (src : Nat) : Bool :=
  if src < 0x3000 then bitOf w.sources 0 && decide (w.coreLo ≤ src) && decide (src ≤ w.coreHi)
  else if src = nodeAt 13 4 ∨ src = nodeAt 130 4 then bitOf w.sources 1
  else if (List.range 8).any fun g => portsNode g == src then bitOf w.sources 2
  else false

/-- Whether a wadi's range holds a granule. -/
def WadiRec.holds (w : WadiRec) (g : Nat) : Bool := decide (w.base ≤ g) && decide (g < w.base + w.size)

/-- The open wadis of a logical core, as a write that arrives now meets them. -/
def State.wadisOf (s : State) (l : Nat) : List WadiRec := (s.wadisNow.filter fun e => e.1 / 16 == l).map (·.2)

/-- Whether physical core `p` carries logical core `l` of a job that runs or drains (R329, R463 step 7). -/
def State.carries (s : State) (p l : Nat) : Bool :=
  (s.job.running || s.job.phase == .drain) && (s.core p).stat.valid && decide ((s.core p).stat.lcore = l)

/-- The reason that drops a wadi flit, the first of R333's order; 0 when R331 admits it. -/
def State.wadiReason (s : State) (p l src gran cls : Nat) : Nat :=
  let a := (s.wadisOf l).filter fun w => w.holds gran
  let b := a.filter fun w => w.source src
  if !s.carries p l then 5
  else if a.isEmpty then 1
  else if b.isEmpty then 2
  else if !(b.any fun w => bitOf w.classes cls) then 3
  else 0

/-- Drop a wadi flit (R333): counted and recorded for its logical core, with EV_WADI_DROP for the first of the tick, and
reported to its account. -/
def State.dropWadi (s : State) (p l src gran reason : Nat) (tag : Option Nat) : State :=
  let d := s.wadiDrop l
  let b := bump (2 ^ 31 - 1) d.count d.ovf
  let s1 := (s.modDrop l fun d => { d with
      count := b.1, ovf := b.2.1, reason := reason, src := src, granule := gran, sentTick := true }).cntOvf b.2.2
    (coreWin p + 0x48) 0 (nodeAt (pSite p) 0)
  let s2 := if d.sentTick then s1 else s1.raise 0x0502 (nodeAt (pSite p) 0) l [(1, reason), (2, src), (2, gran)]
  s2.account tag false

/-- A wadi flit leaves its channel at a core into the buffer of 32, goes on round the ring while the buffer is full (R81, R262), or is dropped (R331,
R333). -/
def State.coreWadi (s : State) (flit : Nat) (f : Flit) (pos due : Nat) (dir : Dir) : State :=
  let p := pcoreOfPos pos
  let gran := (f.arg + f.idx) % 32768
  if s.coreShut p then ((s.dropFlit flit).discard (pSite p)).account f.tag false
  else if 7 ≤ f.laps then s
  else
    match s.wadiReason p f.dest f.src gran f.cls with
    | 0 =>
      if 32 ≤ (s.core p).pipe.wbuf.length then
        if dir = .local then s.setFlit flit { f with pos := .land pos (s.clock.now + 1) dir }
        else s.goRound flit f pos (due - 2 - s.shiftAt pos) due dir
      else
        (s.dropFlit flit).modPipe p fun k => { k with wbuf := k.wbuf ++ [⟨64 * gran, f.bytes, f.poison, f.cls, f.src, f.tag⟩] }
    | r => (s.dropFlit flit).dropWadi p f.dest f.src gran r f.tag

/-- Wait for a cycle in which no source of a rank before 7 claims a bank (R75, R81); what the row shift bus copies claims none (log entry 101). -/
def State.freeBank (s : State) (p bank : Nat) : Nat → State
  | 0 => s
  | n + 1 =>
    let s1 := s.sync p
    if (s1.busyBanks p).contains bank then (s1.advance (s1.clock.now + 1)).freeBank p bank n else s1

/-- The completion records of a core land, each in a cycle in which no source of an earlier rank claims its bank (R340, R75). -/
def State.landRecords (s : State) (p : Nat) : Nat → State
  | 0 => s
  | n + 1 =>
    let s1 := s.sync p
    match (s1.core p).pipe.lowBuf with
    | [] => s1
    | (_, off, _) :: _ =>
      if (s1.busyBanks p).contains (bankOf off) then (s1.advance (s1.clock.now + 1)).landRecords p n
      else (s1.recordHead p s1.clock.now).landRecords p n

/-- R331, R334: the oldest buffered write lands whole where a wadi still admits it, and is dropped as CLOSED where none
does. -/
def execWadiFlitLand (p : PCore) (s : State) : Out :=
  match (s.core p).pipe.wbuf with
  | [] => .next s
  | w :: _ =>
    let s0 := s.freeBank p (bankOf w.off) 4096
    let s1 := s0.modPipe p fun k => { k.useBanks s0.clock.now [bankOf w.off] with wbuf := k.wbuf.drop 1 }
    let l := (s1.core p).stat.lcore
    match s1.wadiReason p l w.src (w.off / 64) w.cls with
    | 0 => .next ((s1.putGranule p w.off w.bytes w.poison).account w.tag true)
    | _ => .next (s1.dropWadi p l w.src (w.off / 64) 4 w.tag)

/-- R329: at the boundary that starts tick EXPIRY. -/
def execWadiExpiry (s : State) : Out :=
  .next { s with win := { s.win with
    wadi := tfilter (fun _ w => w.expiry == 0 || decide (s.clock.tick.toNat < w.expiry)) s.win.wadi
    wadiWas := tfilter (fun _ e => e.2.all fun w => w.expiry == 0 || decide (s.clock.tick.toNat < w.expiry)) s.win.wadiWas } }

/-! ### Completion records (R340) -/

/-- The completion code of a reported RDMA, the first of R340's order that applies. -/
def RdmaRec.code (r : RdmaRec) : Nat :=
  if r.cvuBusy then 0x098
  else if 0 < r.dropped then 0x090
  else if r.mismatch then 0x099
  else if r.poison then 0x093
  else 0

/-- A slot is free, and its completion record lands (R340). -/
def State.completeRdma (s : State) (key code : Nat) : State :=
  let s1 := s.finishRdma key code
  match s1.pcoreOf (key / 4) with
  | some p => s1.landRecords p 4096
  | none => s1

/-- R340: the destination's report is in. -/
def execRdmaReport (l : LCore) (slot : Fin 4) (s : State) : Out :=
  match s.rdma (4 * l + slot) with
  | some r => if r.reported then .next (s.completeRdma (4 * l + slot) r.code) else .next s
  | none => .next s

/-- R340: no report within 2^25 cycles of issue. -/
def execRdmaTimeout (l : LCore) (slot : Fin 4) (s : State) : Out :=
  match s.rdma (4 * l + slot) with
  | some r => if r.reported then .next s else .next ((s.advance r.deadline).completeRdma (4 * l + slot) 0x094)
  | none => .next s

/-! ### Sweeps (R343 to R346) -/

/-- The cores of a site that a completed barchan move vacated rest again once they are swept (R92). -/
def State.restAgain (s : State) (site k : Nat) : State :=
  let p := 104 * site + k
  let c := s.core p
  match s.ldAt site with
  | some ld =>
    if c.stat.run = .idle ∧ !c.stat.valid ∧ s.restOf ld (pRow p) = pCol p then s.modStat p fun x => { x with run := .resting }
    else s
  | none => s

/-- A site of an erg that is back in service returns, swept, to the role that R61 and R555 give it; one that served no more before stays so. -/
def State.siteBack (s : State) (site : Nat) : State :=
  let was := tget .retired s.panel.before site
  let s1 := (s.modPanel fun p => { p with
    before := tdel p.before site
    die := tput p.die site (if was = .retired then .off else .ready) }).setRole site (if was = .retired then .retired else .spare)
  if was = .retired then s1 else s1.dress site

/-- The sites of an erg are swept: they return, dies that are unbound take them or spares, and one record is committed (R61, R655, R60). -/
def State.ergBack (s : State) (e : Nat) : State :=
  let sites := (ergSites e).filter fun x => !isGw x && s.roleOf x == .dark
  let s1 := (s.each State.siteBack sites).modPanel fun p => { p with returning := p.returning.filter (· ≠ e) }
  ((s1.rebind sites).commitRecord.rebindJob).shortOver

/-- A site that returns is swept, and serves (R342): with the rest of its erg, or as a spare alone. -/
def State.siteServes (s : State) (site : Nat) : State :=
  let e := ergOf site
  if (s.dieSweep site).cause ≠ .back then s
  else if s.panel.returning.contains e then
    if (ergSites e).all fun x => (s.dieSweep x).left.isEmpty then s.ergBack e else s
  else s.rebindLate

/-- A site's sweep has no core left: DONE, or FAILED where cores failed it; the die raises EV_SWEEP_DONE for its own trigger
(R345, R346). -/
def State.siteSwept (s : State) (site : Nat) : State :=
  let d := s.dieSweep site
  if !d.left.isEmpty then s
  else
    let bad := !d.failed.isEmpty
    let s1 := s.modSweep site fun d => { d with st := if bad then 3 else 2, own := false }
    ((if d.own then s1.sweepEvent site d.cause (b2n bad) else s1).siteServes site).reportEnd

/-- R343: a core's sweep completes, or that of every core of the site that is still to complete. -/
def execSweepComplete (site : Site) (k : Option (Fin 104)) (s : State) : Out :=
  let d := s.dieSweep site
  let ks := match k with
    | some i => d.left.filter (· == i.val)
    | none => d.left
  if ks.isEmpty then .next s
  else
    let s1 := s.each (fun s i => (s.sweptCore (104 * site + i)).restAgain site i) ks
    .next ((s1.modSweep site fun d => { d with left := d.left.filter fun i => !ks.contains i }).siteSwept site)

/-- R346: a core that runs past 8,448 cycles has failed its sweep, which is a unit fault; its contents read poison on. -/
def execSweepTimeout (p : PCore) (s : State) : Out :=
  let site := pSite p
  let d := s.dieSweep site
  if !d.left.contains (pIdx p) then .next s
  else
    let s1 := s.recordOffBundle p ST_CORE_HW none
    let s2 := s1.modStat p fun c => { c with run := .sweeping }
    .next ((s2.modSweep site fun d => { d with
      st := 3, left := d.left.filter (· ≠ pIdx p), failed := pIdx p :: d.failed.filter (· ≠ pIdx p) }).siteSwept site)

/-! ### Check-value units (R352, R353) -/

/-- R353: a stream asks a unit; it is taken, waits in the queue of 8, or is refused and counted. -/
def execCvuRequest (unit : Cvu) (node rseq : Nat) (mode : Fin 4) (alg64 : Bool) (expect : Option Nat) (s : State) : Out :=
  if mode.val = 0 then .next s
  else .next (s.askCvu unit { node := node % 16384, rseq := rseq, mode := mode, alg := alg64, expect := expect }).1

end Sys2Proof.Machine
end

