-- ==== Sys2Proof/Machine/Zfp.lean ====
section
/-! DEFINITION. Zilusk fabric ports (10): training and width, link frames, transit, delivery of packets, the routing flip, circuits
and the pair link; the link layer of the Jisto links (R437). -/

namespace Sys2Proof.Machine

open Sys2Proof

/-! ### Ports and links -/

/-- The node of a port (0 to 31) or Jisto link (32, 33). -/
def linkNode (p : Nat) : Nat := if p < 32 then portsNode (p / 4) else nodeAt (if p = 32 then 13 else 130) 4

/-- Lanes of a port, or of a Jisto link (R437), when all are good. -/
def allLanes (p : Nat) : Nat := if p < 32 then 0xFF else 0xF

/-- Whether every lane of one half is good (R359, R437). -/
def halfGood (p lanes : Nat) : Bool :=
  if p < 32 then bitsOf lanes 0 4 == 15 || bitsOf lanes 4 4 == 15 else bitsOf lanes 0 2 == 3 || bitsOf lanes 2 2 == 3

/-- ZFP_PAIR.UP as R399 gives it. -/
def State.pairIsUp (s : State) : Bool := s.pairPorts.any fun p => (s.port p).peerDev == s.zfp.partner

/-- Bring ZFP_PAIR.UP up to date: EV_ZFP_PAIR when it falls (R399). -/
def State.pairCheck (s : State) : State :=
  let s1 := s.modZfp fun z => { z with pairUp := s.pairIsUp }
  if s.zfp.pairUp && !s.pairIsUp then s1.raise 0x0603 panelNode noUnit [] else s1

/-- A link leaves UP: its sequence numbers and credits restart (R574), and the frames not acknowledged wait ahead of the queue. LANES_OK stays. -/
def PortRec.leaveUp (r : PortRec) (mode : LinkMode) : PortRec :=
  { r with
    mode := mode, txSeq := 0, rxSeq := 4095, gapNak := false, credits := [], replay := [], rxHeld := []
    txq := r.replay.map (fun f => f.tx) ++ r.txq
    wrr := 0, slot16 := 0, circUse := [] }

/-- Take a link out of UP into a mode. -/
def State.takeDown (s : State) (p : Nat) (mode : LinkMode) : State :=
  let s1 := ((s.modPort p fun r => r.leaveUp mode).pairCheck).c0Load p
  if p < 32 then s1 else if mode = .failed then s1.jistoLost (p - 32) else s1.jistoDown (p - 32)

/-- EV_LINK_QUAL (R572). -/
def State.linkQual (s : State) (p : Nat) : State := s.raise 0x0C02 (linkNode p) (if p < 32 then p else p - 32) []

/-- A link comes UP, at full or half width: what waits for it goes out, transfers that found no link among it (R454). -/
def State.comeUp (s : State) (p : Nat) (lanes : BitVec 8) (peer : Nat) : State :=
  let s1 := s.modPort p fun r => { r with
    mode := if lanes.toNat = allLanes p then .up else .upHalf
    lanesOk := lanes, peerDev := peer, lastRun := 0, trains := 0, live := false }
  if p < 32 then (s1.pairCheck).pump p
  else s1.jistoUp (p - 32)

/-- Whether a gateway's router serves. -/
def State.gwServes (s : State) (g : Nat) : Bool := s.routerUp (gwSite g)

/-- R357: ENABLE lets a port train; a fall takes it down. A MEDIUM value that is not used changes nothing. -/
def execPortEnable (port : Port) (enable : Bool) (medium : BitVec 2) (s : State) : Out :=
  let m := medium.toNat
  let s1 := s.modPort port fun r => { r with enable := enable, medium := if m < 2 then m else r.medium }
  let r := s1.port port
  if !enable then .next (s1.takeDown port .down)
  else if (r.mode = .down ∨ r.mode = .disabled) ∧ s.gwServes (port / 4) then
    .next (s1.modPort port fun r => { r with mode := .training, trains := 0, live := false })
  else .next s1

/-- R575, R578: a port that is UP retrains live, one that is not trains in full; a retrain in progress takes the request in. -/
def execRetrain (port : Port) (s : State) : Out :=
  let r := s.port port
  if !r.enable || r.mode == .training || !s.gwServes (port / 4) then .next s
  else .next ((s.takeDown port .training).modPort port fun x => { x with live := r.up, trains := 0 })

/-- R357. -/
def execDisable (port : Port) (s : State) : Out := .next (s.takeDown port .disabled)

/-- A Jisto link that has gone to FAILED loses its CPLs (R577). -/
def State.failedLink (s : State) (p : Nat) : State := if p < 32 then s else s.jistoLost (p - 32)

/-- The end of a training that found `lanes` good and passed its test: UP, UP_HALF, or FAILED with no half whole. -/
def State.trained (s : State) (p : Nat) (lanes : BitVec 8) (peer : Nat) : State :=
  if lanes.toNat = allLanes p ∨ halfGood p lanes.toNat then s.comeUp p lanes peer
  else (s.modPort p fun r => { r with mode := .failed, lanesOk := lanes, live := false, trains := 0 }).failedLink p

/-- R358, R572, R575: a full training ends. A first failure trains once more from the defaults; a second leaves half width or
FAILED with EV_LINK_QUAL, and after a live retrain that did not qualify FAILED. -/
def execTrainingComplete (link : Fin 34) (pass : Bool) (lanesOk : BitVec 8) (peer : BitVec 16) (s : State) : Out :=
  let r := s.port link
  if r.mode ≠ .training ∨ r.live then .next s
  else if pass then .next (s.trained link lanesOk peer.toNat)
  else if r.trains = 0 then .next (s.modPort link fun x => { x with trains := 1 })
  else if r.trains = 1 ∧ halfGood link lanesOk.toNat then
    .next ((s.comeUp link (if lanesOk.toNat = allLanes link then 0xF#8 &&& lanesOk >>> (if link.val < 32 then 0 else 2) else lanesOk)
      peer.toNat).linkQual link)
  else .next (((s.modPort link fun x => { x with mode := .failed, lanesOk := lanesOk, trains := 0 }).failedLink link).linkQual link)

/-- R359, R437: a link with one half whole retrains at half width on it; with none it goes to FAILED. -/
def execLaneFailure (link : Fin 34) (lanesOk : BitVec 8) (s : State) : Out :=
  let r := s.port link
  if !r.up || decide (lanesOk.toNat = allLanes link) then .next s
  else if halfGood link lanesOk.toNat then
    .next ((s.takeDown link .training).modPort link fun x => { x with lanesOk := lanesOk, live := true, trains := 0 })
  else .next ((s.takeDown link .failed).modPort link fun x => { x with lanesOk := lanesOk })

/-! ### Link frames (R360 to R364) -/

/-- `n` counts at once of a counter with maximum `mx`, as `bump` counts one. -/
def bumpN (mx v n : Nat) (ovf : Bool) : Nat × Bool × Bool :=
  if v + n ≤ mx then (v + n, ovf, false) else (mx, true, !ovf)

/-- Count corrected and uncorrectable codewords (R360): ZFP_PORT_FEC, or HIF_LINK_ERR. -/
def State.countFec (s : State) (p corr uncorr : Nat) : State :=
  let r := s.port p
  let port := decide (p < 32)
  let reg := if port then 0x400008 + 0x400 * p else 0x100008 + 0x20 * (p - 32)
  let a := bumpN (if port then 2 ^ 39 - 1 else 2 ^ 31 - 1) r.corr corr r.fecOvf
  let b := bumpN (if port then 2 ^ 24 - 1 else 0xFFFF) r.uncorr uncorr a.2.1
  (((s.modPort p fun r => { r with corr := a.1, uncorr := b.1, fecOvf := b.2.1 }).cntOvf a.2.2 reg (if port then 24 else 32)
    (linkNode p)).cntOvf b.2.2 reg 0 (linkNode p))

/-- Frames of a replay buffer after an ACK of SEQ `ack`. -/
def ackedTo (q : List SentFrame) (ack : Nat) : List SentFrame :=
  match q.findIdx? fun f => f.seq == ack with
  | some i => q.drop (i + 1)
  | none => q

/-- Take an ACK and returned credits from a frame's header (R361, R362). -/
def State.takeAck (s : State) (p ack cls credits : Nat) : State :=
  ((s.modPort p fun r => { r with
    replay := ackedTo r.replay ack, credits := tput r.credits cls (min 256 (r.credit cls + credits)) }).pump p).pace
    |>.modHif fun h => if p < 32 then h else { h with cpls := ackCpls (p - 32) ack h.cpls }

/-- Reserved fields and classes of a packet, by KIND (R366, R367, R368). -/
def packetFits (p : Packet) (granules : Nat) : Bool :=
  let inlZero (n : Nat) : Bool := (p.inl.drop n).all fun b => b == 0#8
  let c := p.cls
  (c ≠ 0 || granules == 0) &&
  (match p.kind with
   | 0 => decide (1 ≤ c) && inlZero 0
   | 1 => decide (c = 1 ∨ c = 2) && inlZero 0 && decide (bitsOf p.arg 12 4 = 0 ∧ p.arg / 2 ^ 28 = 0)
   | 2 => decide (1 ≤ c) && inlZero 15 && decide (leField p.inl 14 1 < 4)
   | 3 => decide (c = 0) && decide (p.gaddr % 2 ^ 48 = 0 ∧ leField p.inl 6 1 < 4 ∧ leField p.inl 7 1 = 0)
   | 4 => decide (c = 0) && decide (p.arg < 256 ∧ leField p.inl 11 1 = 0 ∧ (p.arg = 5 ∨ p.arg = 6 ∨ leField p.inl 12 4 = 0))
   | 5 => decide (c = 0 ∨ c = 3) && decide (p.arg < 2 ^ 18)
   | 6 => decide (c = 0 ∨ c = 3)
   | 7 => decide (c = 0 ∨ c = 3) && decide (p.arg = 0)
   | _ => false)

/-- A packet's header as R365 lays it out, and whether R368 drops it. HOPS counts as 0 in HCHK. -/
def parsePacket (bs : List (BitVec 8)) : Packet × Bool :=
  let vk := leField bs 0 1
  let cce := leField bs 1 1
  let len := leField bs 2 1
  let circ := leField bs 0x12 2
  let p : Packet :=
    { cls := cce / 64, kind := vk % 16, chan := bitsOf cce 2 4, epoch := bitOf cce 1, circOn := bitOf cce 0, last := bitOf len 3
      rpt := bitOf len 4, trailer := bitOf len 5, hops := leField bs 3 1, srcDev := leField bs 4 2, srcInc := leField bs 6 2
      gaddr := leField bs 8 8, srcNode := leField bs 0x10 2, circ := circ, arg := leField bs 0x14 4
      poison := BitVec.ofNat 32 (leField bs 0x18 4), inl := ((bs.drop 0x20) ++ List.replicate 32 0#8).take 32
      data := (bs.drop 64).take (64 * (len % 8)) }
  let sum := (crc32c (bs.take 3 ++ [0#8] ++ (bs.drop 4).take 0x18)).toNat
  let ok := decide (vk / 16 = 1) && decide (len < 64 ∧ len % 8 ≤ 4) && decide (bs.length = 64 * (1 + len % 8)) &&
    decide (leField bs 0x1C 4 = sum) && (if p.circOn then decide (circ < 1024) else circ == 0) && packetFits p (len % 8)
  (p, !ok)

/-- Send an ACK or NAK frame (R361): it names the last DATA frame received in order, and returns `n` credits of a class. -/
def PortRec.sendCtl (r : PortRec) (nak : Bool) (cls n : Nat) : PortRec := { r with lastCtl := some ⟨nak, r.rxSeq, cls, n⟩ }

/-- A frame is discarded: the first one of a gap is answered with one NAK (R363). -/
def State.gap (s : State) (p : Nat) : State :=
  s.modPort p fun r => if r.gapNak then r else { r.sendCtl true 0 0 with gapNak := true }

/-- Units of a class that a port's receive buffer holds. -/
def PortRec.held (r : PortRec) (cls : Nat) : Nat := tget 0 r.rxHeld cls

/-- Units leave a port's receive buffer: an ACK frame returns their credits (R361, R362). -/
def State.freeUnits (s : State) (p cls n : Nat) : State :=
  let k := min n ((s.port p).held cls)
  if k = 0 then s else s.modPort p fun r => { r with rxHeld := tput r.rxHeld cls (r.held cls - k) }.sendCtl false cls k

/-- An accepted packet waits in its gateway with HOPS one less (R372), in the receive buffer; one that R368 refuses, or that finds the device without a
number (R369), is dropped at once. -/
def State.takeIn (s : State) (p cls : Nat) (bytes : List (BitVec 8)) : State :=
  let q := parsePacket bytes
  let s1 := s.modPort p fun r => { r with rxHeld := tput r.rxHeld cls (r.held cls + bytes.length / 64) }
  if s.zfp.devNum = 0xFFFF then (s1.freeUnits p cls (bytes.length / 64)).dropNoRoute
  else if q.2 then (s1.freeUnits p cls (bytes.length / 64)).dropRefused
  else s1.receive p { q.1 with hops := q.1.hops - 1 }

/-- R360 to R363: a DATA frame is accepted when it is whole, follows the last one and finds room (log entry 244), and discarded otherwise, with one NAK
for the gap. -/
def execDataFrame (link : Fin 34) (corr uncorr : Nat) (seq ack : BitVec 12) (crclass : BitVec 2) (credits : BitVec 6) (cls : BitVec 2)
    (body : List (BitVec 8)) (s : State) : Out :=
  if !(s.port link).up then .next s
  else
    let s1 := s.countFec link corr uncorr
    match if 0 < uncorr then none else readFrame (dataWire seq ack crclass credits cls body) with
    | none => .next (s1.gap link)
    | some (h, bytes) =>
      let r := s1.port link
      if h.seq ≠ (r.rxSeq + 1) % 4096 ∨ 256 < r.held h.cls + h.units then .next (s1.gap link)
      else
        let s2 := (s1.modPort link fun r => ({ r with rxSeq := h.seq, gapNak := false }).sendCtl false 0 0).takeAck link h.ack h.crclass
          h.credits
        .next (if link.val < 32 then s2.takeIn link h.cls bytes else s2)

/-- R360 to R362. A frame that fails is discarded. -/
def execAckFrame (link : Fin 34) (corr uncorr : Nat) (frame : List (BitVec 8)) (s : State) : Out :=
  if !(s.port link).up then .next s
  else
    let s1 := s.countFec link corr uncorr
    match if 0 < uncorr then none else readFrame frame with
    | some (h, _) => .next (if h.typ = 1 then s1.takeAck link h.ack h.crclass h.credits else s1)
    | none => .next s1

/-- Every frame after the named SEQ is sent again (R363). -/
def State.replayFrom (s : State) (p ack : Nat) : State :=
  let r := s.port p
  let q := (ackedTo r.replay ack).map fun f => { f with resends := f.resends + 1 }
  let port := decide (p < 32)
  let b := bump (if port then 0x7FFF else 0xFFFF) r.replays (if port then r.retryOvf else r.fecOvf)
  let reg := if port then 0x400010 + 0x400 * p else 0x100008 + 0x20 * (p - 32)
  (s.modPort p fun r => { r with
    replay := q, replays := b.1
    retryOvf := if port then b.2.1 else r.retryOvf, fecOvf := if port then r.fecOvf else b.2.1
    lastRun := min 0xFF (max r.lastRun (q.foldl (fun m f => max m f.resends) 0)) }).cntOvf b.2.2 reg 16 (linkNode p)

/-- R360 to R363. A frame that fails is discarded. -/
def execNakFrame (link : Fin 34) (frame : LineFrame) (s : State) : Out :=
  if !(s.port link).up then .next s
  else
    let s1 := s.countFec link frame.corr frame.uncorr
    match if 0 < frame.uncorr then none else readFrame frame.bytes with
    | some (h, _) => .next (if h.typ = 2 then (s1.replayFrom link h.ack).takeAck link h.ack h.crclass h.credits else s1)
    | none => .next s1

/-- R364: a frame resent 8 times takes the port DOWN; its queues are dropped and counted, and a live retrain starts under the
port's next incarnation (R485). -/
def execPortDown (link : Fin 34) (s : State) : Out :=
  let r := s.port link
  if !(r.up && r.replay.any fun f => decide (8 ≤ f.resends)) then .next s
  else
    let s1 := (s.takeDown link .training).modPort link fun x => { x with live := true, trains := 0 }
    if link.val < 32 then
      let b := bump 0xFF r.downs r.retryOvf
      .next ((((s1.modPort link fun x => { x with txq := [], downs := b.1, retryOvf := b.2.1 }).cntOvf b.2.2
          (0x400010 + 0x400 * link.val) 0 (linkNode link)).dropNoRoutes (r.replay.length + r.txq.length)).raise 0x0601
        (linkNode link) link []
        |>.raiseInc (0x8000 + link.val))
    else .next s1

/-- The Jisto link of a lost gateway site goes DOWN (R444). -/
def State.jistoOut (s : State) (g : Nat) : State :=
  if g = 0 then (s.takeDown 32 .down).jistoLost 0 else if g = 7 then (s.takeDown 33 .down).jistoLost 1 else s

/-- R391: a gateway's four ports go DOWN, with EV_ZFP_PORT for each, and the packets held in it are lost. -/
def State.gatewayDown (s : State) (g : Nat) : State :=
  let s1 := s.each (fun s p =>
    ((s.modPort p fun r => { (r.leaveUp .down) with txq := [], live := false, trains := 0 })).raise 0x0601 (portsNode g) p [])
    [4 * g, 4 * g + 1, 4 * g + 2, 4 * g + 3]
  (s1.modZfp fun z => { z with
    rx := tfilter (fun _ x => x.port / 4 != g) z.rx
    transits := tfilter (fun _ x => x.ingress != g && x.egress != g) z.transits
    red := z.red.filter fun x => x.1 != g
    incoming := tfilter (fun _ a => a.gw != g) z.incoming
    sends := z.sends.filter fun e => e.gw != g }).pairCheck
    |>.jistoOut g

/-- R391: a peer's gateway has left service. -/
def execLinkLoss (port : Port) (s : State) : Out :=
  let r := s.port port
  if r.up then .next ((s.takeDown port .down).raise 0x0601 (linkNode port) port []) else .next s

/-! ### Packets in a gateway -/

/-- The membership table's entry for a device, the live one where it has several (R375, R488, R494). -/
def State.memberOf (s : State) (dev : Nat) : Option Member :=
  if dev = 0xFFFF then none
  else ((s.cons.members.find? fun e => e.2.dev == dev && e.2.live).orElse fun _ => s.cons.members.find? fun e => e.2.dev == dev).map (·.2)

/-- Whether R375 drops a packet. -/
def State.isStale (s : State) (p : Packet) : Bool :=
  match s.memberOf p.srcDev with
  | some m => decide (p.srcInc ≠ m.inc % 65536)
  | none => false

/-- CONS_ERR of both engines counts a FENCED notice. -/
def State.countNotice (s : State) : State :=
  let b := bump 0x3FF s.cons.fencedSent s.cons.ovf
  ({ s with cons := { s.cons with fencedSent := b.1, ovf := b.2.1 } }).cntOvf b.2.2 (dieWin 13 + 0x830) 10 s.consNode

/-- R484: a FENCED notice names the receiver's incarnation, which R482 keeps one behind the table's; at most one a device in 1 ms. -/
def State.notice (s : State) (dev : Nat) : State :=
  match s.memberOf dev with
  | none => s
  | some m =>
    let free := match tfind s.cons.noticed dev with
      | some t => decide (t + s.cyclesOf (1000 * usec) ≤ s.clock.now)
      | none => true
    if free then
      let s1 : State := { s with cons := { s.cons with noticed := tput s.cons.noticed dev s.clock.now } }
      s1.countNotice.sendState 5 dev s.cons.view 0 ((m.inc + 2 ^ 32 - 1) % 2 ^ 32) 0 []
    else s

/-- What a gateway does with an arrived packet before anything else: none when it goes on, else the drop that takes it (R369,
R375, R398). -/
def State.arrivalDrop (s : State) (x : RxPacket) : Option State :=
  if x.port = 40 then none
  else if s.zfp.devNum = 0xFFFF then some s.dropNoRoute
  else if s.zfp.isPair x.port && (decide (x.pkt.srcDev ≠ s.zfp.partner) || decide (x.pkt.gaddr / 2 ^ 48 ≠ s.zfp.devNum)) then
    some s.dropRefused
  else if s.isStale x.pkt then some (s.dropStale.notice x.pkt.srcDev)
  else none

/-- Take a packet out of its gateway, and its units out of the receive buffer of its port. -/
def State.dropRx (s : State) (id : Nat) : State :=
  (match tfind s.zfp.rx id with
   | some x => if x.port < 32 then s.freeUnits x.port x.pkt.cls x.pkt.units else s
   | none => s).modZfp fun z => { z with rx := tdel z.rx id }

/-- A waiting packet for this device of a kind: none when there is none. -/
def State.rxFor (s : State) (id kind : Nat) : Option RxPacket :=
  match tfind s.zfp.rx id with
  | some x => if x.pkt.kind = kind ∧ (x.pkt.gaddr / 2 ^ 48 = s.zfp.devNum ∨ s.zfp.devNum = 0xFFFF) then some x else none
  | none => none

/-- Position of a gateway's Zilusk ports node. -/
def portsPos (g : Nat) : Nat := posOf (13 * siteX (gwSite g) + 6) (8 * siteY (gwSite g) + 5)

/-- Put a packet's flits on the mesh (R388): flit 0 is its head unit; a packet of 5 flits is a message of 4 and one of 1. -/
def State.transitFlits (s : State) (id ing eg num : Nat) (p : Packet) (n : Nat) : Nat → State
  | 0 => s
  | k + 1 =>
    let i := n - (k + 1)
    let f : Flit :=
      { cls := p.cls, kind := 0xA, epoch := s.epochAt (gwSite ing), idx := i % 4, last := i == n - 1 || i == 3, sched := false
        poison := if i = 0 then 0#8 else BitVec.ofNat 8 (p.poison.toNat / 2 ^ (8 * (i - 1)))
        dest := portsNode eg, src := portsNode ing, inc := inc8 (s.incOf (portsNode ing)), delay := 0, arg := 8 * num + i, laps := 0
        bytes := if i = 0 then p.head else (p.data.drop (64 * (i - 1))).take 64
        pos := .ramp (portsPos ing) (s.clock.now + i), fromBuf := false, tag := some id }
    (s.addFlit f).transitFlits id ing eg num p n k

/-- Forward a packet that arrived on a port: out of its own gateway, or over the mesh to another (R388). -/
def State.forward (s : State) (x : RxPacket) (port : Nat) (circ : Option Nat) : State :=
  let ing := x.port / 4
  let eg := port / 4
  if ing = eg then s.emitAt port x.pkt circ (some x.at_)
  else
    let key := 8 * ing + eg
    let num := tget 0 s.zfp.txNum key
    let id := s.zfp.nextTransit
    let n := 1 + x.pkt.data.length / 64
    (s.modZfp fun z => { z with
      txNum := tput z.txNum key ((num + 1) % 4096), nextTransit := id + 1
      transits := tput z.transits id
        { ingress := ing, egress := eg, num := num, port := port, pkt := x.pkt, circ := circ, flits := List.range n, ready := none
          at_ := x.at_, aged := false } }).transitFlits id ing eg num x.pkt n n

/-- Forward copies to every port of a mask that is UP; a pair port takes none (R398). -/
def State.forwardMask (s : State) (x : RxPacket) (mask : Nat) : List Nat → State
  | [] => s
  | q :: qs => (if bitOf mask q && (s.port q).up && !s.zfp.isPair q then s.forward x q none else s).forwardMask x mask qs

/-- R371 to R375, R378, R388: a packet for another device, or for all. -/
def execTransitPacket (rx : Nat) (s : State) : Out :=
  match tfind s.zfp.rx rx with
  | none => .next s
  | some x =>
    let dest := x.pkt.gaddr / 2 ^ 48
    if x.port = 40 ∨ (dest = s.zfp.devNum ∧ dest ≠ 65535) then .next s
    else
      let s1 := s.dropRx rx
      match s1.arrivalDrop x with
      | some s2 => .next s2
      | none =>
        if dest = 65535 then
          if !(x.pkt.kind == 3 || x.pkt.kind == 4 || x.pkt.kind == 7) then .next s1.dropRefused
          else
            let m := tget 0 (s1.zfp.version x.pkt.epoch).bcast x.port
            let s2 := if bitOf m 32 then
                s1.receive x.port { x.pkt with gaddr := s1.zfp.devNum * 2 ^ 48 + x.pkt.gaddr % 2 ^ 48 }
              else s1
            if x.pkt.hops = 0 then .next s2.dropAged else .next (s2.forwardMask x m (List.range 32))
        else if x.pkt.hops = 0 then .next s1.dropAged
        else match s1.routeOf x.pkt x.port with
          | some (q, c) => .next (s1.forward x q c)
          | none => .next s1.dropNoRoute

/-- The cycle past which R382 drops a packet that arrived in cycle `t`. -/
def State.ageLimit (s : State) (cls t : Nat) : Nat := t + s.cyclesOf (usec * (if cls = 0 then 2 else 16))

/-- The transit of a pair of gateways with a number. -/
def State.transitNum (s : State) (ing eg num : Nat) : Option (Nat × Transit) :=
  s.zfp.transits.find? fun e => e.2.ingress == ing && e.2.egress == eg && e.2.num == num

/-- Send the packets that are complete, in transit-number order (R389). -/
def State.releaseTransits (s : State) (ing eg : Nat) : Nat → State
  | 0 => s
  | n + 1 =>
    let key := 8 * ing + eg
    match s.transitNum ing eg (tget 0 s.zfp.rxNum key) with
    | some (id, t) =>
      if t.ready.isSome then
        let s1 := s.modZfp fun z => { z with
          transits := tdel z.transits id, rxNum := tput z.rxNum key ((tget 0 z.rxNum key + 1) % 4096) }
        (if t.aged then s1 else s1.emitAt t.port t.pkt t.circ (some t.at_)).releaseTransits ing eg n
      else s
    | none => s

/-- R382: a packet still held past its limit, wherever the device holds it, is dropped. -/
def execPacketAged (held : HeldPacket) (s : State) : Out :=
  match held with
  | .rx id => match tfind s.zfp.rx id with
    | some x =>
      if x.port = 40 then .next s
      else .next ((s.advance (s.ageLimit x.pkt.cls x.at_ + 1)).dropRx id).dropAged
    | none => .next s
  | .transit id => match tfind s.zfp.transits id with
    | some x =>
      if x.aged then .next s
      else
        let s1 := s.advance (s.ageLimit x.pkt.cls x.at_ + 1)
        let s2 := (s1.modZfp fun z => { z with
          transits := tput z.transits id { x with aged := true, ready := some (x.ready.getD s1.clock.now) } }).dropAged
        .next (s2.releaseTransits x.ingress x.egress s2.zfp.transits.length)
    | none => .next s
  | .tx port i => match (s.port port).txq[i]? with
    | some e => match e.at_ with
      | some t =>
        .next (((s.advance (s.ageLimit e.pkt.cls t + 1)).modPort port fun r => { r with txq := r.txq.eraseIdx i }).dropAged)
      | none => .next s
    | none => .next s

/-- R389: a flit reaches its egress gateway; the last one completes its packet, a poisoned one poisons what it carried. -/
def execTransitReassembly (flit : Nat) (s : State) : Out :=
  match s.flit flit with
  | none => .next s
  | some f =>
    match f.pos with
    | .land _ due _ =>
      if f.kind ≠ 0xA then .next s
      else
        let s1 := (s.advance due).dropFlit flit
        match tfind s1.zfp.transits (f.tag.getD 0) with
        | none => .next s1
        | some t =>
          let i := f.arg % 8
          let left := t.flits.filter (· ≠ i)
          let bad := if i = 0 then 0 else f.poison.toNat * 2 ^ (8 * (i - 1))
          let t1 := { t with
            flits := left, pkt := { t.pkt with poison := t.pkt.poison ||| BitVec.ofNat 32 bad }
            ready := if left.isEmpty && t.ready.isNone then some s1.clock.now else t.ready }
          let s2 := s1.modZfp fun z => { z with transits := tput z.transits (f.tag.getD 0) t1 }
          .next (s2.releaseTransits t.ingress t.egress s2.zfp.transits.length)
    | _ => .next s

/-- R389: 4,096 cycles after a later packet is whole, a number still missing is passed over. -/
def execTransitGapTimeout (ingress egress : Gateway) (s : State) : Out :=
  let key := 8 * ingress.val + egress.val
  let num := tget 0 s.zfp.rxNum key
  let ready := (s.zfp.transits.filter fun e => e.2.ingress == ingress.val && e.2.egress == egress.val && e.2.num != num).filterMap
    fun e => e.2.ready
  match s.transitNum ingress egress num, ready with
  | some (_, t), r :: rs =>
    if t.ready.isSome then .next s
    else
      let s1 := (s.advance (lowest (r :: rs) + 4096)).dropAged
      let s2 := s1.modZfp fun z => { z with
        transits := tfilter (fun _ x => !(x.ingress == ingress.val && x.egress == egress.val && x.num == num)) z.transits
        rxNum := tput z.rxNum key ((num + 1) % 4096) }
      .next (s2.releaseTransits ingress egress s2.zfp.transits.length)
  | _, _ => .next s

/-! ### Delivery (R392 to R394) -/

/-- The words of a packet's data that are poison. -/
def Packet.bad (p : Packet) : List Bool := (List.range 32).map fun i => p.poison.getLsbD i

/-- The account of an RDMA's packets at a gateway, opened by its first packet (R393). -/
def State.openAccount (s : State) (gw : Nat) (p : Packet) : State × Nat :=
  match s.zfp.incoming.find? fun e => e.2.gw == gw && e.2.srcDev == p.srcDev && e.2.srcNode == p.srcNode && e.2.seq == p.arg with
  | some (i, _) => (s, i)
  | none =>
    let i := s.zfp.nextIn
    (s.modZfp fun z => { z with
      nextIn := i + 1
      incoming := tput z.incoming i
        { srcDev := p.srcDev, srcNode := p.srcNode, seq := p.arg, gw := gw, cls := p.cls, chan := p.chan, sent := 0, landed := 0
          dropped := 0, last := false, bytes := [], mismatch := false, cvuBusy := false, shadow := false } }, i)

/-- Change an account. -/
def State.modIncoming (s : State) (i : Nat) (f : Incoming → Incoming) : State :=
  match s.incoming i with
  | some a => s.modZfp fun z => { z with incoming := tput z.incoming i (f a) }
  | none => s

/-- A write that a gateway refuses: counted, and its granules are dropped ones in a report (R393). -/
def State.refuseWrite (s : State) (gw : Nat) (p : Packet) : State :=
  if p.rpt then
    let n := p.data.length / 64
    let q := s.openAccount gw p
    (q.1.modIncoming q.2 fun a => { a with sent := a.sent + n, dropped := a.dropped + n, last := a.last || p.last }).settle q.2
  else s

/-- Add a part of a stream by its address (R354). -/
def addPart (off : Nat) (d : List (BitVec 8)) : List (Nat × List (BitVec 8)) → List (Nat × List (BitVec 8))
  | [] => [(off, d)]
  | e :: r => if e.1 ≤ off then e :: addPart off d r else (off, d) :: e :: r

/-- A receiving unit's trailer check (R352): the result is posted, and a difference is counted and raises EV_CVU_MISMATCH. -/
def State.checkTrailer (s : State) (u : Nat) (q : CvuReq) (bytes : List (BitVec 8)) : State × Bool :=
  let v := checkValue q.alg bytes
  let ok := q.expect == some v
  let c := s.cvu u
  let win := if u < 8 then dieWin (gwSite u) + 0x200 else stackWin (u - 8) + 0x200
  let node := if u < 8 then nodeAt (gwSite u) 7 else nodeOfStack (u - 8)
  let b := bump 0x7FFF c.mismatch c.ovf
  let s1 := s.modCvu u fun c => c.post q (if ok then 1 else 2) bytes.length v
  if ok then (s1, false)
  else (((s1.modCvu u fun c => { c with mismatch := b.1, ovf := b.2.1 }).cntOvf b.2.2 (win + 8) 16 node).raise 0x0504 node
    noUnit [], true)

/-- The trailer of an RDMA arrives at its receiving gateway's unit, which checks it at once, or when it comes to it, or not at
all with its queue full (R340, R353). -/
def State.trailerIn (s : State) (i : Nat) (p : Packet) : State :=
  match s.incoming i with
  | none => s
  | some a =>
    let q : CvuReq :=
      { node := portsNode a.gw, rseq := a.seq, mode := 3, alg := decide (leField p.data 8 1 = 1), expect := some (leField p.data 0 8) }
    let r := s.askCvu a.gw q
    match r.2 with
    | 0 =>
      let t := r.1.checkTrailer a.gw q (a.bytes.flatMap (·.2))
      (((t.1.modCvu a.gw CvuRec.next).modIncoming i fun a => { a with mismatch := t.2, last := true }).settle i)
    | 1 => r.1
    | _ => (r.1.modIncoming i fun a => { a with cvuBusy := true, last := true }).settle i

/-- R332: a gateway passes a write into the scratchpad range only from a live member of the group at its incarnation, and only
within one core's scratchpad. -/
def State.passesWrite (s : State) (p : Packet) : Bool :=
  let a := p.gaddr % 2 ^ 48
  (match s.memberOf p.srcDev with
   | some m => m.live && decide (p.srcInc = m.inc % 65536)
   | none => false) &&
  decide (0x400000000000 ≤ a ∧ a < 0x400600000000 ∧ a % 64 = 0 ∧ a % spadSize + p.data.length ≤ spadSize)

/-- R392: a WRITE for this device. -/
def execWritePacket (rx : Nat) (s : State) : Out :=
  match s.rxFor rx 0 with
  | none => .next s
  | some x =>
    let p := x.pkt
    let gw := x.port / 4 % 8
    let s1 := s.dropRx rx
    match s1.arrivalDrop x with
    | some s2 => .next (if s1.zfp.devNum ≠ 0xFFFF then s2.refuseWrite gw p else s2)
    | none =>
      let a := p.gaddr % 2 ^ 48
      if a < stackRange then
        if s1.zfp.isPair x.port && decide (p.srcDev = s1.zfp.partner) && decide (a + p.data.length ≤ stackRange) then
          let q := if p.rpt then s1.openAccount gw p else (s1, 0)
          let n := p.data.length / 64
          let s2 := if p.rpt then q.1.modIncoming q.2 fun a => { a with sent := a.sent + n, last := a.last || p.last, shadow := true } else q.1
          if n = 0 then .next (s2.settle q.2)
          else .next (s2.askStack (.shadow (if p.rpt then some q.2 else none) p.arg n) p.cls a p.data.length (some (p.data, p.bad)))
        else .next (s1.dropRefused.refuseWrite gw p)
      else if !s1.passesWrite p then .next (s1.dropRefused.refuseWrite gw p)
      else
        let off := a - 0x400000000000
        let q := if p.rpt then s1.openAccount gw p else (s1, 0)
        if p.trailer then .next (if p.rpt then q.1.trailerIn q.2 p else q.1)
        else
          let n := p.data.length / 64
          let s2 := if p.rpt then
              q.1.modIncoming q.2 fun a => { a with sent := a.sent + n, bytes := addPart off p.data a.bytes, last := a.last || p.last }
            else q.1
          .next (s2.sendWadi (portsNode gw) (off / spadSize) (off % spadSize / 64) p.cls (portsPos gw) (s2.epochAt (gwSite gw))
            (if p.rpt then some (2 ^ 20 + q.2) else none) (s2.clock.now + 2) 0 p.bad n p.data)

/-- The lanes of a contribution. -/
def packetLanes (p : Packet) : List (BitVec 32) :=
  (List.range (p.data.length / 4)).map fun i => BitVec.ofNat 32 (leField p.data (4 * i) 4)

/-- A slot's partial leaves as wadi writes from its gateway's ports node (R394). -/
def State.writeRed (s : State) (g : Nat) (r : RedSlot) (bad : Bool) : State :=
  let off := r.gaddr % 2 ^ 48 - 0x400000000000
  let ws := (List.range 32).map fun i => bad || r.poison.getLsbD i
  s.sendWadi (portsNode g) (off / spadSize) (off % spadSize / 64) r.cls (portsPos g) (s.epochAt (gwSite g)) none (s.clock.now + 2) 0
    ws r.len (r.lanes.flatMap fun x => leBytes 4 x.toNat)

/-- R394. A reduction is written in the class of the packet that began it (log entry 237). -/
def execRedPacket (rx : Nat) (s : State) : Out :=
  match s.rxFor rx 1 with
  | none => .next s
  | some x =>
    let p := x.pkt
    let s1 := s.dropRx rx
    match s1.arrivalDrop x with
    | some s2 => .next s2
    | none =>
      let tag := p.arg % 4096
      let g := tag % 8
      let a := p.gaddr % 2 ^ 48
      let n := p.data.length / 64
      if !(decide (0x400000000000 ≤ a ∧ a < 0x400600000000 ∧ a % 64 = 0 ∧ a % spadSize + p.data.length ≤ spadSize)) then
        .next s1.dropRefused
      else
        let cnt := bitsOf p.arg 16 12 + 1
        let put (s : State) (r : Option RedSlot) : State :=
          s.modZfp fun z => { z with
            red := (z.red.filter fun e => !(e.1 == g && e.2.tag == tag)) ++ (match r with
              | some r => [(g, r)]
              | none => []) }
        let old := s1.zfp.red.find? fun e => e.1 == g && e.2.tag == tag
        match old with
        | none =>
          if 256 ≤ (s1.zfp.red.filter fun e => e.1 == g).length then .next s1.dropRefused
          else
            let r : RedSlot :=
              { tag := tag, len := n, gaddr := p.gaddr, count := cnt, got := 1, cls := p.cls, lanes := packetLanes p, poison := p.poison }
            if cnt = 1 then .next (s1.writeRed g r false) else .next (put s1 (some r))
        | some (_, r) =>
          if r.len ≠ n ∨ r.gaddr ≠ p.gaddr ∨ r.count ≠ cnt then
            .next (((put s1 none).writeRed g r true).raise 0x0604 (portsNode g) (gwSite g) [])
          else
            let r1 := { r with
              got := r.got + 1, lanes := List.zipWith (fadd32 .rne) r.lanes (packetLanes p), poison := r.poison ||| p.poison }
            if r1.got = r1.count then .next ((put s1 none).writeRed g r1 false) else .next (put s1 (some r1))

/-- R392, R393: the report reaches the DMA engine of the die that carries the issuing core. -/
def execReportPacket (rx : Nat) (s : State) : Out :=
  match s.rxFor rx 2 with
  | none => .next s
  | some x =>
    let s1 := s.dropRx rx
    match s1.arrivalDrop x with
    | some s2 => .next s2
    | none =>
      let d := x.pkt.inl
      let l := leField d 4 2
      match (List.range 4).find? fun i => match s1.rdma (4 * l + i) with
          | some r => r.seq == leField d 0 4 && !r.reported && r.dest / 2 ^ 48 == x.pkt.srcDev
          | none => false with
      | some i => .next (s1.modRdma (4 * l + i) fun r => { r with
          landed := leField d 6 4, dropped := leField d 10 4, mismatch := bitOf (leField d 14 1) 0
          cvuBusy := bitOf (leField d 14 1) 1, reported := true })
      | none => .next s1

/-- R392: the response reaches the node whose request it answers; this device's requests carry that node in GADDR. -/
def execMgmtResp (rx : Nat) (s : State) : Out :=
  match s.rxFor rx 6 with
  | none => .next s
  | some x =>
    let s1 := s.dropRx rx
    match s1.arrivalDrop x with
    | some s2 => .next s2
    | none => .next (s1.modZfp fun z => { z with replies := z.replies ++
        [{ node := x.pkt.gaddr % 2 ^ 14, tag := x.pkt.arg % 65536, data := leField x.pkt.inl 0 8
           code := leField x.pkt.inl 8 2 % 4096 }] })

/-- R392: EV_ZFP_NOTE carries the inline data. -/
def execMgmtNote (rx : Nat) (s : State) : Out :=
  match s.rxFor rx 7 with
  | none => .next s
  | some x =>
    let s1 := s.dropRx rx
    match s1.arrivalDrop x with
    | some s2 => .next s2
    | none => .next (s1.raise 0x0605 (if x.port < 32 then portsNode (x.port / 4) else panelNode) noUnit
        (x.pkt.inl.map fun b => (1, b.toNat)))

/-! ### Numbers, routing versions, circuits, the pair (R369, R376 to R384, R397) -/

/-- R369: only while READY. -/
def execDevNumWrite (dev : BitVec 16) (s : State) : Out :=
  if s.panel.mode = .ready then .next (s.modZfp fun z => { z with devNum := dev.toNat }) else .next s

/-- Change a routing version. -/
def Zfp.modVersion (z : Zfp) (e : Bool) (f : RtVersion → RtVersion) : Zfp :=
  { z with rt := if e then (z.rt.1, f z.rt.2) else (f z.rt.1, z.rt.2) }

/-- R370, R373, R380 step 1, R384: a write into the inactive version clears LOADED, and is ignored while DRAIN runs. Reserved bits
are not kept. -/
def execRouteTableWrite (bcast : Bool) (index : Fin 65536) (value : BitVec 64) (s : State) : Out :=
  if s.draining || (bcast && decide (33 ≤ index.val)) then .next s
  else
    let v := value.toNat
    .next (s.modZfp fun z => { z.modVersion (!z.active) fun r =>
      (if bcast then { r with bcast := mset 0 r.bcast index (v % 2 ^ 33) }
       else { r with dev := mset 0 r.dev index (v % 2 ^ 32 &&& 0x9F9F9F9F) }) with loaded := false })

/-- The bytes that ZFP_RT_CHECK covers (R380 step 2). -/
def RtVersion.bytes (r : RtVersion) : List (BitVec 8) :=
  ((List.range 65536).flatMap fun i => leBytes 4 (tget 0 r.dev i)) ++ ((List.range 33).flatMap fun i => leBytes 8 (tget 0 r.bcast i))

/-- EV_ZFP_FLIP with its kind. -/
def State.flipEvent (s : State) (kind : Nat) : State := s.raise 0x0602 panelNode noUnit [(1, kind)]

/-- The request that COMMIT makes of GW0's check-value unit (R380 step 3, log entry 245). -/
def commitReq : CvuReq := { node := panelNode, rseq := 0, mode := 1, alg := false, expect := none }

/-- The unit computes the check of the inactive version and posts it; LOADED is set on a match, else EV_ZFP_FLIP raised (R380 step 3, R355). -/
def State.commitCheck (s : State) : State :=
  let bs := (s.zfp.version (!s.zfp.active)).bytes
  let v := checkValue false bs
  let ok := decide (v = s.zfp.check.toNat)
  let s1 := (s.modCvu 0 fun c => (c.post commitReq 1 bs.length v).next).modZfp fun z => { z with loaded := ok, committing := false }
  if ok then s1 else s1.flipEvent 1

/-- R380 step 3: the version's check is computed by a check-value unit, at once or when it takes the stream (R353); one that finds the unit's queue full
leaves LOADED 0. -/
def execRouteCommit (s : State) : Out :=
  if s.zfp.committing then .next s
  else
    let r := (s.modZfp fun z => { z with loaded := false }).askCvu 0 commitReq
    match r.2 with
    | 0 => .next r.1.commitCheck
    | 1 => .next (r.1.modZfp fun z => { z with committing := true })
    | _ => .next r.1

/-- R380 step 4: accepted only while LOADED is 1, for a tick at least 2 ahead. -/
def execRouteFlip (s : State) : Out :=
  if s.zfp.loaded && decide (s.clock.tick.toNat + 2 ≤ s.zfp.flipTick.toNat) then
    .next (s.modZfp fun z => { z with pending := true })
  else .next s

/-- R380 step 5. -/
def execZfpFlip (s : State) : Out :=
  if s.zfp.pending && decide (s.zfp.flipTick = s.clock.tick) then
    .next ((s.modZfp fun z => { z with
      active := !z.active, pending := false, loaded := false, flipped := true, flipAt := s.clock.now }).flipEvent 2)
  else .next s

/-- R381: packets of the old epoch still queued at their source are dropped, and those held go out in order. -/
def execDrainExpiry (dev : BitVec 16) (cls : Fin 4) (chan : BitVec 4) (s : State) : Out :=
  let key := dev.toNat * 64 + cls * 16 + chan.toNat
  let mine (p : Packet) : Bool := domainKey p == key
  if (s.drainFrom key).isNone && !s.zfp.heldTx.any mine then .next s
  else
    let s1 := (match s.drainFrom key with
      | some t => s.advance (t + s.drainTime cls)
      | none => s).expireDomain key
    .next ((s1.zfp.heldTx.filter mine).foldl (fun s p => s.offer p) (s1.modZfp fun z => { z with heldTx := z.heldTx.filter fun p => !mine p }))

/-- Change a circuit entry. -/
def State.modEntry (s : State) (c : Nat) (f : CircEntry → CircEntry) : State :=
  s.modZfp fun z => { z with circ := tmod {} z.circ c f }

/-- R376, R378: an entry is active from its first tick, for its count of ticks. -/
def execCircEntryActivate (entry : Fin 64) (s : State) : Out :=
  let t := s.clock.tick.toNat
  .next (s.modEntry entry fun e => { e with
    active := e.valid && decide (e.first ≤ t) && (e.count == 0 || decide (t < e.first + e.count)) })

/-- R397: only while READY, with two ports on different gateways. -/
def execPairSet (enable : Bool) (portA portB : Port) (partner : BitVec 16) (s : State) : Out :=
  if s.panel.mode = .ready ∧ portA.val / 4 ≠ portB.val / 4 then
    .next ((s.modZfp fun z => { z with pairOn := enable, portA := portA, portB := portB, partner := partner.toNat }).pairCheck)
  else .next s

end Sys2Proof.Machine
end

