-- ==== Sys2Proof/Machine/StartOps.lean ====
section
/-! DEFINITION. How a START loads a job (R461 to R463, R653): what its descriptor and its program image must hold, the checks in
their order, the loading of a program into the cores (R164, R168), and what a restore writes (R431). -/

namespace Sys2Proof.Machine

open Sys2Proof

/-! ### Transfers to and from host memory (R438, R454) -/

/-- The gateway that runs a queue (R444): true for GW7. -/
def State.queueGw7 (s : State) (q : Nat) : Bool := (s.queue q).gw7.getD (decide (32 ≤ q))

/-- The link of a device transfer: that of the gateway that runs the command, else the other, 2 while neither is UP (R454). -/
def State.linkFor (s : State) (gw7 : Bool) : Nat :=
  let a := if gw7 then 1 else 0
  if (s.port (32 + a)).up then a else if (s.port (33 - a)).up then 1 - a else 2

/-- Start a transfer to or from host memory under the next tag. -/
def State.hostXfer (s : State) (gw7 : Bool) (use : XferFor) (addr len : Nat) (data : Option (List (BitVec 8))) : State :=
  let x : Xfer := { link := s.linkFor gw7, addr := addr, len := len, data := data, since := s.clock.now, use := use }
  (if x.link < 2 then s.takeSeq x.link 1 else s).modHif fun h => { h with
    xfers := tput h.xfers h.nextTag x, nextTag := (h.nextTag + 1) % 65536 }

/-- Drop the transfers of one user. -/
def State.dropXfers (s : State) (use : XferFor) : State :=
  { s with hif := { s.hif with xfers := tfilter (fun _ x => decide (x.use ≠ use)) s.hif.xfers } }

/-! ### The job descriptor (R461, R419) -/

/-- Bytes from `o` up to, not including, `e` are all 0. -/
def zeroes (bs : List (BitVec 8)) (o e : Nat) : Bool := ((bs.drop o).take (e - o)).all fun b => b == 0#8

/-- The record set of a descriptor. -/
def descRecSet (d : List (BitVec 8)) : List (Nat × Nat) :=
  (List.range (min 64 (leField d 6 1))).map fun i => (leField d (0x40 + 16 * i) 8, leField d (0x48 + 16 * i) 8)

/-- The result extents of a descriptor: stack address, host address, length. -/
def descResults (d : List (BitVec 8)) : List (Nat × Nat × Nat) :=
  (List.range (min 16 (leField d 7 1))).map fun i =>
    (leField d (0x440 + 24 * i) 8, leField d (0x448 + 24 * i) 8, leField d (0x450 + 24 * i) 8)

/-- The job that a descriptor describes (R461). -/
def parseJob (d : List (BitVec 8)) : JobSpec :=
  { job := leField d 0 4, src := leField d 4 1, resume := bitOf (leField d 5 1) 0, record := bitOf (leField d 5 1) 1
    recSet := descRecSet d, results := descResults d, image := leField d 8 8, outAddr := leField d 0x10 8, outLen := leField d 0x18 8 }

/-- Whether a descriptor breaks R461 (ST_HIF_JDESC). -/
def descBad (d : List (BitVec 8)) : Bool :=
  let j := parseJob d
  decide (2 < j.src) || decide (4 ≤ leField d 5 1) || decide (64 < leField d 6 1) || (!j.record && decide (leField d 6 1 ≠ 0)) ||
  decide (16 < leField d 7 1) ||
  (match j.src with
   | 1 => decide (8 ≤ j.image)
   | 2 => decide (stackRange ≤ j.image)
   | _ => false) ||
  decide (j.outAddr % 64 ≠ 0 ∨ j.outLen % 64 ≠ 0 ∨ (j.outAddr = 0 ↔ j.outLen ≠ 0) ∨ stackRange < j.outAddr + j.outLen) ||
  !zeroes d 0x20 0x40 || !zeroes d 0x5C0 0x1000 ||
  j.results.any fun r => decide (r.1 % 64 ≠ 0 ∨ r.2.1 % 64 ≠ 0 ∨ r.2.2 % 64 ≠ 0 ∨ stackRange < r.1 + r.2.2)

/-- Whether no two of a list of extents overlap. -/
def disjoint : List (Nat × Nat) → Bool
  | [] => true
  | e :: r => (r.all fun x => decide (e.1 + e.2 ≤ x.1 ∨ x.1 + x.2 ≤ e.1)) && disjoint r

/-- Sum of a list of numbers. -/
def sumOf : List Nat → Nat
  | [] => 0
  | x :: r => x + sumOf r

/-- Whether a record set breaks R419 (ST_NVC_SET). -/
def recSetBad (rs : List (Nat × Nat)) : Bool :=
  rs.any (fun e => decide (e.1 % 4096 ≠ 0 ∨ e.2 % 4096 ≠ 0 ∨ e.2 = 0 ∨ stackRange < e.1 + e.2)) || !disjoint rs ||
  decide (3 * 2 ^ 39 < sumOf (rs.map (·.2)))

/-! ### The program image (R462, R653) -/

def imgNcode (m : List (BitVec 8)) : Nat := leField m 0x18 4
def imgMap (m : List (BitVec 8)) : Nat := leField m 0x1C 4
def imgCode (m : List (BitVec 8)) : Nat := leField m 0x20 4
def imgLength (m : List (BitVec 8)) : Nat := leField m 0x34 4
/-- The code image of logical core `n`, 0xFFFF_FFFF for none. -/
def imgEntry (m : List (BitVec 8)) (n : Nat) : Nat := leField m (imgMap m + 4 * n) 4

/-- The sections of an image. -/
def imgSections (m : List (BitVec 8)) : List (Nat × Nat) :=
  [(imgMap m, 49152), (imgCode m, 65536 * imgNcode m)] ++
  (if imgNcirc m = 0 then [] else [(imgCirc m, 16 * imgNcirc m)]) ++ (if imgNtag m = 0 then [] else [(imgTag m, 16 * imgNtag m)])

/-- CHECK over an image's LENGTH bytes, its own field taken as 0. -/
def imgSum (m : List (BitVec 8)) : Nat :=
  (crc64 ((m.take 0x38) ++ List.replicate 8 0#8 ++ ((m.take (imgLength m)).drop 0x40))).toNat

/-- Whether an image is defective (R653). -/
def imageBad (m : List (BitVec 8)) : Bool :=
  let len := imgLength m
  decide (leField m 0 4 ≠ 0x4D49564B ∨ leField m 4 2 ≠ 1 ∨ m.length < len ∨ len < 64) || decide (leField m 0x38 8 ≠ imgSum m) ||
  decide (1 < leField m 6 1 ∨ leField m 7 1 ≠ 0 ∨ leField m 0x26 2 ≠ 0) ||
  decide (imgNcode m < 1 ∨ 12288 < imgNcode m ∨ 256 < imgNcirc m ∨ 16384 < imgNtag m) ||
  (imgSections m).any (fun e => decide (e.1 % 64 ≠ 0 ∨ e.1 < 64 ∨ len < e.1 + e.2)) ||
  decide ((imgNcirc m = 0 ∧ imgCirc m ≠ 0) ∨ (imgNtag m = 0 ∧ imgTag m ≠ 0)) || !disjoint (imgSections m) ||
  (List.range 12288).any (fun n => let e := imgEntry m n; decide (e ≠ 0xFFFFFFFF ∧ imgNcode m ≤ e)) ||
  (List.range (imgNtag m)).any fun i =>
    let r := imgTag m + 16 * i
    decide (len < leField m (r + 8) 4 + 2 * leField m (r + 6) 2)

/-- The tick header of an image (R218); the margin is S for a program that is not re-laid (R228). -/
def imgHdr (m : List (BitVec 8)) : TickHdr :=
  { len := 256 * leField m 8 2, quiet := leField m 0xA 2, budget := leField m 0xC 2, slack := leField m 0xE 2
    margin := leField m 0xE 2, mapGen := leField m 0x10 4, test := bitOf (leField m 0x14 1) 0 }

/-- Whether R219 refuses a tick header. -/
def hdrBad (m : List (BitVec 8)) : Bool :=
  let h := imgHdr m
  decide (leField m 8 2 < 4 ∨ 256 < leField m 8 2) || decide (h.quiet % 16 ≠ 0 ∨ h.quiet < 64 ∨ h.len < 2 * h.quiet) ||
  decide (255 < h.budget ∨ 1023 < h.slack ∨ h.mapGen < 1) || decide (2 ≤ leField m 0x14 1) || !zeroes m 0x15 0x18 ||
  decide (h.len < h.quiet + h.budget + 256)

/-- Whether two circuits are open in a common cycle of a common tick. -/
def circuitsMeet (a b : Circuit) : Bool :=
  decide (a.start < b.start + b.len ∧ b.start < a.start + a.len) &&
  (a.count == 0 || decide (b.first < a.first + a.count)) && (b.count == 0 || decide (a.first < b.first + b.count))

/-- The route version whose epoch is stamped now. -/
def State.versionNow (s : State) : RouteVersion := s.mesh.version s.mesh.versions.1

/-- The channels of a circuit, under the routes in force. -/
def State.chansOf (s : State) (c : Circuit) : List Nat := (s.circuitWay s.versionNow c).map (·.1)

/-- Whether no two circuits share a number, or a channel while both are open (R271). -/
def State.circuitsOk (s : State) : List (Nat × Circuit) → Bool
  | [] => true
  | c :: r => (r.all fun d => c.1 != d.1 && !(circuitsMeet c.2 d.2 && (s.chansOf c.2).any fun x => (s.chansOf d.2).contains x)) &&
      s.circuitsOk r

/-- Whether R271 refuses an image's circuit and tag records, or a tree of them needs more entries than R275 gives. -/
def State.tablesBad (s : State) (m : List (BitVec 8)) : Bool :=
  let h := imgHdr m
  let cs := (List.range (imgNcirc m)).map (imgCircuit m)
  let tags := (List.range (imgNtag m)).map fun i => leField m (imgTag m + 16 * i) 2
  cs.any (fun c => decide (256 ≤ c.1 ∨ 12288 ≤ c.2.src ∨ 12288 ≤ c.2.dest ∨ h.d < c.2.start + c.2.len)) || !s.circuitsOk cs ||
  decide (tags.eraseDups.length ≠ tags.length) ||
  (List.range (imgNtag m)).any (fun i =>
    let r := imgTag m + 16 * i
    let l := imgTagList m i
    decide (16384 ≤ leField m r 2 ∨ leField m (r + 6) 2 < 1 ∨ 12288 < leField m (r + 6) 2 ∨ 12287 < leField m (r + 2) 2 ∨
      leField m (r + 12) 4 ≠ 0) || l.any (fun n => decide (12287 < n)) || decide (l.eraseDups.length ≠ l.length)) || !treesFit (s.layTags s.versionNow m)

/-- Whether some half-die of the panel is stretched (R243). -/
def State.stretched (s : State) : Bool := s.clk.die.any fun e => e.2.stretchW != 0 || e.2.stretchE != 0

/-- Whether a parked erg borders a stack (R554). -/
def State.parkedAtStack (s : State) : Bool := s.clk.parked.any fun e => !(stacksOfErg e).isEmpty

/-- The code of the first check that an image fails, 0 when it passes (R463 step 2). `fit` is the margin of the re-laid program
when the fit test of R44 passes. -/
def State.imageCode (s : State) (m : List (BitVec 8)) (fit : Option Nat) : Nat :=
  let h := imgHdr m
  let mode (x : StackMode) : Bool := (List.range 16).any fun n => (s.stack n).mode == x
  if imageBad m then 0x0C4
  else if hdrBad m then 0x060
  else if !h.test && s.stretched then 0x060
  else if leField m 6 1 ≠ b2n s.plos.placed then 0x083
  else if h.mapGen ≠ s.panel.mapGen.toNat ∧ fit.isNone then 0x021
  else if s.tablesBad m then 0x073
  else if mode .degraded then 0x082
  else if mode .lost then 0x081
  else if s.parkedAtStack then 0x102
  else 0

/-- The image in force of a model image (R432). -/
def State.modelImage (s : State) (n : Nat) : Option ImageRec := (tfind s.nvm.imageNow n).bind fun sl => tfind s.nvm.images (2 * n + sl)

/-- Bytes of stack memory at a device-local address, as stored; a region that is still to be swept is swept before it is read (R349, R350). -/
def State.stackBytes (s : State) (addr len : Nat) : List (BitVec 8) :=
  (List.range ((addr % 64 + len + 63) / 64)).flatMap (fun i =>
    let q := stackAddr s.plos.placed (addr / 64 * 64 + 64 * i)
    let r := s.stack (q.1 % 16)
    if r.toSweep.contains (r.physRegion (q.2 / regionSize)) then List.replicate 64 0#8 else (s.granuleAt (q.1 % 16) q.2).1) |>.drop (addr % 64) |>.take len

/-- The bytes of a job's program image (R461 SRC): from the host, a model image, or a stack address. -/
def State.imageBytes (s : State) (j : JobSpec) (host : List (BitVec 8)) : List (BitVec 8) :=
  match j.src with
  | 0 => host
  | 1 => match s.modelImage j.image with
    | some i => i.program
    | none => []
  | _ => s.stackBytes j.image (leNat (s.stackBytes (j.image + 0x34) 4))

/-! ### The shadow of a job's record set (R506, R507) -/

/-- Change the consensus engines. -/
def State.modCons (s : State) (f : Cons → Cons) : State := { s with cons := f s.cons }

/-- Whether this device is a member of its group. -/
def Cons.inGroup (c : Cons) : Bool := c.mode == .member || c.mode == .changing

/-- The device number of this device's partner in the group. -/
def State.partnerDev (s : State) : Option Nat :=
  if s.cons.pair && s.cons.inGroup then (s.member s.cons.rank).partner.map fun r => (s.member r).dev else none

/-- Where a record-set address lies in the partner's shadow: from SHADOW_BASE, extent after extent (R506). -/
def shadowAddr (base : Nat) : List (Nat × Nat) → Nat → Nat
  | [], _ => base
  | (a, n) :: r, x => if a ≤ x ∧ x < a + n then base + (x - a) else shadowAddr (base + n) r x

/-- Send a granule of a step to the partner as a C2 WRITE with RPT (R507); no granule with LAST ends the step. -/
def State.sendShadow (s : State) (addr step : Nat) (data : List (BitVec 8)) (poison : BitVec 8) (last : Bool) : State :=
  match s.partnerDev with
  | none => s
  | some dev => s.sendPacket { plainPacket 0 2 (dev * 2 ^ 48 + shadowAddr s.cons.shadowBase s.job.spec.recSet addr) (nodeAt 13 6)
      (step % 2 ^ 32) [] with rpt := true, last := last, data := data, poison := poison.setWidth 32 }

/-- The whole record set goes into the partner's shadow once, when the pair starts a job and before the first step counts as committed (R507). -/
def State.shadowWhole (s : State) : State :=
  if s.cons.shadowed ∨ s.partnerDev.isNone then s
  else
    let grans := s.job.spec.recSet.flatMap fun e => (List.range (e.2 / 64)).map fun i => e.1 + 64 * i
    (grans.foldl (fun s a =>
      let q := stackAddr s.plos.placed a
      let g := s.granuleAt (q.1 % 16) q.2
      s.sendShadow a 0 g.1 g.2 false) s).modCons fun c => { c with shadowed := true }

/-! ### Loading (R164, R168, R302, R326) -/

/-- A granule is written at a device-local stack address by firmware. -/
def State.putAt (s : State) (addr : Nat) (bytes : List (BitVec 8)) (poison : BitVec 8) : State :=
  let q := stackAddr s.plos.placed addr
  let n := q.1 % 16
  if (s.stack n).dead q.2 then s
  else (s.putStack (s.stKey n q.2) bytes poison).noteWritten n ((s.stack n).physRegion (q.2 / regionSize))

/-- Write bytes at a device-local stack address, granule by granule. -/
def State.putBytesAt (s : State) (addr : Nat) (bytes : List (BitVec 8)) : Nat → State
  | 0 => s
  | n + 1 =>
    if bytes.isEmpty then s
    else (s.putAt addr (bytes.take 64) 0#8).putBytesAt (addr + 64) (bytes.drop 64) n

/-- Bundle `j` of code image `c` (R462, R132). -/
def imgBundle (m : List (BitVec 8)) (c j : Nat) : BitVec 256 := BitVec.ofNat 256 (leField m (imgCode m + 65536 * c + 32 * j) 32)

/-- A core as a program load leaves it (R164, R168); one with no code image counts as stopped (R463 step 6). -/
def CoreRec.load (m : List (BitVec 8)) (c : CoreRec) : CoreRec :=
  let run := if c.stat.run = .faulted then RunState.idle else c.stat.run
  if !c.stat.valid then c
  else if imgEntry m c.stat.lcore = 0xFFFFFFFF then
    { c with stat := { c.stat with run := run }, ctl := { stopped := true }, regs := {}, pipe := c.pipe.refusals }
  else { c with stat := { c.stat with run := run }, ctl := { pageValid := 0xFF#8, srState := BitVec.ofNat 64 c.stat.lcore }, regs := {}, pipe := c.pipe.refusals }

/-- The instruction memory of a core after a program load. -/
def loadImem (m : List (BitVec 8)) (p : Nat) (c : CoreRec) : Tab (BitVec 256) :=
  if !c.stat.valid || decide (imgEntry m c.stat.lcore = 0xFFFFFFFF) then []
  else ((List.range 2048).map fun j => (imKey p j, imgBundle m (imgEntry m c.stat.lcore) j)).filter fun e => e.2 != 0#256

/-- Broadcast the job's program into the cores (R164), and its circuit and tag entries into both route versions (R265, R275): their state is R168's, every wadi and context is closed (R326, R187), streams
are discarded (R302), the partner of a pair gets the whole record set (R507), each core's announced level is 15 (R185), and the job starts at the next tick boundary (R220). -/
def State.broadcast (s : State) : State :=
  let m := s.job.image
  let s1 := s.shadowWhole.discardStreams.dropRdma fun _ => true
  { s1 with
    cores := tmap (fun _ c => c.load m) s1.cores
    srams := { s1.srams with imem := s1.cores.flatMap fun e => loadImem m e.1 e.2, imemFlips := [] }
    ctx := [], ctxDue := [], loadLevel := [], hints := []
    win := { s1.win with wadi := [], wadiWas := [] }
    mesh := { s1.mesh with versions := (s1.mesh.versions.1, s1.placeTables m s1.mesh.versions.2.1, s1.placeTables m s1.mesh.versions.2.2) }
    job := { s1.job with phase := .ready } }

/-- Whether a bound die is in compute reset. -/
def State.diesBusy (s : State) : Bool :=
  s.panel.die.any fun e => e.2 == .computeReset && s.roleOf e.1 == .bound

/-- The broadcast waits for every bound die (R579, R581); with a half-die stretched only a test program goes on (R243). -/
def State.loadProgram (s : State) : State :=
  if s.stretchBars then s.refuseStretched
  else if s.diesBusy then { s with job := { s.job with phase := .waitDie } } else s.broadcast

/-- Write a model image's extents into the stacks (R433). -/
def State.imageLoad (s : State) : State :=
  if s.job.spec.src = 1 then
    match s.modelImage s.job.spec.image with
    | some i => i.extents.foldl (fun s e => s.putBytesAt e.1 e.2 (e.2.length / 64 + 1)) s
    | none => s
  else s

/-- The snapshot slot in force. -/
def Nvm.inForce (n : Nvm) : Option SnapRec := if n.valid then tfind n.slots (b2n n.slotB) else none

/-- The step that a RESUME restores to (R503): the group's resume step for a member, else the last committed one. -/
def State.resumeStep (s : State) (r : SnapRec) : Nat := if s.cons.mode = .member then min r.last s.cons.resume else r.last

/-- Steps 3 to 6 of R463, as far as they go now: the stacks' sweeps, the restore, the broadcast. -/
def State.proceed (s : State) : State :=
  if (List.range 16).any fun n => (s.stack n).sweeping then { s with job := { s.job with phase := .waitSweep } }
  else
    let s1 := s.imageLoad
    if s.job.spec.resume then
      let s2 := s1.modStatus s.job.queue s.job.slot fun w => { w with phase := 2 }
      match s1.nvm.inForce with
      | some r =>
        if r.job ≠ s.job.spec.job then s2.failStart 0x0B4
        else { s2 with
          nvm := { s2.nvm with mode := if s2.nvm.mode = .broken then .broken else .restoring }
          cons := { s2.cons with shadowed := false }
          job := { s2.job with phase := .restoring, resumeAt := some (s1.resumeStep r) } }
      | none => s2.failStart 0x0B4
    else
      { s1 with
        nvm := { s1.nvm.dropWaiting with rings := [], pages := [], flashed := 0, broken := [], snapAsked := s1.job.spec.record, stepCommit := 0 }
        cons := { s1.cons with committed := 0, groupStep := 0, allClosed := 0, logged := 0, logSent := 0, logGot := 0, applied := 0, pairLog := [], shadowed := false }
        job := { s1.job with closed := 0, asked := 0, marks := [], closing := [], regStep := 0 } }.loadProgram

/-- Whether either Jisto link is UP. -/
def State.anyLink (s : State) : Bool := (s.port 32).up || (s.port 33).up

/-- The request that a START makes of its queue's gateway's unit for its image (R463 step 2): the entry carries the START's SEQ (log entry 273). -/
def State.imageReq (s : State) (m : List (BitVec 8)) : CvuReq :=
  let q := s.job.queue
  snoopReq (nodeAt (if s.queueGw7 q then 130 else 13) 4) (s.status q s.job.slot).seq (imgLength m) (imgSum m)

/-- Steps 1 and 2 of R463 with the descriptor and image that the host's reads answer (none: an error completion, R454). -/
def State.loadJob (s : State) (desc image : Option (List (BitVec 8))) (fit : Option Nat) : State :=
  match desc with
  | none => s.failStart 0x0C5
  | some d =>
    let j := parseJob d
    let total := sumOf (j.recSet.map (·.2))
    if d.length ≠ 4096 ∨ descBad d then s.failStart 0x0CA
    else if recSetBad j.recSet then s.failStart 0x0B3
    else if j.record ∧ s.nvm.slotBytes < total then s.failStart 0x0B1
    else if j.src = 0 ∧ image.isNone then s.failStart 0x0C5
    else
      let m := s.imageBytes j (image.getD [])
      let s1 := s.passCvu (if s.queueGw7 s.job.queue then 7 else 0) (s.imageReq m)
      match s.imageCode m fit with
      | 0 =>
        let h := imgHdr m
        let h1 := if h.mapGen = s.panel.mapGen.toNat then h
          else { h with margin := min h.slack (fit.getD 0), mapGen := s.panel.mapGen.toNat }
        { s1 with job := { s.job.touch with
          spec := j, image := m, hdr := h1, id := j.job, regQueue := s.job.queue, regSlot := s.job.slot, left := j.results, moved := 0 } }.proceed
      | c => s1.failStart c

/-- A START begins (R661): RUNNING with PHASE LOADING. A fenced device refuses it (R487); with no link UP it waits for one (R454);
a spare member takes a shard with it (R488). -/
def State.beginStart (s : State) (q i : Nat) : State :=
  let s1 := (s.modStatus q i fun w => { w with st := .running, phase := 1, progress := 0 })
  let s2 : State := { s1 with
    hif := { s1.hif with starts := s1.hif.starts.filter fun e => decide (e ≠ (q, i)) }
    job := { s1.job with
      phase := .loading, running := false, endCode := none, cause := .none_, queue := q, slot := i, aborts := [], resumeAt := none, started := false, faultCode := 0, afterTest := .none_ } }
  if s.cons.mode = .fenced then s2.failStart 0x0E1 else { s2 with cons := { s2.cons with spare := false } }

/-- Whether some START is RUNNING or ABORTING (R661). -/
def State.startBusy (s : State) : Bool := s.job.phase != .none_

/-! ### Restores (R431, R503) -/

/-- Write the snapshot in force and the deltas up to a step into the record set, in log order. -/
def State.applyRestore (s : State) (r : SnapRec) (step : Nat) : State :=
  let s1 := r.data.foldl (fun s g => s.putAt g.addr g.bytes g.poison) s
  (r.deltas.filter fun g => decide (g.step ≤ step)).foldl (fun s g => s.putAt g.addr g.bytes g.poison) s1

end Sys2Proof.Machine
end

