-- ==== Sys2Proof/Machine/ConsOps.lean ====
section
/-! DEFINITION. What step records and the step group share (R489 to R491, R495, R504, R507, R509): the coordinator, the count of
commits, the pace, the group-committed step, and the pair's shadows. -/

namespace Sys2Proof.Machine

open Sys2Proof

/-- Whether this device is the coordinator (R495). -/
def State.isCoord (s : State) : Bool := s.cons.inGroup && s.cons.coord == some s.cons.rank

/-- The live ranks, in ascending order. -/
def Cons.live (c : Cons) : List Nat := (c.members.filter fun e => e.2.live).map (·.1)

/-- Broadcast a STATE packet to the group (R373). -/
def State.tellAll (s : State) (sub view cause step : Nat) (ranks : List Nat) : State :=
  s.sendState sub 65535 view cause 0 step ranks

/-- The last step that a rank has closed, and the last it has committed: this device's own, or what its beacons said. -/
def State.rankSteps (s : State) (r : Nat) : Nat × Nat :=
  if r = s.cons.rank then (s.job.closed, s.cons.committed) else ((s.member r).closed, (s.member r).committed)

/-- CONS_ERR.PACE_OK: every live rank commits step s before it closes step s + 1 (R509); EV_STEP_PACE when it falls. -/
def State.paceCheck (s : State) : State :=
  let ranks := if s.cons.inGroup then s.cons.live else [s.cons.rank]
  let ok := ranks.all fun r => let q := s.rankSteps r; decide (q.1 ≤ q.2 + 1)
  let s1 := s.modCons fun c => { c with paceOk := ok }
  if s.cons.paceOk && !ok then s1.raise 0x0906 s.consNode noUnit [] else s1

/-! ### Shadows (R506, R507) -/

/-- Whether a staging ring still holds a granule of a step up to `step`. -/
def State.undrained (s : State) (step : Nat) : Bool := s.nvm.rings.any fun e => e.2.q.any fun g => decide (g.step ≤ step)

/-- Close the partner's account of every step that has closed and been drained (R507). -/
def State.endShadow (s : State) : Nat → State
  | 0 => s
  | n + 1 =>
    let step := s.cons.logSent + 1
    if s.partnerDev.isSome ∧ step ≤ s.job.closed ∧ !s.undrained step then
      ((s.sendShadow (s.job.markAt.getD 0) step [] 0#8 true).modCons fun c => { c with logSent := step }).endShadow n
    else s

/-- The partner's logged steps that GSTEP has reached go into the shadow, and APPLY tells it (R507). -/
def State.applyShadow (s : State) : State :=
  let n := min s.cons.groupStep s.cons.logGot
  if s.cons.applied < n then
    let go (g : Staged) : Bool := decide (g.step ≤ n)
    let s1 := (s.cons.pairLog.filter go).foldl (fun s g => s.putAt g.addr g.bytes g.poison) s
    let s2 := s1.modCons fun c => { c with pairLog := c.pairLog.filter fun g => !go g, applied := n }
    match s.partnerDev with
    | some dev => s2.sendState 0xB dev s.cons.view 0 0 n [s.cons.rank]
    | none => s2
  else s

/-! ### Commits (R491, R504) -/

/-- The lowest COMMITTED among the live ranks, when it has risen, is the group-committed step: the coordinator broadcasts GSTEP
(R504), unless a change is under way (R498). -/
def State.gstepCheck (s : State) : State :=
  if s.isCoord && s.cons.mode == .member then
    let g := lowest (s.cons.live.map fun r => (s.rankSteps r).2)
    if s.cons.groupStep < g then
      ((s.modCons fun c => { c with groupStep := g }).tellAll 9 s.cons.view 0 g []).applyShadow
    else s
  else s

/-- CONS_COMMITTED: the last step whose record has committed, and in pair mode which the partner has logged (R491). -/
def State.recount (s : State) : State :=
  let n := if s.partnerDev.isSome then (if s.cons.shadowed then min s.nvm.stepCommit s.cons.logged else 0) else s.nvm.stepCommit
  ((s.modCons fun c => { c with committed := max c.committed n }).paceCheck).gstepCheck

end Sys2Proof.Machine
end

