-- ==== Sys2Proof/Machine/Nvm.lean ====
section
/-! DEFINITION. The storage side (11): reading and keeping the media, the system area, steps and their deltas, snapshots,
restores, model images, and lost channels. -/

namespace Sys2Proof.Machine

open Sys2Proof

/-! ### Channels -/

/-- A NAND channel's record. -/
def State.chan (s : State) (c : Nat) : ChanRec := tget {} s.nvm.chans c

/-- Change a NAND channel's record. -/
def State.modChan (s : State) (c : Nat) (f : ChanRec → ChanRec) : State :=
  s.modNvm fun v => { v with chans := tmod {} v.chans c f }

/-- The NAND controller node that drives a channel (R254, R25). -/
def nandNode (c : Nat) : Nat := nodeAt (gwSite (c / 4)) 6

/-- A block of a channel. -/
def ChanRec.block (c : ChanRec) (b : Nat) : BlockRec := tget {} c.blocks b

/-- Change a block. -/
def ChanRec.modBlock (c : ChanRec) (b : Nat) (f : BlockRec → BlockRec) : ChanRec := { c with blocks := tmod {} c.blocks b f }

/-- Whether the free good blocks of a LUN are below 2 % of its blocks (R414). -/
def ChanRec.short (c : ChanRec) (lun : Nat) : Bool :=
  let all := c.blocks.filter fun e => e.2.lun == lun
  decide (100 * (all.filter fun e => e.2.free && !e.2.bad).length < 2 * all.length)

/-- Raise EV_NVC_SPACE when a LUN falls below 2 % (R414). -/
def State.spaceCheck (s : State) (c lun : Nat) : State :=
  let r := s.chan c
  if r.short lun then
    if r.low.contains lun then s else (s.modChan c fun r => { r with low := lun :: r.low }).raise 0x0702 (nandNode c) c []
  else s.modChan c fun r => { r with low := r.low.filter (· ≠ lun) }

/-- Mark a block grown bad: its valid data has moved out (R413), and the grown bad-block table follows (R415). -/
def State.growBad (s : State) (c b : Nat) : State :=
  let k := (s.chan c).block b
  if k.bad then s
  else (((s.modChan c fun r => { (r.modBlock b fun x => { x with bad := true, valid := false, free := false }) with
      grown := satAdd 0xFFFF r.grown 1 })).sysTable 4).spaceCheck c k.lun

/-- The register of NVC_CH_ECC. -/
def nvcEccReg (c : Nat) : Nat := 0x500008 + 0x100 * c

/-- The store is BROKEN and its data counts as lost (R435). -/
def State.breakStore (s : State) : State :=
  (s.modNvm fun v => { v with mode := .broken }).raise 0x0706 panelNode noUnit []

/-- A codeword is decoded (R407, R408, R413): the tier that passed counts it, one that needed tier 4 makes its block grown bad, and
one that failed raises EV_NVC_UNCORR; a striped one has then lost two pages (R435). -/
def State.codeword (s : State) (c b : Nat) (tier : ReadTier) (stripe : Option (Fin 4)) : State :=
  let worn : Bool := match tier with
    | .clean => false
    | .tier1 => false
    | .tier2 sets => decide (4 < sets)
    | .tier3 => true
    | .tier4 => true
    | .failed => true
  let s0 := s.modChan c fun r => r.modBlock b fun x => { x with reads := x.reads + 1, due := x.due || worn }
  let r := s0.chan c
  match tier with
  | .clean => s0
  | .tier1 =>
    let k := bump (2 ^ 31 - 1) r.tier1 r.ovf
    (s0.modChan c fun r => { r with tier1 := k.1, ovf := k.2.1 }).cntOvf k.2.2 (nvcEccReg c) 32 (nandNode c)
  | .tier2 _ =>
    let k := bump 0xFFFF r.tier2 r.ovf
    (s0.modChan c fun r => { r with tier2 := k.1, ovf := k.2.1 }).cntOvf k.2.2 (nvcEccReg c) 16 (nandNode c)
  | .tier3 =>
    let k := bump 0xFF r.tier3 r.ovf
    (s0.modChan c fun r => { r with tier3 := k.1, ovf := k.2.1 }).cntOvf k.2.2 (nvcEccReg c) 8 (nandNode c)
  | .tier4 =>
    let k := bump 0xF r.tier4 r.ovf
    ((s0.modChan c fun r => { r with tier4 := k.1, ovf := k.2.1 }).cntOvf k.2.2 (nvcEccReg c) 4 (nandNode c)).growBad c b
  | .failed =>
    let k := bump 0xF r.uncorr r.ovf
    let s1 := (((s0.modChan c fun r => { r with uncorr := k.1, ovf := k.2.1 }).cntOvf k.2.2 (nvcEccReg c) 0 (nandNode c)).growBad c
      b).raise 0x0701 (nandNode c) c []
    if stripe.isSome then s1.breakStore else s1

/-- R407, R408. -/
def execCodewordRead (chan : Chan) (block : Nat) (tier : ReadTier) (stripe : Option (Fin 4)) (s : State) : Out :=
  .next (s.codeword chan block tier stripe)

/-- R409: a patrol read decodes as any read does, and delivers no data. -/
def execPatrolRead (chan : Chan) (block : Nat) (tier : ReadTier) (stripe : Option (Fin 4)) (s : State) : Out :=
  .next (s.codeword chan block tier stripe)

/-- A block's valid data is in another block; the old one waits for its erase. -/
def ChanRec.moveData (c : ChanRec) (b into : Nat) : ChanRec :=
  (c.modBlock into fun x => { x with valid := true, free := false, reads := 0, due := false }).modBlock b fun x => { x with valid := false }

/-- Whether a block may be written next: a free one has the fewest erases of its LUN's free good blocks (R411). -/
def ChanRec.mayOpen (c : ChanRec) (b : Nat) : Bool :=
  let k := c.block b
  !k.free || c.blocks.all fun e => e.2.lun != k.lun || !e.2.free || e.2.bad || decide (k.erases ≤ e.2.erases)

/-- Whether a block is to be refreshed (R410). -/
def BlockRec.refresh (k : BlockRec) (aged : Bool) : Bool := k.due || decide (200000 ≤ k.reads) || aged

/-- R410: the data goes into a freshly erased block before the old block is erased. -/
def execBlockRefresh (chan : Chan) (block : Nat) (work : RefreshWork) (s : State) : Out :=
  let r := s.chan chan
  let into := work.into
  if (r.block block).refresh work.aged && r.mayOpen into && (r.block block).valid && (r.block into).free && !(r.block into).bad && decide (into ≠ block) then
    .next ((s.modChan chan fun r => r.moveData block into).spaceCheck chan (r.block into).lun)
  else .next s

/-- The block of a list with the fewest, or with the most, erases. -/
def pickErase (most : Bool) : List (Nat × BlockRec) → Option (Nat × BlockRec)
  | [] => none
  | e :: r => match pickErase most r with
    | none => some e
    | some x => if (if most then decide (x.2.erases ≤ e.2.erases) else decide (e.2.erases ≤ x.2.erases)) then some e else some x

/-- R411: with a spread above 256 over a LUN's good blocks, the data of its least-erased block moves into the most-erased free one. -/
def execWearMove (chan : Chan) (lun : Nat) (s : State) : Out :=
  let bs := (s.chan chan).blocks.filter fun e => e.2.lun == lun && !e.2.bad
  match pickErase false bs, pickErase true bs, pickErase false (bs.filter fun e => e.2.valid), pickErase true (bs.filter fun e => e.2.free) with
  | some lo, some hi, some (a, x), some (b, y) =>
    if lo.2.erases + 256 < hi.2.erases ∧ x.erases = lo.2.erases ∧ x.erases < y.erases then
      .next ((s.modChan chan fun r => r.moveData a b).spaceCheck chan lun)
    else .next s
  | _, _, _, _ => .next s

/-! ### Pages and stripes (R404 to R406, R423, R424) -/

/-- A codeword's TAG (R405): the identifier within its kind is open, but for a system record's type (R415). -/
def Codeword.tag (c : Codeword) : BitVec 64 :=
  let id := Config.nvmId c.kind c.obj c.step
  (BitVec.ofNat 64 c.kind <<< 56) ||| (if c.kind = 1 then (id.setWidth 64 &&& 0xFFFFFFFFFFFF00#64) ||| BitVec.ofNat 64 (c.obj % 256) else id.setWidth 64)

/-- A codeword's 32 bytes of metadata (R405). -/
def Codeword.metadata (c : Codeword) : List (BitVec 8) :=
  leBytes 8 c.tag.toNat ++ leBytes 8 (c.seq.getD 0) ++ leBytes 4 c.index ++ leBytes 4 (crc32c c.data).toNat ++ List.replicate 8 0#8

/-- A codeword's 4,608 bytes (R404): data, metadata and LDPC parity over both. -/
def Codeword.bytes (c : Codeword) : List (BitVec 8) :=
  let b := c.data ++ c.metadata
  b ++ (List.range 480).map (Config.ldpcByte b)

/-- A page: its four codewords one after the other (R404). -/
def pageBytes (cs : List Codeword) : List (BitVec 8) := cs.flatMap Codeword.bytes

/-- Bytes filled up with zeros to `n`. -/
def padTo (n : Nat) (bs : List (BitVec 8)) : List (BitVec 8) := (bs ++ List.replicate n 0#8).take n

/-- The data of a delta codeword: up to 56 granules and the index that names their addresses (R423). -/
def deltaData (gs : List Staged) : List (BitVec 8) :=
  padTo 3584 (gs.flatMap fun g => padTo 64 g.bytes) ++ padTo 448 (gs.flatMap fun g => leBytes 8 (2 ^ 63 + g.addr % 2 ^ 48)) ++
  List.replicate 64 0#8

/-- The data of a snapshot codeword: 64 granules. -/
def snapData (gs : List Staged) : List (BitVec 8) := padTo 4096 (gs.flatMap fun g => padTo 64 g.bytes)

/-- Cut granules into at most `n` codewords of up to `m` granules of one step each (R423). -/
def cutGranules (m : Nat) : Nat → List Staged → List (List Staged)
  | 0, _ => []
  | n + 1, gs =>
    match gs with
    | [] => []
    | g :: _ =>
      let here := (gs.take m).takeWhile fun x => x.step == g.step
      here :: cutGranules m n (gs.drop here.length)

/-- Codewords of an object on flash already: the number of the next one. -/
def Nvm.nextIndex (v : Nvm) (kind obj step : Nat) : Nat :=
  (v.stripes.flatMap fun e => e.2.pages.flatMap fun p => p.2.filter fun c => c.kind == kind && c.obj == obj && c.step == step).length

/-- Codewords of a kind that hold some granules, numbered on within their objects. -/
def numberCodewords (v : Nvm) (kind obj : Nat) (data : List Staged → List (BitVec 8)) : List (List Staged) → List Codeword
  | [] => []
  | gs :: r =>
    let rest := numberCodewords v kind obj data r
    let step := if kind = 3 then (gs.headD ⟨0, 0, [], 0#8⟩).step else 0
    let before := v.nextIndex kind obj step
    ⟨kind, obj, step, none, before, data gs⟩ :: rest.map fun c => if c.step = step then { c with index := c.index + 1 } else c

/-- Key of a stripe of a group. -/
def stripeKey (k g : Nat) : Nat := 4 * k + g

/-- A stripe. -/
def Nvm.stripe (v : Nvm) (key : Nat) : StripeRec := tget {} v.stripes key

/-- Whether channel NC(4i + g) of a group serves. -/
def State.chanServes (s : State) (g i : Nat) : Bool := (s.chan (4 * i + g)).mode == .up

/-- The place of the parity page of stripe `k` of a group: (k + 7) mod 8, or, where that channel has left service, the next one round that serves (R406,
R434). -/
def State.parityAt (s : State) (k g : Nat) : Option Nat := ((List.range 8).map fun i => (k + 7 + i) % 8).find? (s.chanServes g)

/-- Whether every page of a stripe has been programmed on the channels that serve. -/
def State.stripeWhole (s : State) (key : Nat) : Bool :=
  let x := s.nvm.stripe key
  (List.range 8).all fun i => !s.chanServes (key % 4) i || tmem x.pages i || x.parity == some i

/-- Whether every stripe that holds a codeword of an object has been programmed (R425, R429). -/
def State.objectWhole (s : State) (f : Codeword → Bool) : Bool :=
  s.nvm.stripes.all fun e => !(e.2.pages.any fun p => p.2.any f) || s.stripeWhole e.1

/-- Bytes added modulo 2, bit by bit. -/
def xorBytes (a b : List (BitVec 8)) : List (BitVec 8) := List.zipWith (· ^^^ ·) a b

/-- The data of codeword `i` of a page. -/
def dataAt (cs : List Codeword) (i : Nat) : List (BitVec 8) :=
  match cs[i]? with
  | some c => padTo 4096 c.data
  | none => List.replicate 4096 0#8

/-- The XOR of the data of codeword `i` over pages. -/
def xorData (ps : List (List Codeword)) (i : Nat) : List (BitVec 8) :=
  ps.foldl (fun a p => xorBytes a (dataAt p i)) (List.replicate 4096 0#8)

/-- The parity page of a stripe: the XOR of its data pages, codeword by codeword, under metadata of its own (R406, R405, log entry 252). -/
def StripeRec.parityPage (x : StripeRec) (k : Nat) : List Codeword :=
  (List.range 4).map fun i => ⟨6, k, 0, none, i, xorData (x.pages.map (·.2)) i⟩

/-- The page of a stripe on gateway `i`. -/
def StripeRec.page (x : StripeRec) (k i : Nat) : Option (List Codeword) :=
  if x.parity = some i then some (x.parityPage k) else tfind x.pages i

/-- The data of codeword `j` of a page, rebuilt from the other pages of its stripe (R406, R407 tier 4). -/
def StripeRec.rebuild (x : StripeRec) (k i j : Nat) : List (BitVec 8) :=
  xorData ((List.range 8).filterMap fun n => if n = i then none else x.page k n) j

/-- The codewords of the next page of data: the oldest delta granules that wait, before any snapshot granule (R424), with how many of each it takes. -/
def State.nextPage (s : State) (granules : Nat) : List Codeword × Nat × Nat :=
  let ds := s.nvm.pages.drop s.nvm.flashed
  if !ds.isEmpty then
    let cs := cutGranules 56 4 (ds.take granules)
    (numberCodewords s.nvm 3 s.job.spec.job deltaData cs, sumOf (cs.map List.length), 0)
  else match s.nvm.snapNow with
    | some n =>
      let cs := cutGranules 64 4 ((n.data.drop n.flashed).take granules)
      (numberCodewords s.nvm 2 (s.nvm.sgen + 1) snapData cs, 0, sumOf (cs.map List.length))
    | none => ([], 0, 0)

/-- A page of a stripe has been programmed on channel `c`: the parity page where the stripe has it there, else a page of data. -/
def State.putPage (s : State) (c k granules : Nat) : State :=
  let g := c % 4
  let i := c / 4
  let key := stripeKey k g
  let x := s.nvm.stripe key
  if tmem x.pages i ∨ x.parity = some i then s
  else if s.parityAt k g = some i then s.modNvm fun v => { v with stripes := tput v.stripes key { x with parity := some i } }
  else
    let q := s.nextPage granules
    if q.1.isEmpty then s
    else s.modNvm fun v => { v with
      stripes := tput v.stripes key { x with pages := tput x.pages i q.1 }
      flashed := v.flashed + q.2.1
      snapNow := v.snapNow.map fun n => { n with flashed := n.flashed + q.2.2 } }

/-- R406, R413, R424, R425: a program that passes its status check puts its page on flash; one that fails makes the block grown bad. Only
the free block with the fewest erases is opened (R411). -/
def execProgramComplete (chan : Chan) (block : Nat) (ok : Bool) (stripe granules : Nat) (s : State) : Out :=
  if !(s.chan chan).mayOpen block then .next s
  else if !ok then .next (s.growBad chan block)
  else
    let lun := ((s.chan chan).block block).lun
    .next (((s.modChan chan fun r => r.modBlock block fun x =>
      { x with valid := true, free := false, reads := if x.free then 0 else x.reads, due := x.due && !x.free }).spaceCheck chan lun).putPage chan stripe granules)

/-- The lowest erase count among a channel's good blocks (NVC_CH_WEAR). -/
def ChanRec.leastErase (c : ChanRec) : Nat :=
  match pickErase false (c.blocks.filter fun e => !e.2.bad) with
  | some e => e.2.erases
  | none => 0

/-- R411 to R413: an erase counts, and frees the block unless it fails or reaches the endurance limit. -/
def execEraseComplete (chan : Chan) (block : Nat) (ok : Bool) (s : State) : Out :=
  let s1 := s.modChan chan fun r => r.modBlock block fun x =>
    { x with erases := satAdd 0xFFFF x.erases 1, valid := false, reads := 0, due := false, free := !x.bad }
  let r := s1.chan chan
  let k := r.block block
  let s2 := if !ok || (decide (0 < r.endurance) && decide (r.endurance ≤ k.erases)) then s1.growBad chan block
    else s1.spaceCheck chan k.lun
  .next (s2.modChan chan fun r => { r with maxErase := max r.maxErase k.erases, minErase := r.leastErase })

/-! ### The system area (R415 to R418) -/

/-- What a record of the system area is a record of: its type, and the part of the settings set that it holds (R415, R565). -/
def sysKey (e : Nat × List (BitVec 8)) : Nat := 256 * e.1 + (if e.1 = 2 then leField e.2 6 1 else 0)

/-- The latest record of each type of a log, newest first; of saved link settings, of each part. -/
def latestOnly : List (Nat × List (BitVec 8)) → List Nat → List (Nat × List (BitVec 8))
  | [], _ => []
  | e :: r, seen => if seen.contains (sysKey e) then latestOnly r seen else e :: latestOnly r (sysKey e :: seen)

/-- R417: the latest record of each type goes into the other half, and the full half is erased. -/
def execSystemAreaCopy (sideB : Bool) (s : State) : Out :=
  let k := b2n sideB
  .next (s.modNvm fun v => { v with
    sys := tmod [] v.sys k fun l => latestOnly l [], sysHalf := tput v.sysHalf k (1 - tget 0 v.sysHalf k) })

/-! ### Snapshots (R427 to R429) -/

/-- The least 4 KiB block of a stack, from device-local address `cur` on, within an extent. -/
def blockIn (placed : Bool) (n cur : Nat) (e : Nat × Nat) : Option Nat :=
  let lo := max cur e.1
  if placed then
    let a := max lo (n * 0x1800000000)
    if a < e.1 + e.2 ∧ a < (n + 1) * 0x1800000000 then some a else none
  else
    let b := (lo + 4095) / 4096
    let a := 4096 * (b + (n + 16 - b % 16) % 16)
    if a < e.1 + e.2 then some a else none

/-- The least of the blocks found. -/
def leastOf : List (Option Nat) → Option Nat
  | [] => none
  | x :: r => match x, leastOf r with
    | some a, some b => some (min a b)
    | some a, none => some a
    | none, y => y

/-- The next block of a stack's part of the record set (R428). -/
def State.snapBlock (s : State) (n cur : Nat) : Option Nat := leastOf (s.job.spec.recSet.map (blockIn s.plos.placed n cur))

/-- The 4,088 bytes of a commit record that its CHECK covers (R426). -/
def CommitRec.body (r : CommitRec) : List (BitVec 8) :=
  leBytes 4 0x5243564B ++ leBytes 1 r.kind ++ leBytes 1 r.slot ++ leBytes 2 0 ++ leBytes 4 r.job ++ leBytes 4 r.mapGen ++ leBytes 8 r.cseq ++
  leBytes 8 r.step ++ leBytes 4 r.sgen ++ leBytes 4 0 ++ leBytes 8 r.bytes ++ leBytes 8 r.first ++ leBytes 8 r.last ++
  padTo 128 (r.checks.flatMap (leBytes 8)) ++ List.replicate 3896 0#8

/-- A commit record's codeword data (R426). -/
def CommitRec.record (r : CommitRec) : List (BitVec 8) := r.body ++ leBytes 8 (checkValue true r.body)

/-- Where the codeword of an object with some number lies: group in bits [63:62], stripe number below (R426). -/
def Nvm.stripeOf (v : Nvm) (f : Codeword → Bool) (index : Nat) : Nat :=
  match v.stripes.find? fun e => e.2.pages.any fun p => p.2.any fun c => f c && c.index == index with
  | some e => e.1 % 4 * 2 ^ 62 + e.1 / 4
  | none => 0

/-- Append a commit record to both areas (R426). The codewords of its object, those that `f` picks, take its CSEQ (R405); its CHECK comes from GW0's
check-value unit, whose entry carries the CSEQ. -/
def State.commitRec (s : State) (kind slot step sgen bytes : Nat) (checks : List Nat) (f : Codeword → Bool) : State :=
  let n := (s.nvm.stripes.flatMap fun e => e.2.pages.flatMap fun p => p.2.filter f).length
  let seq := s.nvm.cseq + 1
  let r : CommitRec :=
    { kind := kind, slot := slot, job := s.job.spec.job, mapGen := s.panel.mapGen.toNat, cseq := seq, step := step
      sgen := sgen, bytes := bytes, first := s.nvm.stripeOf f 0, last := s.nvm.stripeOf f (n - 1), checks := checks }
  let v := checkValue true r.body
  (s.passCvu 0 (snoopReq panelNode seq 0xFF8 v)).modNvm fun v => { v with
    areaA := r :: v.areaA, areaB := r :: v.areaB, cseq := seq
    stripes := tmap (fun _ x => { x with pages := tmap (fun _ p => p.map fun c => if f c then { c with seq := some seq } else c) x.pages }) v.stripes }

/-- Post a stack's check value (R428, R429 step 3); its unit goes on to the next stream. -/
def State.postSnapCheck (s : State) (stack : Nat) : State :=
  match s.nvm.snapNow with
  | none => s
  | some n =>
    let bs := n.part s.plos.placed stack
    let v := checkValue true bs
    (s.modCvu (8 + stack) fun c => (c.post (n.req stack) 1 bs.length v).next).modNvm fun x => { x with
      snapNow := some { n with checks := tput n.checks stack v } }

/-- A stack's part has been read out: its base die's unit posts its value, and takes its next stream (R353, R428). -/
def State.snapRead (s : State) (stack : Nat) : State :=
  (s.modNvm fun v => { v with snapNow := v.snapNow.map fun n => { n with left := n.left.filter (· ≠ stack) } }).postSnapCheck stack

/-- Ask for the next block of a stack from an address on, or end its part of the snapshot. -/
def State.snapNext (s : State) (stack cur : Nat) : State :=
  match s.snapBlock stack cur with
  | some a => (s.modNvm fun v => { v with
      snapNow := v.snapNow.map fun n => { n with at_ := tput n.at_ stack a } }).askStack (.snapshot stack) 2 a 4096 none
  | none => s.snapRead stack

/-- The read-out of a stack's part begins, once its base die's unit has taken it (R353). -/
def State.snapBegin (s : State) (stack : Nat) : State :=
  match s.nvm.snapNow with
  | some n => if n.left.contains stack && !tmem n.at_ stack then s.snapNext stack 0 else s
  | none => s

/-- A stack's part asks for its base die's unit (R353, R428). -/
def State.snapAsk (s : State) (stack : Nat) : State :=
  match s.nvm.snapNow with
  | none => s
  | some n =>
    let r := s.askCvu (8 + stack) (n.req stack)
    if r.2 = 0 then r.1.snapBegin stack else r.1

/-- A snapshot starts at the close of its base step, into the slot that is not in force (R427, R429 steps 1 and 2). -/
def State.snapStart (s : State) (base : Nat) : State :=
  let slot := if s.nvm.valid then !s.nvm.slotB else false
  let s1 := match tfind s.nvm.slots (b2n slot) with
    | some r => s.commitRec 3 (b2n slot) 0 r.sgen 0 [] fun _ => false
    | none => s
  let s2 := s1.modNvm fun v => { v with
    slots := tdel v.slots (b2n slot), snapAsked := false, mode := if v.mode = .broken then .broken else .snapshot
    snapNow := some { slotB := slot, base := base, data := [], flashed := 0, left := List.range 16, at_ := [], checks := [],
                       rseq := s1.nvm.cseq + 1 } }
  s2.each State.snapAsk (List.range 16)

/-- Cut a block's bytes into granules. -/
def granulesOf (addr step : Nat) (bytes : List (BitVec 8)) (bad : List Bool) : Nat → List Staged
  | 0 => []
  | n + 1 =>
    if bytes.isEmpty then []
    else ⟨addr, step, bytes.take 64, granPoison bad 0⟩ :: granulesOf (addr + 64) step (bytes.drop 64) (bad.drop 8) n

/-- A block of the snapshot has been read. -/
def State.snapGot (s : State) (stack : Nat) (bytes : List (BitVec 8)) (bad : List Bool) : State :=
  match s.nvm.snapNow with
  | none => s
  | some n =>
    let a := tget 0 n.at_ stack
    (s.modNvm fun v => { v with
      snapNow := some { n with data := n.data ++ granulesOf a n.base bytes bad 64 } }).snapNext stack (a + 4096)

/-! ### Steps (R420, R489) -/

/-- R489 steps 2 and 3: a mark one above the last step requested asks for its close at the start of the second tick after; any other value is ignored, with EV_STEP_MARK. -/
def execStepMark (s : State) : Out :=
  match s.job.marks with
  | [] => .next s
  | (v, t) :: r =>
    let s1 : State := { s with job := { s.job with marks := r } }
    if v = s.job.asked + 1 then
      let s2 : State := { s1 with job := { s1.job with asked := v, closing := s1.job.closing ++ [(v, t + 2)] } }
      .next (if 16 < s2.job.closing.length then s2.endJob 0x0E3 else s2)
    else
      let n := (stackAddr s.plos.placed (s.job.markAt.getD 0)).1 % 16
      .next (s1.raise 0x0903 (nodeOfStack n) n [])

/-- Whether R427 starts a snapshot at the close of a step. -/
def State.snapDue (s : State) (step : Nat) : Bool :=
  s.nvm.snapNow.isNone &&
  (s.nvm.snapAsked || !s.nvm.broken.isEmpty ||
   (match s.nvm.inForce with
    | none => true
    | some r => r.job != s.job.spec.job || (decide (0 < s.nvm.snapEvery) && decide (r.base + s.nvm.snapEvery ≤ step))))

/-- R420, R427, R489 step 4: the step closes at its boundary, the base dies count later writes to the next, and a snapshot starts where
one is due. -/
def execStepClose (s : State) : Out :=
  match s.job.closing with
  | [] => .next s
  | (v, t) :: r =>
    if !s.job.running || decide (s.clock.tick.toNat < t) then .next s
    else
      let s1 := ({ s with job := { s.job.touch with closed := v, closing := r, regStep := v } }).modStatus s.job.queue s.job.slot fun w =>
        { w with progress := min 0xFFFFFF v }
      let s2 := (s1.endShadow (v + 1)).paceCheck
      .next (if s2.snapDue v then s2.snapStart v else s2)

/-- R422, R423, R507: the oldest granules of a ring go to the gateways, and to the pair partner. -/
def execStagingDrain (stack : Stack) (n : Nat) (s : State) : Out :=
  let r := s.ring stack
  let s1 := s.modNvm fun v => { v with
    rings := tput v.rings stack { r with q := r.q.drop n }, pages := v.pages ++ r.q.take n }
  let s2 := (r.q.take n).foldl (fun s g => s.sendShadow g.addr g.step g.bytes g.poison false) s1
  .next (s2.endShadow (s2.job.closed + 1))

/-- R425: the delta of the next step commits once the step has closed, every ring has drained it, its pages are programmed, and
no delta since the snapshot is broken. A fenced device writes no further record (R486). -/
def execDeltaCommit (s : State) : Out :=
  match s.nvm.inForce with
  | none => .next s
  | some r =>
    let step := r.last + 1
    let mine (g : Staged) : Bool := decide (g.step ≤ step)
    let obj (c : Codeword) : Bool := c.kind == 3 && c.obj == s.job.spec.job && c.step == step
    if r.job ≠ s.job.spec.job ∨ s.job.closed < step ∨ s.cons.mode = .fenced ∨ s.undrained step ∨
        (s.nvm.pages.drop s.nvm.flashed).any mine ∨ !s.objectWhole obj ∨ s.nvm.broken.any (fun b => decide (b ≤ step)) ∨ s.nvm.mode = .broken then .next s
    else
      let d := s.nvm.pages.filter mine
      let s1 := s.commitRec 2 (b2n s.nvm.slotB) step r.sgen (64 * d.length) [] obj
      .next (((s1.modNvm fun v => { v with
          pages := v.pages.filter fun g => !mine g, flashed := v.flashed - d.length, stepCommit := step
          slots := tput v.slots (b2n v.slotB) { r with deltas := r.deltas ++ d, last := step } }).raise 0x0704 panelNode noUnit
        []).recount)

/-- R429: the snapshot commits once it is on flash with every check value posted, and, in a group, once the group-committed
step has reached its base (R503). A part that a full unit has refused asks again (log entry 243). -/
def execSnapshotCommit (s0 : State) : Out :=
  let again := match s0.nvm.snapNow with
    | some n => n.left.filter fun k => !tmem n.at_ k && (s0.cvu (8 + k)).busy != some (n.req k) && !(s0.cvu (8 + k)).queue.contains (n.req k)
    | none => []
  let s := s0.each State.snapAsk again
  match s.nvm.snapNow with
  | none => .next s
  | some n =>
    let obj (c : Codeword) : Bool := c.kind == 2 && c.obj == s.nvm.sgen + 1 && c.seq.isNone
    if !n.left.isEmpty || n.checks.length != 16 || n.flashed != n.data.length || !s.objectWhole obj || !s.job.live ||
        (s.cons.inGroup && decide (s.cons.groupStep < n.base)) then .next s
    else
      let sgen := (s.nvm.sgen + 1) % 2 ^ 32
      let keep (g : Staged) : Bool := decide (n.base < g.step)
      let old := match s.nvm.inForce with
        | some r => if r.job = s.job.spec.job then r.deltas.filter keep else []
        | none => []
      let last := match s.nvm.inForce with
        | some r => if r.job = s.job.spec.job then max r.last n.base else n.base
        | none => n.base
      let checks := (List.range 16).map fun k => tget 0 n.checks k
      let s1 := s.commitRec 1 (b2n n.slotB) n.base sgen (64 * n.data.length) checks obj
      let job := s.job.spec.job
      .next (((s1.modNvm fun v => { (v.releasePages fun c =>
            (c.kind == 3 && !(c.obj == job && decide (n.base < c.step))) || (c.kind == 2 && c.seq != some s1.nvm.cseq && c.obj != v.sgen)) with
          snapNow := none, slotB := n.slotB, valid := true, sgen := sgen, base := n.base, mode := .recording
          stepCommit := max v.stepCommit last, broken := v.broken.filter fun b => decide (n.base < b)
          pages := v.pages.filter keep, flashed := ((v.pages.take v.flashed).filter keep).length
          slots := tput v.slots (b2n n.slotB)
            { sgen := sgen, base := n.base, job := s.job.spec.job, data := n.data, deltas := old, last := last, checks := checks } }).raise
        0x0705 panelNode noUnit []).recount)

/-- Each base die's unit recomputes a stack's check over the part of a snapshot that goes into it, with the low half of SGEN for RSEQ (R431, log
entry 273). -/
def State.recheck (s : State) (r : SnapRec) : State :=
  s.each (fun s n =>
    let bs := (r.data.filter fun g => (stackAddr s.plos.placed g.addr).1 == n).flatMap fun g => g.bytes
    if bs.isEmpty then s else s.passCvu (8 + n) (snoopReq (nodeOfStack n) (r.sgen % 65536) bs.length (checkValue true bs))) (List.range 16)

/-- R431, R503: the restore ends; where it failed the job ends with its code, else the record set stands at the resume step and
the program is broadcast again. -/
def execRestoreDone (uncorr check : Bool) (s : State) : Out :=
  if s.job.phase ≠ .restoring then .next s
  else
    let stop (s : State) (code : Nat) : State :=
      let s1 := s.modNvm fun v => { v with mode := if v.mode = .broken then .broken else .idle }
      if s.job.started then s1.endJob code else s1.failStart code
    match s.nvm.inForce with
    | none => .next (stop s 0x0B4)
    | some r =>
      if uncorr || s.nvm.mode == .broken then .next (stop s 0x0B0)
      else if !check then .next (stop s 0x0B2)
      else
        let step := min r.last (s.job.resumeAt.getD r.last)
        let s1 := (s.applyRestore r step).recheck r
        .next ({ s1 with
          nvm := { s1.nvm with
            mode := .idle, stepCommit := step, rings := [], pages := [], flashed := 0, broken := []
            stripes := (s1.nvm.releasePages fun c => c.kind == 3 && (c.seq.isNone || decide (step < c.step))).stripes
            slots := tput s1.nvm.slots (b2n s1.nvm.slotB) { r with deltas := r.deltas.filter fun g => decide (g.step ≤ step), last := step } }
          cons := { s1.cons with committed := step, logged := step, logSent := step }
          job := { s1.job with closed := step, asked := step, marks := [], closing := [], resumeAt := none, regStep := step }
          }.loadProgram)

/-- R432: the image that an IMAGE_WRITE has put on flash comes into force, and its command is DONE. -/
def execImageCommit (s : State) : Out :=
  match s.nvm.imageNew with
  | [] => .next s
  | (q, i, num, rec_) :: rest =>
    let slot := match tfind s.nvm.imageNow num with
      | some x => 1 - x
      | none => 0
    let stack (k : Nat) : List (BitVec 8) :=
      (rec_.extents.filter fun e => (stackAddr s.plos.placed e.1).1 == k).flatMap fun e => e.2
    let checks := (List.range 16).map fun k => checkValue true (stack k)
    let s1 := s.commitRec 4 slot 0 0 (sumOf (rec_.extents.map fun e => e.2.length)) checks fun _ => false
    .next ((s1.modNvm fun v => { v with
      images := tput v.images (2 * num + slot) rec_, imageNow := tput v.imageNow num slot, imageNew := rest }).finishCmd q i 0)

/-- The pages that a channel holds are lost until they are rebuilt; a stripe that has lost two breaks the store (R434, R435). -/
def State.losePages (s : State) (c : Nat) : State :=
  let g := c % 4
  let i := c / 4
  let hit (key : Nat) (x : StripeRec) : Bool := key % 4 == g && (tmem x.pages i || x.parity == some i) && !x.lost.contains i
  let s1 := s.modNvm fun v => { v with stripes := tmap (fun key x => if hit key x then { x with lost := i :: x.lost } else x) v.stripes }
  if s.nvm.stripes.any fun e => hit e.1 e.2 && !e.2.lost.isEmpty then s1.breakStore else s1

/-- A target, or a whole channel, leaves service (R434); LUN 0 of target 0 of NC0 and NC31 hold the sides of the system area
(R415, R418). -/
def State.channelOut (s : State) (c : Nat) (target : Option (Fin 8)) : State :=
  let left := match target with
    | some t => (s.chan c).targets &&& ~~~(1#8 <<< t.val)
    | none => 0#8
  let s1 := s.modChan c fun r => { r with targets := left, mode := if left = 0#8 then .out else r.mode }
  let sys := (target.isNone || target == some 0) && (c == 0 || c == 31)
  let s2 := if sys then s1.modNvm fun v => { v with sysOut := tput v.sysOut (if c = 0 then 0 else 1) true } else s1
  s2.losePages c

/-- R434, R435. -/
def execChannelOut (chan : Chan) (target : Option (Fin 8)) (s : State) : Out := .next (s.channelOut chan target)

/-- R57, R391, R434, R530: a gateway leaves service with its ports and channels; every group then loses one channel. -/
def State.gatewayOut (s : State) (g : Nat) : State :=
  ((s.gatewayDown g).modPanel fun p => { p with routerUp := tput p.routerUp (gwSite g) false }).each
    (fun s c => s.channelOut c none) [4 * g, 4 * g + 1, 4 * g + 2, 4 * g + 3]

end Sys2Proof.Machine
end

