-- ==== Sys2Proof/Machine/Subst.lean ====
section
/-! DEFINITION. What firmware does about lost cores, dies and routers (01, 13): row spares (R48, R93), compute reset (R579,
R580), substitution and its fit test (R50 to R59, R654), and units that fall out of service (R485). -/

namespace Sys2Proof.Machine

open Sys2Proof

/-- Set DIE_STATE of a site. -/
def State.dieMode (s : State) (site : Nat) (m : DieMode) : State := s.modPanel fun p => { p with die := tput p.die site m }

/-- Abandon every move of a die. -/
def State.dropMoves (s : State) (site : Nat) : State := s.each (fun s row => s.dropMove site row) (List.range 8)

/-- R579, R580: the die's cores stop and their sweep starts; faults, wadis, contexts and RDMA slots are cleared. A reset in
progress takes a second one in (R582). -/
def State.computeReset (s : State) (site : Nat) : State :=
  if tget .off s.panel.die site = .computeReset then s
  else
    let s1 := (s.dropMoves site).sweepSite .compute false site
    ({ s1 with cores := tfill {} (fun _ c => { c with fault := {} }) (104 * site) 104 s1.cores }.dieMode site .computeReset).modPanel
      fun p => { p with resetAt := tput p.resetAt site s.clock.now }

/-- Pin a row at a faulty column (R37): the row of the die bound there rests at it. -/
def State.pinRow (s : State) (site row col : Nat) : State :=
  let s1 := s.modPanel fun p => { p with rowFault := tput p.rowFault (8 * site + row) col }
  match s.ldAt site with
  | some ld => s1.moveRest (8 * ld + row) col
  | none => s1

/-- A die is declared dead (R485): its number rises, a FENCED flit silences it, and it is swept; every barchan move on the panel is
abandoned (R93). -/
def State.fenceDie (s : State) (site : Nat) : State :=
  (((s.panel.moves.foldl (fun s e => s.dropMove (e.1 / 8) (e.1 % 8)) s).sweepSite .fence false site).raiseInc (nodeAt site 0)).dieMode site
    .fenced

/-- The logical dies whose site is no longer in the role bound, in ascending order, with the sites they hold. -/
def State.lostDies (s : State) : List (Nat × Nat) := s.panel.ldSite.filter fun e => s.roleOf e.2 != .bound

/-- Whether a program is bound to the map, so that a re-lay must keep it (R43, R53). -/
def Job.bound (j : Job) : Bool := j.live && j.phase != .loading && j.phase != .drain

/-- A fit test begins, or begins again for the combined failures (R55): the job's program stops, STATE reads RELAY and the START
shows RELAY. `due`: its end commits a record even where no die moves. -/
def State.beginRelay (s : State) (ms : List Moved) (code : Nat) (due : Bool) : State :=
  let again := s.job.phase == .relay
  let s1 := if s.job.running then s.haltJob else s
  ({ s1 with
    panel := { s1.panel with
      moving := ms, mode := .relay, commitDue := s1.panel.commitDue || due, relay := if ms.isEmpty then s1.panel.relay else relayOf 1 ms s1.panel.relay }
    job := { s1.job with
      phase := .relay
      afterTest := if again then s.job.afterTest else s.job.phase
      faultCode := if again then s.job.faultCode else code } }).modStatus s.job.queue s.job.slot fun w => { w with phase := 4 }

/-- A member that meets a loss it cannot mend leaves the group as a member lost (R502). -/
def State.leaveLost (s : State) : State :=
  if s.cons.mode = .member then s.tellCoord 7 1 0 [s.cons.rank] else s

/-- Bind the logical dies that have lost their sites (R50 to R59, R654): under a fit test where a program is bound (`refit`: routes
are lost although no bound die is, R56), at once where none is, and as far as the spares reach where they do not cover the loss. What fails
while a fit test runs is committed with the combined change (R55). -/
def State.replaceLost (s : State) (refit : Bool) (code : Nat) : State :=
  let lost := s.lostDies
  let ms := assignSpares lost s.spares
  if s.spares.length < lost.length then
    let s1 := (ms.foldl State.applyMove s).modPanel fun p => { p with
      moving := [], mode := .short, commitDue := false, relay := relayOf 4 ms p.relay }
    ((s1.commitRecord.raise 0x0103 panelNode noUnit []).endJob 0x023).leaveLost
  else if s.panel.mode == .relay && s.job.bound then s.beginRelay ms code true
  else if s.job.bound && !lost.isEmpty then s.beginRelay ms code false
  else if lost.isEmpty then
    let s1 := s.commitRecord.rebindJob
    if s.job.bound && refit then s1.beginRelay [] code false else s1
  else ((ms.foldl State.applyMove s).modPanel fun p => { p with relay := relayOf 5 ms p.relay }).commitRecord

/-- The re-laid program goes on (R53, R228): it takes the new generation and what is left of its slack, and the job resumes from its
last step record, or the load or restore that the test interrupted goes on. -/
def State.goOn (s : State) (added : Nat) : State :=
  let s1 := s.rebindJob
  let h := { s1.job.hdr with margin := s1.job.hdr.slack - added }
  let s2 : State := { s1 with
    panel := { s1.panel with mode := if s1.job.started then .running else .ready }
    job := { s1.job with hdr := h, phase := if s.job.started then .running else s.job.afterTest } }
  if s.job.started then
    (match s.job.afterTest with
     | .restoring => { s2 with job := { s2.job with phase := .restoring } }
     | .waitSweep => s2.proceed
     | _ => if s.job.running then s2.resumeJob s.job.faultCode else s2.loadProgram)
  else match s.job.afterTest with
    | .restoring => s2
    | .waitSweep => s2.proceed
    | _ => s2.loadProgram

/-- R51, R53, R54: the fit test ends; routes that add more than the program's slack do not fit. A set that was bound takes its new sites in
one commit, which a test for routes alone does not need unless a role has changed meanwhile (R55, R56). -/
def State.endRelay (s : State) (pass : Bool) (added : Nat) : State :=
  let ms := s.panel.moving
  let fits := pass && decide (added ≤ s.job.hdr.slack)
  let s1 := (ms.foldl State.applyMove s).modPanel fun p => { p with
    moving := [], commitDue := false, relay := if ms.isEmpty then p.relay else relayOf (if fits then 2 else 3) ms p.relay }
  let s2 := if !ms.isEmpty || s.panel.commitDue then s1.commitRecord else s1
  if fits then s2.goOn added else s2.endJob 0x022

/-- A die is declared dead (R49, R50, R56): it is retired, and its logical die, if it held one, is replaced. -/
def State.failDie (s : State) (site : Nat) (routerLost : Bool) (code : Nat) : State :=
  let was := s.roleOf site
  if was ≠ .bound ∧ was ≠ .spare then s
  else
    let s1 := (s.fenceDie site).setRole site .retired
    let s2 := if routerLost then (s1.modPanel fun p => { p with routerUp := tput p.routerUp site false }).attachAnew else s1
    s2.replaceLost routerLost code

/-- The running job resumes; one that is loaded and has not started is broadcast again (R48). -/
def State.resumeOrLoad (s : State) (code : Nat) : State :=
  if !s.job.running && s.job.phase == .ready then s.loadProgram else s.resumeJob code

/-- A core is declared failed (R48, R49, R93): its row is pinned, its die's compute is reset and the job resumes; in a pinned row the whole
die counts as failed; the resting core of a move disturbs no job. The record is committed at once, also while a re-lay is under way (log entry 240). -/
def State.declareCore (s : State) (p code : Nat) : State :=
  let site := pSite p
  let row := pRow p
  if s.roleOf site ≠ .bound ∧ s.roleOf site ≠ .spare then s
  else if (s.rowFaultOf site row).isSome then s.failDie site false code
  else
    let c := s.core p
    let s1 := (s.dropMove site row).pinRow site row (pCol p)
    let s2 := if c.stat.valid then s1.raiseInc c.stat.lcore else s1
    if (s.moveAt p).any fun m => m.rest == pCol p then (s1.dress site).commitRecord.rebindJob
    else
      let s3 := ((s2.computeReset site).dress site).commitRecord.rebindJob
      if s.roleOf site = .spare then s3 else s3.resumeOrLoad code

end Sys2Proof.Machine
end

