-- ==== Sys2Proof/WellFormed.lean ====
section
/-! DEFINITION. Which commands are well-formed: the ranges that the spec gives an operand and its type does not. -/

namespace Sys2Proof

/-- A steward's agent number (R469). -/
def isStewardAgent (a : Nat) : Bool :=
  a == 0x10 || a == 0x11 || (decide (0x20 ≤ a) && decide (a < 0x28)) || (decide (0x30 ≤ a) && decide (a < 0x40)) ||
  (decide (0x100 ≤ a) && decide (a < 0x190))

/-- An agent number of R469: host software through a link, or a steward. -/
def isAgent (a : Nat) : Bool := a == 1 || a == 2 || isStewardAgent a

/-- An aligned offset within the panel control space (R13, R19), reached by an agent or a manager device. -/
def RegAccess.wellFormed (a : RegAccess) : Bool :=
  (isAgent a.agent || (decide (0x10000 ≤ a.agent) && decide (a.agent < 0x1FFFF))) && a.off % 4 == 0 && decide (a.off < 0x4000000)

/-- Whether a physical core id names a core: those of the eight gateway sites do not (R25, R33). -/
def namesCore (p : Nat) : Bool := !([13, 19, 52, 58, 85, 91, 124, 130].contains (p / 104))

/-- Whether every operand lies in its range. -/
def WellFormed (i : Instr) : Bool :=
  match i with
  | .mbxLockRead _ agent => isAgent agent
  | .mbxLockWrite _ agent value => isAgent agent && decide (value < 65536)
  | .mbxDbWrite _ agent service => isAgent agent && decide (service < 65536)
  | .mbxAckWrite _ agent _ => isAgent agent
  | .mbxDataWrite _ agent _ _ => isAgent agent
  | .mbxForced agent => isAgent agent
  | .stewardWdt agent => isStewardAgent agent
  | .stewardRestartDone agent _ => isStewardAgent agent
  | .ovfClear a => a.wellFormed
  | .lowWordRead a => a.wellFormed
  | .lowWordWrite a _ => a.wellFormed
  | .highWordWrite a _ => a.wellFormed
  | .registerWrite a _ => a.wellFormed
  | .cvuRequest _ node rseq _ _ _ => decide (node < 16384) && decide (rseq < 65536)
  | .unscheduledStackAccess _ addr len _ => decide (0 < len) && decide (addr + len ≤ 0x18000000000)
  | .dataFrame _ _ _ _ _ _ _ _ body => decide (68 ≤ body.length) && decide (body.length ≤ 324)
  | .ackFrame _ _ _ f | .nakFrame _ ⟨_, _, f⟩ => decide (f.length = 12)
  | .beaconSilence rank => decide (rank < 4096)
  | .stragglerCheck rank => decide (rank < 4096)
  | .settingsWrite entries => entries.all fun e => decide (e.1 < 65536) && decide (e.2.1 < 256) && decide (e.2.2.length ≤ 12)
  | .bcastAnnounce _ _ _ object sites plos _ => !object.isEmpty && (sites.all fun x => decide (x < 144)) && plos.all fun n => decide (n < 16)
  | .clockPlanRelay plan => plan.all fun e => decide (e.1 < 144) && decide (e.2.1 < 4) && e.2.2.all fun d => decide (d < 4)
  | .forecastWindow _ _ _ _ _ droops => droops.all fun d => decide (d.site < 144) && decide (d.sensor < 64)
  | .thermalForecast junctions => junctions.all fun j => decide (j.unit < 160) && decide (j.sensor < 16)
  | .backgroundUnit act _ unit granule => if act.val = 0 then decide (unit < 14976) && namesCore unit && decide (granule < 34816)
    else if act.val = 4 then decide (unit < 16) && decide (granule < 0x60000000)
    else true
  | .heldBundleIssue p => namesCore p
  | .holdExpiry p => namesCore p
  | .tsyncArrival p => namesCore p
  | .coreHwCheck p => namesCore p
  | .hold p => namesCore p
  | .resume p => namesCore p
  | .selfcheck p => namesCore p
  | .sweep p => namesCore p
  | .pageinComplete p => namesCore p
  | .waitstrRelease p => namesCore p
  | .marginFault p => namesCore p
  | .wadiFlitLand p => namesCore p
  | .sweepTimeout p => namesCore p
  | .coreFaultReport p _ => namesCore p
  | .selfcheckDone p _ => namesCore p
  | .stop p _ => namesCore p
  | .pageMark p _ => namesCore p
  | .mapCommit .. | .fitTestComplete .. | .gatewayRouterFail .. | .restingSelfcheckDone .. | .bulkCopyDone .. | .handover ..
  | .scheduledDelivery ..
  | .nop ..
  | .movi .. | .movhi .. | .addi .. | .aluAdd .. | .aluSub .. | .aluMul .. | .aluAnd .. | .aluOr .. | .aluXor .. | .aluShl ..
  | .aluShr .. | .aluSra .. | .aluMin .. | .aluMax .. | .aluMinu .. | .aluMaxu .. | .aluFadd .. | .aluFsub .. | .aluFmul ..
  | .aluFmin .. | .aluFmax .. | .cmpEq .. | .cmpNe .. | .cmpLt .. | .cmpLe .. | .cmpLtu .. | .cmpLeu .. | .cmpFeq ..
  | .cmpFlt .. | .cmpFle .. | .cmpNan .. | .plogAnd .. | .plogOr .. | .plogXor .. | .plogAndn .. | .plogNot .. | .plogMov ..
  | .plogSetall .. | .plogClrall .. | .plogAny .. | .plogAll .. | .jmp .. | .jmpr .. | .loop .. | .tsync .. | .accswap ..
  | .pagein .. | .loadhint .. | .srseed .. | .waitstr .. | .strcnt .. | .csrrdLcore .. | .csrrdTickLo ..
  | .csrrdTickHi .. | .csrrdCycle .. | .csrrdMapGen .. | .csrrdTickLen .. | .mma .. | .fadd .. | .fsub .. | .fmul .. | .fma ..
  | .fms .. | .fnma .. | .fmin .. | .fmax .. | .fabs .. | .fneg .. | .feq .. | .flt .. | .fle .. | .funord .. | .fnonfin ..
  | .ieq .. | .ilt .. | .iltu .. | .iadd .. | .isub .. | .imul .. | .vand .. | .vor .. | .vxor .. | .vshl .. | .vshr ..
  | .vsra .. | .imin .. | .imax .. | .vmov .. | .sel .. | .splat .. | .extr .. | .perm .. | .iota .. | .ins8 .. | .ext8 ..
  | .fsumr .. | .fmaxr .. | .rcp .. | .rsqrt .. | .exp2 .. | .exp .. | .log2 .. | .log .. | .expo .. | .scalb .. | .cvt ..
  | .cvtu .. | .qnt .. | .bcvt .. | .bscl .. | .bunp .. | .ldw .. | .ldd .. | .ldq .. | .ldh .. | .ldv .. | .ldsc64 ..
  | .ldsc256 .. | .stw .. | .std .. | .stq .. | .sth .. | .stv .. | .sendv .. | .sendq .. | .sendw .. | .wsendv .. | .wsendq ..
  | .redv .. | .circv .. | .strm .. | .saecmd .. | .wopen .. | .wclose .. | .rdma .. | .tickBoundary | .quietWindowStart
  | .lateDecision | .stretchCheck | .arbitration .. | .flitLapDrop .. | .meshFlitError ..
  | .routeVersionLoad .. | .tableLoadCheck .. | .flipNotice .. | .epochFlip | .oldEpochHoldEnd | .circuitWindowOpen ..
  | .circuitWindowClose .. | .redFlitArrival .. | .streamDescriptor .. | .refusalNotice .. | .streamGranuleLand ..
  | .writeGranuleReadout .. | .writeGranuleAccept .. | .attachLoss .. | .unscheduledAccessServe .. | .stackRefresh ..
  | .regionCopyDone .. | .stackLost .. | .saeCommand .. | .saeStart .. | .saeResult .. | .saeDone .. | .plsModeWrite ..
  | .wadiFlitArrival .. | .wadiExpiry | .rdmaReport .. | .rdmaTimeout .. | .sweepComplete ..
  | .stackSweepDone .. | .cvuStreamEnd .. | .portEnable .. | .retrain .. | .disable ..
  | .trainingComplete .. | .laneFailure .. | .portDown .. | .transitPacket .. | .packetAged ..
  | .transitReassembly .. | .transitGapTimeout .. | .writePacket .. | .redPacket .. | .reportPacket .. | .mgmtReq ..
  | .mgmtResp .. | .mgmtNote .. | .devNumWrite .. | .routeTableWrite .. | .routeCommit | .routeFlip | .zfpFlip
  | .drainExpiry .. | .circEntryActivate .. | .pairSet .. | .linkLoss .. | .codewordRead .. | .patrolRead .. | .blockRefresh ..
  | .wearMove .. | .programComplete .. | .eraseComplete .. | .systemAreaCopy .. | .stepMark | .stepClose | .stagingDrain ..
  | .deltaCommit | .snapshotCommit | .restoreDone .. | .imageCommit | .channelOut .. | .mwr .. | .mrd .. | .hostCpl ..
  | .doorbell .. | .slotTake .. | .hifQctlWrite .. | .queueNop .. | .start .. | .startBegin .. | .abort .. | .copy ..
  | .snapshot .. | .imageWrite .. | .jobDrain | .resultCopyDone | .abortSweepDeadline | .queueTakeover ..
  | .hostLinkWaitTimeout .. | .echo .. | .version .. | .overrun .. | .groupSet .. | .groupLeave .. | .selftest .. | .dietest ..
  | .dieTestEnd .. | .ident .. | .attest .. | .fwUpdate .. | .extLoad .. | .extUnload .. | .ownerEnroll .. | .debugChallenge ..
  | .debugUnlock .. | .extFault .. | .panelStewardSilence | .beaconPeriod | .beacon .. | .suspect .. | .propose .. | .ack ..
  | .commit .. | .fenced .. | .join .. | .leave .. | .rewind .. | .gstep .. | .stepLog .. | .apply .. | .proposeTimeout
  | .suspectRetry | .suspectTimeout | .c0RequestTimeout .. | .inputVoltageEvent .. | .stage1Stop | .inputRecovery
  | .powerSample .. | .droopTrip .. | .controllerFail .. | .deratedMigration | .ergShort .. | .refclkLoss .. | .refclkReturn ..
  | .pllLockLoss .. | .primaryClockLoss .. | .clockReturn .. | .stepRequest .. | .stepChangeRequest | .stepChange
  | .thermalTrip .. | .ergUnpark .. | .rotationInterval | .waterSample .. | .coldStart .. | .retrainDone .. | .d2dRetrain ..
  | .computeResetDone .. | .computeResetTimeout .. | .bcastData .. | .bcastEnd .. | .bcastReport .. | .reportWaitExpiry ..
  | .periodEnd .. | .eventFlit | .eventWrite | .evqCtlWrite .. | .evqHeadWrite .. | .smbusBlockRead .. | .smbusWrite ..
  | .carrierRemoved .. | .carrierInserted .. | .pllRelock .. => true

end Sys2Proof
end

