-- ==== Sys2Proof/Machine/PowerOps.lean ====
section
/-! DEFINITION. What power and heat share (14, 15): step limits and setpoints (R517, R518, R543), gateways and ergs that leave service
(R57, R530, R553), the forwarded clock around them (R538, R542), and dies that firmware moves (R525, R527). -/

namespace Sys2Proof.Machine

open Sys2Proof

/-! ### Stewards (R478, R479) -/

/-- Change a steward's watchdog. -/
def State.modWdt (s : State) (agent : Nat) (f : WdtRec → WdtRec) : State :=
  { s with stew := { s.stew with wdt := tmod {} s.stew.wdt agent f } }

/-- A steward's watchdog. -/
def State.wdt (s : State) (agent : Nat) : WdtRec := tget {} s.stew.wdt agent

/-- Node and unit of a steward (R254, R469). -/
def stewardUnit (agent : Nat) : Nat × Nat :=
  if 0x100 ≤ agent then (nodeAt (agent - 0x100) 0, agent - 0x100)
  else if 0x30 ≤ agent then (nodeOfStack (agent - 0x30), agent - 0x30)
  else if 0x20 ≤ agent then (nodeAt (gwSite (agent - 0x20)) 1, gwSite (agent - 0x20))
  else (nodeAt (if agent = 0x11 then 130 else 13) 2, if agent = 0x11 then 130 else 13)

/-- A panel steward becomes active, with the consensus engine beside it (R494); events that the other one still buffered count as
lost (R631). -/
def State.activate (s : State) (gw7 : Bool) : State :=
  let n := s.evq.lost + s.evq.buffer.length
  let s1 : State := { s with
    stew := { s.stew with active := some gw7 }
    cons := { s.cons with gw7 := gw7, silentOff := false }
    evq := { s.evq with buffer := [], lost := min 0x7FF n, ovf := s.evq.ovf || decide (0x7FF < n),
                        lostSince := s.evq.lostSince + s.evq.buffer.length } }
  s1.cntOvf (!s.evq.ovf && decide (0x7FF < n)) 0x103010 15 panelNode

/-- The active panel steward stops: the standby takes over, or none is active (R478, R479). -/
def State.panelFails (s : State) (gw7 : Bool) : State :=
  if s.stew.active ≠ some gw7 then s
  else
    let other := s.wdt (if gw7 then 0x10 else 0x11)
    if !other.restarting && !other.out && (if gw7 then s.sec.rootA else s.sec.rootB) then s.activate (!gw7)
    else { s with stew := { s.stew with active := none, offAt := s.clock.now } }

/-- A gateway's ports and channels leave service, its router staying up (R478, R592). -/
def State.gatewayServicesOut (s : State) (g : Nat) : State :=
  (s.gatewayDown g).each (fun s c => s.channelOut c none) [4 * g, 4 * g + 1, 4 * g + 2, 4 * g + 3]

/-! ### Registers of power, clocks and heat -/

/-- An erg's supply. -/
def State.ergPwr (s : State) (e : Nat) : ErgPwr := tget {} s.pwr.ergs e

/-- Change an erg's supply. -/
def State.modErg (s : State) (e : Nat) (f : ErgPwr → ErgPwr) : State := s.modPwr fun p => { p with ergs := tmod {} p.ergs e f }

/-- A die's clock and heat. -/
def State.dieClk (s : State) (site : Nat) : DieClk := tget {} s.clk.die site

/-- Change a die's clock and heat. -/
def State.modDieClk (s : State) (site : Nat) (f : DieClk → DieClk) : State := s.modClk fun c => { c with die := tmod {} c.die site f }

/-- The ergs that are DERATED. -/
def Pwr.derated (p : Pwr) : List Nat := (p.ergs.filter fun e => e.2.mode == .derated).map (·.1)

/-- Controllers of an erg that are in service. -/
def ErgPwr.ctrls (e : ErgPwr) : Nat := ((List.range 4).filter fun i => e.ctrlOk.getLsbD i).length

/-! ### Frequency steps (R517, R518, R543) -/

/-- The step limits of R543 in the order of LIMITED_BY; 0 binds nothing. -/
def State.stepLimits (s : State) : List Nat :=
  [s.clk.req, if s.pwr.derated.isEmpty then 0 else s.pwr.floor, s.pwr.capStep, if s.pwr.excursion then 2 else 0, s.clk.thmLimit]

/-- The step that the limits call for: the slowest of them (R543). -/
def State.stepWanted (s : State) : Nat := largest s.stepLimits

/-- With no erg DERATED the floor reads 0 (R526 step 5). -/
def Pwr.dropFloor (p : Pwr) : Pwr := if p.derated.isEmpty then { p with floor := 0 } else p

/-! ### The forwarded clock (R538, R542) -/

/-- The site next to a site: 0 north, 1 east, 2 south, 3 west; none past the edge. -/
def neighbour (site dir : Nat) : Option Nat :=
  match dir with
  | 0 => if 12 ≤ site then some (site - 12) else none
  | 1 => if siteX site < 11 then some (site + 1) else none
  | 2 => if site < 132 then some (site + 12) else none
  | _ => if 0 < siteX site then some (site - 1) else none

/-- The other end of a link. -/
def facing (dir : Nat) : Nat := (dir + 2) % 4

/-- A set of sites forwards no clock any more: the facing links of their neighbours deliver none, and a die that took its clock from one switches to its
secondary where that is not among them (R538). -/
def State.clockGone (s : State) (sites : List Nat) : State :=
  let gone (site dir : Nat) : Bool := (neighbour site dir).any fun n => sites.contains n
  s.modClk fun c => { c with
    relayDue := true
    die := tmap (fun site d =>
      if sites.contains site then d
      else
        let mask := (List.range 4).foldl (fun m k => if gone site k then m &&& ~~~(1#4 <<< k) else m) d.link
        { d with
          link := mask
          st := if d.st = .primary ∧ gone site d.pri ∧ d.sec ≠ d.pri ∧ !gone site d.sec then .secondary else d.st }) c.die }

/-! ### What leaves service -/

/-- A gateway leaves service: its ports and channels (R57, R391, R434), and what is seated at it: its steward and, at GW0 and GW7, the panel steward, whose place
the other takes with the consensus engine (R478, R494, R530). -/
def State.gatewayGone (s : State) (g : Nat) : State :=
  if !s.routerUp (gwSite g) then s
  else
    let s1 := (s.gatewayOut g).modWdt (0x20 + g) fun w => { w with out := true, restarting := false }
    if g = 0 ∨ g = 7 then
      (s1.modWdt (if g = 7 then 0x11 else 0x10) fun w => { w with out := true, restarting := false }).panelFails (g == 7)
    else s1

/-- A compute site whose supply is gone: its role is dark, its router and cores are off, and its scratchpads keep nothing (R29, R347). -/
def State.siteDark (s : State) (site : Nat) : State :=
  let out (w k : Nat) : Bool := decide (k / w / 104 ≠ site)
  let s1 := (s.dropMoves site).modPanel fun p => { p with
    before := if s.roleOf site = .dark then p.before else tput p.before site (s.roleOf site), routerUp := tput p.routerUp site false, die := tput p.die site .off }
  { (s1.setRole site .dark) with
    cores := tfilter (fun k _ => out 1 k) s1.cores
    srams := {
      spad := tfilter (fun k _ => out spadSize k) s1.srams.spad
      poison := tfilter (fun k _ => out 0x40000 k) s1.srams.poison
      flips := tfilter (fun k _ => out 0x40000 k) s1.srams.flips
      imem := tfilter (fun k _ => out 2048 k) s1.srams.imem
      imemFlips := tfilter (fun k _ => out 2048 k) s1.srams.imemFlips }
    win := { s1.win with sweep := tdel s1.win.sweep site } }

/-- An erg leaves service, parked for heat (`park`) or for a power reason: its compute sites go dark at one moment, its gateway leaves service, and its
stacks are unreachable or lost, which ends the job; the lost dies are replaced (R530, R554, R654). -/
def State.loseErg (s : State) (e : Nat) (park : Bool) : State :=
  let sites := ergSites e
  let s1 := (s.each (fun s x => if isGw x || (s.roleOf x == .dark && !s.panel.returning.contains e) then s else s.siteDark x) sites).modPanel
    fun p => { p with returning := p.returning.filter (· ≠ e) }
  let s2 := (s1.each State.gatewayGone (sites.filterMap gwAt)).clockGone sites
  let s3 := s2.modClk fun c => { c with die := tmap (fun x d => if sites.contains x then { d with st := .off, link := 0#4 } else d) c.die }
  let plos := stacksOfErg e
  let s4 := s3.attachAnew
  let s5 := if park then (if plos.isEmpty then s4 else s4.endJob 0x102) else s4.each State.loseStack plos
  s5.replaceLost true ST_CORE_HW

/-- R554: an erg is parked for heat (R553). -/
def State.park (s : State) (e : Nat) (trip : Bool) : State :=
  let s1 := if trip && !s.clk.tripped.contains e then s.modClk fun c => { c with tripped := e :: c.tripped } else s
  let m := (s.ergPwr e).mode
  if s.clk.parked.contains e ∨ m = .dark ∨ m = .shorted then s1
  else
    (((s1.modErg e fun x => { x with mode := .off, setpoint := 0 }).modPwr Pwr.dropFloor).modClk fun c =>
      { c with parked := e :: c.parked }).raise 0x0B08 panelNode e [] |>.loseErg e true

/-- An erg goes dark for a power reason (R528, R529). -/
def State.ergDark (s : State) (e : Nat) (short : Bool) : State :=
  (((s.modErg e fun x => { x with mode := if short then .shorted else .dark, ctrlOk := 0#4, setpoint := 0 }).modPwr fun p =>
    { p with
      dark := e :: p.dark.filter (· ≠ e)
      shorted := if short then e :: p.shorted else p.shorted
      migrate := p.migrate.filter (· ≠ e) }.dropFloor).raise (if short then 0x0A08 else 0x0A07) panelNode e []).loseErg e false

/-! ### Dies that firmware moves -/

/-- The design peak of an erg at a step, in A: its bound dies, its gateway and its spares (R527). -/
def State.peak (s : State) (e step : Nat) : Nat :=
  sumOf ((ergSites e).map fun x => match s.roleOf x with
    | .bound => Config.peakCurrent x 1 step
    | .spare => Config.peakCurrent x 2 step
    | .gateway => Config.peakCurrent x 0 step
    | _ => 0)

/-- The bound site of an erg with the highest fused peak current, ties going to the lower site number (R527 step 1). -/
def State.hottest (s : State) (step : Nat) : List Nat → Option Nat
  | [] => none
  | x :: r =>
    if s.roleOf x ≠ .bound then s.hottest step r
    else match s.hottest step r with
      | none => some x
      | some y => if Config.peakCurrent x 1 step < Config.peakCurrent y 1 step then some y else some x

/-- Bound dies of a DERATED erg move onto spares outside it until its peak fits at the step above the floor (R527 steps 1 to 3). -/
def State.migrateErg (s : State) (e : Nat) : Nat → State
  | 0 => s
  | n + 1 =>
    if s.pwr.floor = 0 ∨ s.peak e (s.pwr.floor - 1) ≤ 972 then s
    else match s.hottest (s.pwr.floor - 1) (ergSites e) with
      | none => s
      | some old =>
        match bestSpare old (s.spares.filter fun x => ergOf x ≠ e), s.ldAt old with
        | some new, some ld =>
          let m : Moved := ⟨ld, old, some new⟩
          ((((s.applyMove m).setRole old .spare).dress old).modPanel fun p => { p with relay := relayOf 5 [m] p.relay }).migrateErg e n
        | _, _ => s

/-- The floor rises by one step for each step at which every DERATED erg meets the 972 A condition (R527 step 5). -/
def State.raiseFloor (s : State) : Nat → State
  | 0 => s
  | n + 1 =>
    if 0 < s.pwr.floor ∧ s.pwr.derated.all fun e => decide (s.peak e (s.pwr.floor - 1) ≤ 972) then
      (s.modPwr fun p => { p with floor := p.floor - 1 }).raiseFloor n
    else s

/-- Firmware migrates load away from the DERATED ergs that wait for it, and commits one record (R527). -/
def State.migrate (s : State) : State :=
  let es := s.pwr.migrate.filter fun e => (s.ergPwr e).mode == .derated
  let s1 := s.each (fun s e => s.migrateErg e 9) es
  let s2 := s1.modPwr fun p => { p with migrate := [] }
  (if s1.panel.ldSite = s.panel.ldSite then s2 else s2.commitRecord).raiseFloor 5

/-- A site with 3 anomalies gives its die to a spare and is retired (R525); with no spare left it serves on. -/
def State.replaceSite (s : State) (site : Nat) : State :=
  match s.roleOf site with
  | .spare => ((s.setRole site .retired).dress site).commitRecord
  | .bound => if s.spares.isEmpty then s else ((s.dropMoves site).setRole site .retired).replaceLost false ST_CORE_HW
  | _ => s

/-- Every site that waits for R525 is replaced. -/
def State.anomSubst (s : State) : State := (s.each State.replaceSite s.pwr.replace).modPwr fun p => { p with replace := [] }

/-- What firmware does at the end of a job (R525, R527). -/
def State.afterJob (s : State) : State :=
  if s.job.live then s else
    let s1 := if s.pwr.replace.isEmpty then s else s.anomSubst
    if s.pwr.migrate.isEmpty then s1 else s1.migrate

end Sys2Proof.Machine
end

