-- ==== Sys2Proof/Machine/Panel.lean ====
section
/-! DEFINITION. The panel's map and its cores' failures (01, 02): commits, the fit test, barchan moves, self-checks, fault reports
and CORE_CTL SWEEP. -/

namespace Sys2Proof.Machine

open Sys2Proof

/-- R41: a commit of the live map; a copy that does not read back holds no record, and the record in force stays (R42). -/
def execMapCommit (readbackOk : Bool) (s : State) : Out :=
  .next (if readbackOk then s.commitRecord.rebindJob else s.modPanel fun p => { p with
    copyA := if p.inForceB then none else p.copyA, copyB := if p.inForceB then p.copyB else none })

/-- R53, R54. -/
def execFitTestComplete (pass : Bool) (added : Nat) (s : State) : Out :=
  .next (if s.job.phase = .relay then s.endRelay pass added else s)

/-- R57, R391, R434: the gateway leaves service; while a job runs its routes are re-laid under the fit test. -/
def execGatewayRouterFail (g : Gateway) (fitPass : Bool) (added : Nat) (s : State) : Out :=
  let s1 := (s.gatewayGone g).attachAnew
  .next (if !s.routerUp (gwSite g) ∨ s1.job.phase = .relay then s1
    else if s1.job.bound then (s1.beginRelay [] 0x071 false).endRelay fitPass added
    else s1)

/-! ### Barchan moves (R90 to R93) -/

/-- R90 tick T, R93: a passed check lets mirroring begin at the next boundary; a failed one pins the row at its resting column. -/
def execRestingSelfcheckDone (site : Site) (row : Row) (pass : Bool) (s : State) : Out :=
  match tfind s.panel.moves (8 * site + row) with
  | none => .next s
  | some m =>
    if m.phase ≠ .checking then .next s
    else if pass then .next (s.modPanel fun p => { p with moves := tput p.moves (8 * site + row) { m with phase := .checked } })
    else .next (((s.dropMove site row).pinRow site row m.rest).commitRecord.rebindJob)

/-- Move what a table lists for one core to another core's keys; `w` is a core's share of the keys. -/
def copyKeys {α : Type} (w src dst : Nat) (t : Tab α) : Tab α :=
  (t.filter fun e => e.1 / w == src).foldl (fun t e => tput t (w * dst + e.1 % w) e.2)
    (tfilter (fun k _ => decide (k / w ≠ dst)) t)

/-- Bulk copy reads every word of the source: an error it meets is counted, and marked where it is uncorrectable (R82). -/
def State.findFlips (s : State) (p : Nat) : State :=
  s.each (fun s k => (s.readWord p (k % 0x40000)).1) ((s.srams.flips.filter fun e => e.1 / 0x40000 == p).map (·.1))

/-- R90: the source's scratchpad and instruction memory have been copied into the resting core. -/
def execBulkCopyDone (site : Site) (row : Row) (s : State) : Out :=
  match tfind s.panel.moves (8 * site + row) with
  | none => .next s
  | some m =>
    if m.phase ≠ .copying then .next s
    else
      let src := pcoreAt site row m.src
      let dst := pcoreAt site row m.rest
      let s1 := s.findFlips src
      let s2 := s1.modSrams fun r =>
        { spad := copyKeys spadSize src dst r.spad, poison := copyKeys 0x40000 src dst r.poison
          flips := tfilter (fun k _ => decide (k / 0x40000 ≠ dst)) r.flips
          imem := copyKeys 2048 src dst r.imem, imemFlips := copyKeys 2048 src dst r.imemFlips }
      .next (s2.modPanel fun p => { p with moves := tput p.moves (8 * site + row) { m with phase := .copied } })

/-- Whether a core had arrived at TSYNC, or stopped, by cycle D of the present tick (R240, R231). -/
def State.arrivedByD (s : State) (p : Nat) : Bool :=
  let c := s.core p
  !s.clock.late.contains p && (c.ctl.stopped || c.pipe.arrived.any fun x => decide (x ≤ s.clock.hdr.d))

/-- R90, R91, R240: the handover, in the quiet window of the tick after bulk copy, where the window is long enough and, while a job runs,
the source core arrived in time; else it waits for a later window. -/
def execHandover (site : Site) (row : Row) (s : State) : Out :=
  match tfind s.panel.moves (8 * site + row) with
  | none => .next s
  | some m =>
    if m.phase = .ready ∧ 112 ≤ s.clock.hdr.quiet then
      let s1 := (s.advance (s.clock.start + s.clock.hdr.d + s.clock.ins)).syncAll
      if !s1.job.running || s1.arrivedByD (pcoreAt site row m.src) then
        .next (s1.modPanel fun p => { p with moves := tput p.moves (8 * site + row) { m with phase := .passing } })
      else .next s1
    else .next s

/-! ### Faults and self-checks (R98, R100) -/

/-- What the code of a core fault is a fault of (R99). -/
inductive FaultKind where | unit | data | program
  deriving DecidableEq, Repr

/-- The kind of a core fault code (R99). -/
def faultKind (code : Nat) : FaultKind :=
  if code = ST_CORE_HW then .unit
  else if code = ST_CORE_IMEM_ECC ∨ code = ST_CORE_POISON then .data
  else .program

/-- Whether a core takes part in the running job. -/
def State.onJob (s : State) (p : Nat) : Bool := s.job.running && (s.core p).stat.valid

/-- A core's fault is reported to the panel steward (R98), and firmware treats the core by the fault's kind (R100); a resting core that faults
during a move pins its row (R93). -/
def State.faultReport (s : State) (p : Nat) (selfcheckOk : Bool) : State :=
  let c := s.core p
  let code := c.fault.code
  let l := if c.stat.valid then c.stat.lcore else noUnit
  let s1 := (s.modCore p fun c => { c with fault := { c.fault with told := true } }).raise 0x0201 (nodeAt (pSite p) 0) l [(2, l), (2, code)]
  if (s.moveAt p).any fun m => m.rest == pCol p then s1.declareCore p code
  else match faultKind code with
    | .program => if s.onJob p then s1.endJob code else s1
    | .unit => if !selfcheckOk then s1.declareCore p code else if s.onJob p then s1.resumeJob code else s1
    | .data =>
      if !selfcheckOk || decide (4 ≤ c.count.uncorr) then s1.declareCore p code
      else if s.onJob p then s1.resumeJob code else s1

/-- R98, R100: while its die steward restarts, a fault stays recorded and is reported on the steward's return (R478). -/
def execCoreFaultReport (p : PCore) (selfcheckOk : Bool) (s : State) : Out :=
  .next (if isGw (pSite p) || !(s.core p).fault.valid || (s.wdt (0x100 + pSite p)).restarting then s else s.faultReport p selfcheckOk)

/-- R100: a core's self-check ends, and the core is as it was before it; a core that fails is declared failed. -/
def execSelfcheckDone (p : PCore) (pass : Bool) (s : State) : Out :=
  let c := s.core p
  if c.stat.run ≠ .selfcheck ∨ (s.moveAt p).any (fun m => m.rest == pCol p) then .next s
  else
    let s1 := s.modStat p fun k => { k with run := c.pipe.beforeCheck }
    .next (if pass then s1 else s1.declareCore p ST_CORE_HW)

/-- R96 CMD 0x4: accepted only when no program runs on the core. -/
def execSweep (p : PCore) (s : State) : Out :=
  let r := (s.core p).stat.run
  if isGw (pSite p) ∨ r = .running ∨ r = .held ∨ s.onJob p then .next s else .next (s.sweepCore p)

end Sys2Proof.Machine
end

