-- ==== Sys2Proof/Machine/HostOps.lean ====
section
/-! DEFINITION. What the host interface's commands share (12): queues and their slots (R443 to R452), copies (R453), the streams of
check-value units (R353), aborts (R465 to R468) and mailbox requests (R470 to R474). -/

namespace Sys2Proof.Machine

open Sys2Proof

/-! ### Slots (R443 to R452) -/

/-- The slots of a queue. -/
def QueueRec.size (r : QueueRec) : Nat := 2 ^ r.depth

/-- A status word is free for the device to take the slot (R445). -/
def CmdState.free (x : CmdState) : Bool :=
  match x with
  | .empty => true
  | .done => true
  | .failed => true
  | .aborted => true
  | .rejected => true
  | _ => false

/-- The device's own copy of a slot's command (R447). -/
def State.ownCmd (s : State) (q i : Nat) : List (BitVec 8) := tget [] s.hif.own (slotKey q i)

/-- OP of a command. -/
def opOf (c : List (BitVec 8)) : Nat := leField c 0 1
/-- Argument word `n` of a command. -/
def argOf (c : List (BitVec 8)) (n : Nat) : Nat := leField c (8 + 8 * n) 8

/-- All ones in ARG0 of ABORT. -/
def allOnes64 : Nat := 2 ^ 64 - 1

/-- Whether the arguments of an OP break R451; an unassigned OP does. -/
def argsBad (c : List (BitVec 8)) : Bool :=
  let a := argOf c
  match opOf c with
  | 0 => decide (a 0 ≠ 0 ∨ a 1 ≠ 0 ∨ a 2 ≠ 0 ∨ a 3 ≠ 0)
  | 1 => decide (a 0 % 4096 ≠ 0 ∨ a 1 ≠ 0 ∨ a 2 ≠ 0 ∨ a 3 ≠ 0)
  | 2 => decide ((a 0 ≠ allOnes64 ∧ (bitsOf (a 0) 6 10 ≠ 0 ∨ bitsOf (a 0) 28 4 ≠ 0 ∨ bitsOf (a 0) 48 16 ≠ 0)) ∨
      a 1 ≠ 0 ∨ a 2 ≠ 0 ∨ a 3 ≠ 0)
  | 3 => decide (a 2 % 64 ≠ 0 ∨ a 2 < 64 ∨ 2 ^ 36 < a 2 ∨ stackRange < a 1 + a 2 ∨ 8 ≤ a 3 ∨ a 3 / 2 = 3)
  | 4 => decide (a 0 ≠ 0 ∨ a 1 ≠ 0 ∨ a 2 ≠ 0 ∨ a 3 ≠ 0)
  | 5 => decide (8 ≤ a 0 ∨ 64 < a 3)
  | _ => true

/-- The classes in which an OP is accepted (R451). -/
def opInClass (op cls : Nat) : Bool :=
  match op with
  | 0 => true
  | 1 => cls == 1 || cls == 2
  | 2 => cls == 0
  | 3 => decide (1 ≤ cls)
  | 4 => decide (1 ≤ cls)
  | _ => decide (2 ≤ cls)

/-- The code with which a command is rejected at acceptance, the first of R452's order, 0 for none. -/
def State.rejectCode (s : State) (q : Nat) (c : List (BitVec 8)) : Nat :=
  let op := opOf c
  if argsBad c || leField c 1 1 != 0 || leField c 4 4 != 0 || leField c 0x28 24 != 0 then 0x0C0
  else if !opInClass op (s.queue q).cls then 0x0C1
  else if (op = 1 ∨ op = 5) ∧ s.panel.mode ≠ .ready then 0x0C2
  else if op = 4 ∧ !(s.job.running && s.job.spec.record) then 0x0C2
  else 0

/-- Whether the device takes the slot at HEAD now (R445, R448). -/
def State.canTake (s : State) (q : Nat) : Bool :=
  let r := s.queue q
  r.enable && r.head != r.tail && s.panel.mode != .starting && s.panel.mode != .test && (s.status q r.head).st.free

/-- The command that stands in the slot at HEAD. -/
def State.headCmd (s : State) (q : Nat) : List (BitVec 8) :=
  Memory.readBytes s.hif.cmds (64 * slotKey q (s.queue q).head) 64

/-- The front of a queue: the slot whose turn it is (R450). -/
def State.turn (s : State) (q : Nat) : Option Nat := (s.queue q).live.head?

/-- The slot whose turn it is when it is ACCEPTED and holds `op`. -/
def State.turnOf (s : State) (q op : Nat) : Option Nat :=
  match s.turn q with
  | some i => if (s.status q i).st = .accepted ∧ opOf (s.ownCmd q i) = op then some i else none
  | none => none

/-- A command begins with its PHASE (R456, R457). -/
def State.beginCmd (s : State) (q i phase : Nat) : State := s.modStatus q i fun w => { w with st := .running, phase := phase }

/-- The gateway that runs a queue: its host interface's node, and its check-value unit. -/
def hifNode (gw7 : Bool) : Nat := nodeAt (if gw7 then 130 else 13) 4

/-! ### Copies (R453, R454) -/

/-- A queue's copy. -/
def State.copyOf (s : State) (q : Nat) : Option CopyRec := tfind s.hif.copies q

/-- Change a queue's copy. -/
def State.modCopy (s : State) (q : Nat) (f : CopyRec → CopyRec) : State :=
  match s.copyOf q with
  | some c => s.modHif fun h => { h with copies := tput h.copies q (f c) }
  | none => s

/-- Ask for the next chunk of a copy, up to 256 bytes: from host memory, or from the stack. -/
def State.askChunk (s : State) (q : Nat) (c : CopyRec) : State :=
  let n := min 256 (c.total - c.moved)
  if c.out then s.askStack (.copy q) (s.queue q).cls (c.stack + c.moved) n none
  else s.hostXfer (s.queueGw7 q) (.copy q) (c.host + c.moved) n none

/-- The request that a copy makes of a unit (R453: SNOOP, with RSEQ equal to SEQ). -/
def CopyRec.req (c : CopyRec) : CvuReq :=
  { node := hifNode (c.unit == 7), rseq := c.seq, mode := 1, alg := c.check == 2, expect := none }

/-- The copy that a unit's present stream belongs to. -/
def State.copyOn (s : State) (u : Nat) : Option (Nat × CopyRec) :=
  match (s.cvu u).busy with
  | some q => s.hif.copies.find? fun e => decide (e.2.check ≠ 0) && e.2.unit == u && decide (e.2.req = q)
  | none => none

/-- The remote DMA of this device that a unit's present stream belongs to. -/
def State.sendOn (s : State) (u : Nat) : Option RdmaSend :=
  match (s.cvu u).busy with
  | some q => s.zfp.sends.find? fun e => e.gw == u && decide (e.req = q)
  | none => none

/-- The account of a remote device whose trailer a unit's present stream checks. -/
def State.trailerOn (s : State) (u : Nat) : Option (Nat × Incoming) :=
  match (s.cvu u).busy with
  | some q => if q.mode = 3 then s.zfp.incoming.find? fun e => e.2.gw == u && e.2.seq == q.rseq && portsNode u == q.node else none
  | none => none

/-- Whether a unit's present stream is a snapshot's read-out (R428). -/
def State.snapOn (s : State) (u : Nat) : Bool :=
  decide (8 ≤ u) && s.nvm.snapNow.any fun n => decide ((s.cvu u).busy = some (n.req (u - 8)))

/-- The request that a broadcast transfer makes of its gateway's unit (R589: SNOOP, with RSEQ holding bits [15:0] of XFER). -/
def BcastRec.req (t : BcastRec) (g : Nat) : CvuReq :=
  { node := nodeAt (gwSite g) 1, rseq := t.xfer % 65536, mode := 1, alg := true, expect := none }

/-- The broadcast transfer that a unit's present stream belongs to. -/
def State.bcastOn (s : State) (u : Nat) : Option BcastRec :=
  (tfind s.boot.xfers u).filter fun t => decide ((s.cvu u).busy = some (t.req u))

/-- The open transfer of a gateway closes; its check that the unit has not reached is not computed. -/
def State.closeBcast (s : State) (g : Nat) : State :=
  match tfind s.boot.xfers g with
  | some t => ({ s with boot := { s.boot with xfers := tdel s.boot.xfers g } }).modCvu g fun c => { c with queue := c.queue.erase (t.req g) }
  | none => s

/-- A unit works on what it has taken, as far as that is at hand: a trailer and a routing version are checked, a stream that firmware has
at hand is posted (R41, R426, R431, R463), and so is a broadcast (R589), which lets the next stream in; a remote DMA's flits, a snapshot's read-out and a copy start (R353). -/
def State.workCvu (s : State) (u : Nat) : Nat → State
  | 0 => s
  | n + 1 =>
    match s.sendOn u with
    | some e => if e.going then s else s.startSend e
    | none =>
      match s.trailerOn u, (s.cvu u).busy with
      | some (i, a), some q =>
        let t := s.checkTrailer u q (a.bytes.flatMap (·.2))
        (((t.1.modIncoming i fun a => { a with mismatch := t.2, last := true }).settle i).modCvu u CvuRec.next).workCvu u n
      | _, some q =>
        if u = 0 ∧ s.zfp.committing ∧ q = commitReq then s.commitCheck.workCvu u n
        else if 0 < q.covers then
          (s.modCvu u fun c => (c.post q 1 q.covers (q.expect.getD 0)).next).workCvu u n
        else if let some t := s.bcastOn u then
          (s.modCvu u fun c => (c.post q 1 t.object.length (crc64 t.object).toNat).next).workCvu u n
        else if s.snapOn u then
          let s1 := s.snapBegin (u - 8)
          if (s1.cvu u).busy = some q then s1 else s1.workCvu u n
        else match s.copyOn u with
          | some (k, c) => if c.waitCvu then (s.modCopy k fun c => { c with waitCvu := false }).askChunk k c else s
          | none => s
      | _, none => s

/-- A unit takes its next stream. -/
def State.cvuNext (s : State) (u : Nat) : State := (s.modCvu u CvuRec.next).workCvu u 10

/-- A copy ends: its value is posted, DONE after its last byte and ABANDONED before it (R355), and the unit goes on. -/
def State.leaveCvu (s : State) (c : CopyRec) : State :=
  if c.check = 0 then s
  else if c.waitCvu then s.modCvu c.unit fun k => { k with queue := k.queue.erase c.req }
  else
    let whole := decide (c.total ≤ c.moved)
    (s.modCvu c.unit fun k => k.post c.req (if whole then 1 else 3) c.bytes.length
      (checkValue (c.check == 2) c.bytes)).cvuNext c.unit

/-- Drop a queue's copy and its transfers. -/
def State.dropCopy (s : State) (q : Nat) : State :=
  match s.copyOf q with
  | some c => ((s.modHif fun h => { h with copies := tdel h.copies q }).dropXfers (.copy q)).leaveCvu c
  | none => s.dropXfers (.copy q)

/-- A queue's COPY or IMAGE_WRITE ends with a code. -/
def State.endCopy (s : State) (q code : Nat) : State :=
  match s.turn q with
  | some i => (s.dropCopy q).finishCmd q i code
  | none => s.dropCopy q

/-- A chunk has been moved: the next one follows, or the copy ends (R453). -/
def State.chunkMoved (s : State) (q n : Nat) : State :=
  match s.copyOf q with
  | none => s
  | some c =>
    let c1 := { c with moved := c.moved + n }
    let s1 := (s.modCopy q fun _ => c1).modStatus q c.slot fun w => { w with progress := min 0xFFFFFF (c1.moved / 1024) }
    if c1.total ≤ c1.moved then s1.endCopy q (if c1.poison then 0x0CF else 0) else s1.askChunk q c1

/-- Bytes with every poison 8-byte word as zeros (R660, R453). -/
def zeroBad : List (BitVec 8) → List Bool → List (BitVec 8)
  | bs, [] => bs
  | bs, w :: ws =>
    if bs.isEmpty then [] else (if w then List.replicate (min 8 bs.length) 0#8 else bs.take 8) ++ zeroBad (bs.drop 8) ws

/-- A stack access of a copy has been served: read bytes go to the host, written ones are moved. -/
def State.copyServed (s : State) (q code : Nat) (bytes : List (BitVec 8)) (bad : List Bool) : State :=
  match s.copyOf q with
  | none => s
  | some c =>
    if code ≠ 0 then s.endCopy q code
    else if c.out then
      let clean := zeroBad bytes bad
      (s.modCopy q fun c => { c with
        poison := c.poison || bad.any id, bytes := if c.check = 0 then [] else c.bytes ++ clean }).hostXfer (s.queueGw7 q)
          (.copy q) (c.host + c.moved) clean.length (some clean)
    else s.chunkMoved q (min 256 (c.total - c.moved))

/-! ### The result copy (R463 step 7) -/

/-- The next chunk of the result extents: read from its stack, in the class of the START's queue (R451). -/
def State.resultStep (s : State) : State :=
  match s.job.left with
  | [] => s
  | (a, _, n) :: r =>
    if n ≤ s.job.moved then { s with job := { s.job with left := r, moved := 0 } }
    else s.askStack .result (s.queue s.job.queue).cls (a + s.job.moved) (min 256 (n - s.job.moved)) none

/-- The next chunk, past any extent that is done. -/
def State.resultGo (s : State) : Nat → State
  | 0 => s
  | n + 1 => match s.job.left with
    | (_, _, len) :: _ => if len ≤ s.job.moved then s.resultStep.resultGo n else s.resultStep
    | [] => s

/-- A chunk of a result has been read: it goes to the host, with its poison words as zeros. -/
def State.resultServed (s : State) (code : Nat) (bytes : List (BitVec 8)) (bad : List Bool) : State :=
  if s.job.phase ≠ .drain then s
  else if code ≠ 0 then s.endJob code
  else match s.job.left with
    | [] => s
    | (_, h, _) :: _ =>
      let clean := zeroBad bytes bad
      let s1 : State := { s with job := { s.job with faultCode := if bad.any id then 0x0CF else s.job.faultCode } }
      s1.hostXfer (s.queueGw7 s.job.queue) .result (h + s.job.moved) clean.length (some clean)

/-! ### Mailbox requests (R470 to R474, R601) -/

/-- A mailbox. -/
def State.box (s : State) (m : Nat) : MbxRec := tget {} s.hif.mbx m

/-- Change a mailbox. -/
def State.modBox (s : State) (m : Nat) (f : MbxRec → MbxRec) : State := s.modHif fun h => { h with mbx := tmod {} h.mbx m f }

/-- Who may use a mailbox: MB0 to MB7 are host software's and the panel stewards' alone (R601). -/
def mayUse (m agent : Nat) : Bool :=
  decide (0 < agent ∧ agent < 65536) && (decide (8 ≤ m) || [1, 2, 0x10, 0x11].contains agent)

/-- A data word of a mailbox. -/
def MbxRec.word (b : MbxRec) (w : Nat) : Nat := (tget 0#32 b.data w).toNat

/-- Write consecutive data words. -/
def putWordsFrom (t : Tab (BitVec 32)) (w : Nat) : List Nat → Tab (BitVec 32)
  | [] => t
  | v :: r => putWordsFrom (mset 0#32 t w (BitVec.ofNat 32 v)) (w + 1) r

/-- The receiver answers: RCODE, DONE, and PENDING cleared (R472 step 4). -/
def State.ackBox (s : State) (m rcode : Nat) : State := s.modBox m fun b => { b with rcode := rcode, done := true, pending := false }

/-- Write a response's words and answer ST_OK. -/
def State.replyBox (s : State) (m : Nat) (words : List Nat) : State :=
  (s.modBox m fun b => { b with data := putWordsFrom b.data 0 words }).ackBox m 0

/-- Whether firmware has a request of a service before it (R472, R476, R493, R586, R603). -/
def State.asked (s : State) (m service : Nat) : Bool :=
  let b := s.box m
  b.pending && b.service == service && (b.receiver == 0x10 || b.receiver == 0x11)

/-- The services that firmware serves on a mailbox (R476, R493, R586, R603). -/
def served (m service : Nat) : Bool :=
  if m < 8 then service == 0x10 || service == 0x11 || (decide (0x30 ≤ service) && decide (service ≤ 0x37))
  else service == 1 || service == 2 || service == 3 || service == 0x20 || service == 0x21

/-- R470: a read of MBX_LOCK; what it returns, and whether it claims. -/
def State.lockRead (s : State) (m agent : Nat) : State × Nat :=
  let b := s.box m
  if !mayUse m agent then (s, 0xFFFF)
  else if b.owner = 0 then (s.modBox m fun b => { b with owner := agent }, 0)
  else if b.owner = agent then (s, 0)
  else (s, b.owner)

/-- Free a mailbox (R471, R474). -/
def State.freeBox (s : State) (m : Nat) : State :=
  (s.modBox m fun b => { b with owner := 0, pending := false, data := [] }).dropXfers (.mbx m)

/-- R471: a write of MBX_LOCK. -/
def State.lockWrite (s : State) (m agent value : Nat) : State :=
  if mayUse m agent && (s.box m).owner == agent && value == agent then s.freeBox m else s

/-- R471 to R473: a write of MBX_DB; a host receiver is woken by EV_MBX_DOORBELL. Firmware answers a service that it does not serve. -/
def State.dbWrite (s : State) (m agent service : Nat) : State :=
  let b := s.box m
  if !(mayUse m agent && b.owner == agent) || b.pending then s
  else
    let s1 := (s.modBox m fun b => { b with service := service % 65536, pending := true, done := false, rung := s.hif.nextRing }).modHif
      fun h => { h with nextRing := h.nextRing + 1 }
    if b.receiver < 3 then s1.raise 0x0801 panelNode m [(1, m)]
    else if (b.receiver = 0x10 ∨ b.receiver = 0x11) ∧ !served m (service % 65536) then s1.ackBox m 0x0CC
    else s1

/-- R472, R474: a write of MBX_ACK, by the receiver of a pending request. -/
def State.ackWrite (s : State) (m agent rcode : Nat) : State :=
  let b := s.box m
  if mayUse m agent && b.receiver == agent && b.pending then s.ackBox m (rcode % 65536) else s

/-- R471: a write of a data word. -/
def State.dataWrite (s : State) (m agent w : Nat) (v : BitVec 32) : State :=
  let b := s.box m
  if mayUse m agent && (if b.pending then b.receiver == agent else b.owner == agent) then
    s.modBox m fun b => { b with data := mset 0#32 b.data w v }
  else s

end Sys2Proof.Machine
end

