-- ==== Sys2Proof/Machine/Host.lean ====
section
/-! DEFINITION. Command queues and mailboxes (12): host completions, doorbells, the taking of slots, every queue command, the drain of
a job, aborts, take-over, and the mailbox accesses and services. -/

namespace Sys2Proof.Machine

open Sys2Proof

/-! ### Doorbells and queues -/

/-- R445, R446. -/
def State.setTail (s : State) (q tail : Nat) : State :=
  if tail < (s.queue q).size then s.modQueue q fun r => { r with tail := tail } else s

/-- R445, R446. -/
def execDoorbell (q : Queue) (tail : BitVec 12) (s : State) : Out := .next (s.setTail q tail.toNat)

/-- A write of HIF_QCTL (12): only while no command of the queue is short of its end, and only with a DEPTH of 4 to 12; a rise of
ENABLE empties the queue (R455). -/
def State.writeQctl (s : State) (q : Nat) (v : Nat) : State :=
  let r := s.queue q
  let depth := bitsOf v 0 4
  if !r.live.isEmpty ∨ depth < 4 ∨ 12 < depth then s
  else
    let on := bitOf v 31
    let s1 := s.modQueue q fun r => { r with enable := on, cls := bitsOf v 29 2, depth := depth }
    if on && !r.enable then
      (s1.modQueue q fun r => { r with head := 0, tail := 0 }).modHif fun h => { h with
        status := tfilter (fun k _ => k / 4096 != q) h.status }
    else s1

/-- A write of HIF_QCTL. -/
def execHifQctlWrite (q : Queue) (value : BitVec 32) (s : State) : Out := .next (s.writeQctl q value.toNat)

/-! ### Aborts (R465 to R467) -/

/-- Stop a command other than a START and end it as ABORTED, with its ABORT (R466, R467). -/
def State.abortCmd (s : State) (tq ti q i : Nat) : State :=
  let s1 := if s.turn tq = some ti then s.dropCopy tq else s
  let s2 := s1.modNvm fun v => { v with imageNew := v.imageNew.filter fun e => !(e.1 == tq && e.2.1 == ti) }
  let s3 := s2.modHif fun h => { h with starts := h.starts.filter fun e => decide (e ≠ (tq, ti)) }
  let s4 : State := { s3 with job := { s3.job with aborts := s3.job.aborts.filter fun e => decide (e ≠ (tq, ti)) } }
  (s4.endCmd tq ti .aborted 0x0CB).finishCmd q i 0

/-- The START of the job is aborted, from whatever PHASE up to DRAIN it is in (R466), with the broadcasts of its program (R593). -/
def State.abortJob (s : State) (q i : Nat) : State :=
  let s1 := ((s.dropXfers .result).dropXfers .start).modStatus s.job.queue s.job.slot fun w => { w with st := .aborting }
  let s2 : State := { s1 with job := { s1.job with aborts := s1.job.aborts ++ [(q, i)], abortAt := s.clock.now } }
  let mine := (s2.boot.xfers.filter fun e => e.2.obj == 5 || e.2.obj == 7).map (·.1)
  ((s2.each State.closeBcast mine).finishJob 0x0CB .abort).reportEnd

/-- An accepted ABORT acts (R465). -/
def State.actAbort (s : State) (q i : Nat) : State :=
  let a := argOf (s.ownCmd q i) 0
  let all := decide (a = allOnes64)
  let tq := if all then s.job.queue else bitsOf a 0 6
  let ti := if all then s.job.slot else bitsOf a 16 12
  let w := s.status tq ti
  let isJob := s.startBusy && s.job.queue == tq && s.job.slot == ti
  let none_ := s.finishCmd q i 0x0C3
  if all && !s.job.live && !(s.startBusy && w.st == .aborting) then none_
  else if (tq = q ∧ ti = i) ∨ (!all && w.seq != bitsOf a 32 16) then none_
  else match w.st with
    | .aborting => if isJob then { s with job := { s.job with aborts := s.job.aborts ++ [(q, i)] } } else none_
    | .accepted => s.abortCmd tq ti q i
    | .running => if isJob then (if s.job.live then s.abortJob q i else none_) else s.abortCmd tq ti q i
    | _ => none_

/-- The device takes the slot at HEAD (R447): its own copy, ACCEPTED or REJECTED, HEAD past it; a START waits for its turn (R661), an
ABORT acts at once. -/
def State.takeSlot (s : State) (q : Nat) : State :=
  if !s.canTake q then s
  else
    let r := s.queue q
    let i := r.head
    let c := s.headCmd q
    let code := s.rejectCode q c
    let ok := decide (code = 0)
    let s1 := (s.modStatus q i fun _ => { st := if ok then .accepted else .rejected, code := code, seq := leField c 2 2 }).modQueue q fun r =>
      { r with head := (i + 1) % r.size, live := if ok then r.live ++ [i] else r.live }
    let s2 := s1.modHif fun h => { h with
      own := tput h.own (slotKey q i) c, starts := if ok && opOf c == 1 then h.starts ++ [(q, i)] else h.starts }
    if ok && opOf c == 2 then s2.actAbort q i else s2

/-- R447: any command but an ABORT. -/
def execSlotTake (q : Queue) (s : State) : Out :=
  .next (if opOf (s.headCmd q) = 2 ∧ s.rejectCode q (s.headCmd q) = 0 then s else s.takeSlot q)

/-- R465. -/
def execAbort (q : Queue) (s : State) : Out :=
  .next (if opOf (s.headCmd q) = 2 then s.takeSlot q else s)

/-! ### The commands -/

/-- R451: NOP is DONE as it begins. -/
def execQueueNop (q : Queue) (s : State) : Out :=
  match s.turnOf q 0 with
  | some i => .next (s.finishCmd q i 0)
  | none => .next s

/-- The START whose turn it is: the first accepted of those at the front of their queues (R661). -/
def State.startTurn (s : State) : Option (Nat × Nat) :=
  s.hif.starts.find? fun e => s.turn e.1 == some e.2

/-- Whether SEC_STAT.SCAN holds the panel in TEST. -/
def State.scanTest (s : State) : Bool := s.panel.mode == .test && s.sec.scan

/-- The START whose turn it is begins, as the state of the panel has it (R661): it loads, stays ACCEPTED, or fails. A START whose
transfers found no link UP goes on once one is (R454). -/
def State.runStart (s : State) (q i : Nat) (desc image : Option (List (BitVec 8))) (fit : Option Nat) : State :=
  if s.startBusy then s
  else if s.panel.mode = .ready then
    let s1 := s.beginStart q i
    if s1.job.phase ≠ .loading then s1
    else if s1.anyLink then s1.loadJob desc image fit
    else s1.hostXfer (s1.queueGw7 q) .start (argOf (s1.ownCmd q i) 0) 256 none
  else if s.panel.mode = .relay ∨ (s.panel.mode = .test ∧ !s.sec.scan) then s
  else (s.modHif fun h => { h with starts := h.starts.filter fun e => decide (e ≠ (q, i)) }).finishCmd q i 0x0C2

/-- Whether the START in LOADING waits for a link that has come UP (R454). -/
def State.startLinked (s : State) : Bool :=
  s.job.phase == .loading && s.hif.xfers.any fun e => decide (e.2.use = .start) && decide (e.2.link < 2)

/-- The margin that a fit test leaves, none where it fails (R44). -/
def fitLeft (pass : Bool) (left : Nat) : Option Nat := if pass then some left else none

/-- R463. -/
def execStart (q : Queue) (desc image : Option (List (BitVec 8))) (fitPass : Bool) (left : Nat) (s : State) : Out :=
  let fit := fitLeft fitPass left
  if s.startLinked ∧ s.job.queue = q then .next ((s.dropXfers .start).loadJob desc image fit)
  else match s.startTurn with
    | some (k, i) => .next (if k = q then s.runStart k i desc image fit else s)
    | none => .next s

/-- R661. -/
def execStartBegin (desc image : Option (List (BitVec 8))) (fitPass : Bool) (left : Nat) (s : State) : Out :=
  match s.startTurn with
  | some (k, i) => .next (s.runStart k i desc image (fitLeft fitPass left))
  | none => .next s

/-- R453, R353: a COPY begins; with a check it waits for its gateway's unit, and one that finds the unit's queue full is refused. A
copy that was waiting for a unit that is now free for it goes on. -/
def execCopy (q : Queue) (s : State) : Out :=
  match s.turnOf q 3 with
  | none => .next (match s.copyOf q with
      | some c => if c.waitCvu then s.workCvu c.unit 10 else s
      | none => s)
  | some i =>
    let c := s.ownCmd q i
    let a3 := argOf c 3
    let link := s.linkFor (s.queueGw7 q)
    let gw7 := if link = 2 then s.queueGw7 q else decide (link = 1)
    let r : CopyRec :=
      { slot := i, host := argOf c 0, stack := argOf c 1, total := argOf c 2, moved := 0, out := bitOf a3 0, check := bitsOf a3 1 2
        poison := false, bytes := [], waitCvu := false, seq := leField c 2 2, unit := if gw7 then 7 else 0 }
    let s1 := s.beginCmd q i 1
    if r.check = 0 then .next ((s1.modHif fun h => { h with copies := tput h.copies q r }).askChunk q r)
    else
      let k := s1.askCvu r.unit r.req
      match k.2 with
      | 0 => .next ((k.1.modHif fun h => { h with copies := tput h.copies q r }).askChunk q r)
      | 1 => .next (k.1.modHif fun h => { h with copies := tput h.copies q { r with waitCvu := true } })
      | _ => .next (k.1.finishCmd q i 0x098)

/-- R451, R427: a snapshot is requested at the next step close. -/
def execSnapshot (q : Queue) (s : State) : Out :=
  match s.turnOf q 4 with
  | some i => .next ((s.modNvm fun v => { v with snapAsked := true }).finishCmd q i 0)
  | none => .next s

/-- The bytes that an IMAGE_WRITE moves. -/
def imageSize (image : List (BitVec 8)) (extents : List (Nat × List (BitVec 8))) : Nat :=
  image.length + sumOf (extents.map fun e => e.2.length)

/-- R432, R451: the image's bytes are read from the host and go to the store; IMAGE_COMMIT ends the command. With no link UP the
command waits (R454). -/
def execImageWrite (q : Queue) (image : Option (List (BitVec 8))) (extents : Option (List (Nat × List (BitVec 8)))) (s : State) : Out :=
  let waiting := (s.hif.xfers.any fun e => decide (e.2.use = .copy q) && decide (e.2.link < 2)) &&
    (s.turn q).any fun i => (s.status q i).st == .running && opOf (s.ownCmd q i) == 5
  let go (s : State) (i : Nat) : State :=
    match image, extents with
    | some m, some es =>
      (s.modNvm fun v => { v with imageNew := v.imageNew ++ [(q.val, i, argOf (s.ownCmd q i) 0, ⟨m, es⟩)] }).modStatus q i fun w =>
        { w with progress := min 0xFFFFFF (imageSize m es / 1024) }
    | _, _ => s.finishCmd q i 0x0C5
  if waiting then
    match s.turn q with
    | some i => .next (go (s.dropXfers (.copy q)) i)
    | none => .next s
  else match s.turnOf q 5 with
    | none => .next s
    | some i =>
      let s1 := s.beginCmd q i 1
      .next (if s1.anyLink then go s1 i else s1.hostXfer (s1.queueGw7 q) (.copy q) (argOf (s1.ownCmd q i) 1) 256 none)

/-! ### Completions and links -/

/-- A transfer has failed with a code: its command, job or mailbox service ends with it (R454). -/
def State.xferFailed (s : State) (use : XferFor) (code : Nat) : State :=
  match use with
  | .copy q => s.endCopy q code
  | .result => s.endJob code
  | .start => if s.job.phase = .loading then s.failStart code else s
  | .event => s
  | .mbx m => if (s.box m).pending then (s.dropXfers use).ackBox m code else s.dropXfers use

/-- A transfer has been answered with ST_OK. -/
def State.xferDone (s : State) (x : Xfer) (data : List (BitVec 8)) : State :=
  match x.use with
  | .copy q =>
    match s.copyOf q with
    | none => s
    | some c =>
      if c.out then s.chunkMoved q x.len
      else (s.modCopy q fun c => { c with bytes := if c.check = 0 then [] else c.bytes ++ data }).askStack (.copy q) (s.queue q).cls
        (c.stack + c.moved) x.len (some (data, []))
  | .result => { s with job := { s.job with moved := s.job.moved + x.len } }.resultGo 17
  | .start => s
  | .event => s
  | .mbx m => if (s.hif.xfers.any fun e => decide (e.2.use = .mbx m)) || !(s.box m).pending then s else s.ackBox m 0

/-- Whether a transaction of the host breaks R438; `own` is whether its CODE must be 0. -/
def headBad (h : HostHead) (own : Bool) : Bool :=
  h.badType || decide (4 ≤ h.cls.toNat) || !h.rest || (if own then decide (h.code ≠ 0#16) else decide (0x1000 ≤ h.code.toNat)) ||
  decide (h.len.toNat < 4 ∨ 256 < h.len.toNat ∨ h.len.toNat % 4 ≠ 0)

/-- R454, R660: a completion answers the transfer under its tag, or is discarded; one that breaks R438 is answered itself. -/
def execHostCpl (link : HostLink) (head : HostHead) (data : List (BitVec 8)) (s : State) : Out :=
  if !(s.port (32 + link)).up then .next s
  else if headBad head false then .next (s.answer link head.tag.toNat 0x0CE [])
  else
    let tag := head.tag.toNat
    match tfind s.hif.xfers tag with
    | none => .next s
    | some x =>
      if x.link ≠ link then .next s
      else
        let s1 := s.modHif fun h => { h with xfers := tdel h.xfers tag }
        if head.code ≠ 0#16 ∨ (x.data.isNone ∧ data.length ≠ x.len) then .next (s1.xferFailed x.use 0x0C5)
        else .next (s1.xferDone x data)

/-- R454: no link has come UP for 100 ms. -/
def execHostLinkWaitTimeout (tag : BitVec 16) (s : State) : Out :=
  match tfind s.hif.xfers tag.toNat with
  | none => .next s
  | some x =>
    if x.link < 2 then .next s
    else .next (((s.advance (x.since + s.cyclesOf (100000 * usec))).modHif fun h => { h with xfers := tdel h.xfers tag.toNat }).xferFailed
      x.use 0x0C6)

/-! ### The end of a job (R463 steps 7 and 8, R468) -/

/-- R463 step 7: from the boundary that ends the job's last tick, DRAIN copies every result extent into host memory. -/
def execJobDrain (s : State) : Out :=
  if s.job.phase = .running ∧ s.allStopped then
    let s1 := s.advance s.boundary
    let s2 : State := { s1 with job := { s1.job with phase := .drain, running := false, faultCode := 0, left := s1.job.spec.results, moved := 0 } }
    .next ((s2.modStatus s.job.queue s.job.slot fun w => { w with phase := 5 }).resultGo 17)
  else .next s

/-- The code of a job whose results have been copied: ST_TICK_HELD takes the place of ST_OK where a core of it was held at D (R237). -/
def State.drainCode (s : State) : Nat :=
  if s.job.faultCode ≠ 0 then s.job.faultCode else if s.clock.heldJob then 0x063 else 0

/-- R463 step 8; then firmware moves what waits for the job's end (R525, R527). -/
def execResultCopyDone (s : State) : Out :=
  if s.job.phase = .drain ∧ s.job.left.isEmpty then .next ((s.finishJob s.drainCode .jobEnd).reportEnd).afterJob else .next s

/-- A die that misses an abort's deadline is fenced: its sweep has failed, so that its cores read as poison, its incarnation rises, and it takes no
program until a cold start, which a spare takes in its place (R468, R485, R50). -/
def State.fenceSlow (s : State) (site : Nat) : State :=
  let s1 := ((s.modSweep site fun d => { d with st := 3, failed := d.left ++ d.failed, left := [] }).raiseInc (nodeAt site 0)).dieMode site .fenced
  if s.roleOf site = .bound ∨ s.roleOf site = .spare then s1.setRole site .retired else s1

/-- R468: 1.4 ms after its acceptance, the ABORT fences every die that is not swept. -/
def execAbortSweepDeadline (s : State) : Out :=
  if s.job.phase = .sweep ∧ s.job.cause = .abort then
    let s1 := s.advance (s.job.abortAt + s.cyclesOf (1400 * usec))
    let slow := (s1.win.sweep.filter fun e => !e.2.left.isEmpty).map (·.1)
    let s2 := s1.each State.fenceSlow slow
    .next (if slow.isEmpty then s2 else s2.replaceLost false ST_CORE_HW).reportEnd
  else .next s

/-- R444: the queues of a gateway that has left service are run by the other, at the state of its copy. -/
def execQueueTakeover (gw7 : Bool) (s : State) : Out :=
  if s.routerUp (if gw7 then 130 else 13) || !s.routerUp (if gw7 then 13 else 130) then .next s
  else
    let mine := (List.range 64).filter fun q => s.queueGw7 q == gw7
    let one (s : State) (q : Nat) : State :=
      let s1 := match s.turn q with
        | some i => if (s.status q i).st = CmdState.running ∧ !(s.startBusy && s.job.queue == q && s.job.slot == i) then
            (s.modNvm fun v => { v with imageNew := v.imageNew.filter fun e => !(e.1 == q && e.2.1 == i) }).endCopy q 0x0C7 else s
        | none => s
      s1.modQueue q fun r => { r with moved := true, gw7 := some (!gw7) }
    .next (s.each one mine)

/-! ### Mailboxes -/

/-- R470. -/
def execMbxLockRead (m : Mbx) (agent : Nat) (s : State) : Out := .next (s.lockRead m agent).1

/-- R471. -/
def execMbxLockWrite (m : Mbx) (agent value : Nat) (s : State) : Out := .next (s.lockWrite m agent value)

/-- R471, R472. -/
def execMbxDbWrite (m : Mbx) (agent service : Nat) (s : State) : Out := .next (s.dbWrite m agent service)

/-- R472. -/
def execMbxAckWrite (m : Mbx) (agent : Nat) (rcode : BitVec 16) (s : State) : Out := .next (s.ackWrite m agent rcode.toNat)

/-- R471. -/
def execMbxDataWrite (m : Mbx) (agent : Nat) (w : Fin 16) (value : BitVec 32) (s : State) : Out := .next (s.dataWrite m agent w value)

/-- R475: firmware frees every mailbox of an owner that is dead; host software counts so when both links are down. -/
def execMbxForced (agent : Nat) (s : State) : Out :=
  let ms := (s.hif.mbx.filter fun e => e.2.owner == agent).map (·.1)
  if agent = 0 ∨ ((agent = 1 ∨ agent = 2) ∧ s.anyLink) then .next s
  else .next (s.each (fun s m => (s.freeBox m).raise 0x0802 panelNode m []) ms)

/-- R476: ECHO. -/
def execEcho (m : Mbx) (s : State) : Out := .next (if 8 ≤ m.val && s.asked m 1 then s.ackBox m 0 else s)

/-- R476, R596: VERSION: the version string of the panel steward image in force, and GLB_MAP_GEN. -/
def execVersion (m : Mbx) (s : State) : Out :=
  let v := match tfind s.sec.inForce 1 with
    | some (_, i) => i.version
    | none => []
  .next (if 8 ≤ m.val && s.asked m 2 then
    s.replyBox m ((List.range 4).map (fun k => leField v (4 * k) 4) ++ [s.panel.mapGen.toNat]) else s)

/-- R476, R233: OVERRUN sets the policy of later jobs; a STRETCH_LEN field of 0 stands for 16 units. -/
def execOverrun (m : Mbx) (s : State) : Out :=
  if !(8 ≤ m.val && s.asked m 3) then .next s
  else if s.panel.mode ≠ .ready then .next (s.ackBox m 0x0CD)
  else
    let w := (s.box m).word 0
    let n := bitsOf w 8 4
    .next ({ s with clock := { s.clock with
      stretch := !bitOf w 0, stretchLen := if bitOf w 0 then s.clock.stretchLen else 256 * (if n = 0 then 16 else n) } }.ackBox m 0)

end Sys2Proof.Machine
end

