-- ==== Sys2Proof/Machine/Serve.lean ====
section
/-! DEFINITION. What comes of an unscheduled stack access once it is served (R306), the end of a stack's sweep (R348), and the end of
a check-value unit's stream (R355). -/

namespace Sys2Proof.Machine

open Sys2Proof

/-- The bytes of a host read that starts `skew` bytes into an 8-byte word, each poison word as zeros (R660). -/
def cleanRead (skew : Nat) (bytes : List (BitVec 8)) (bad : List Bool) : List (BitVec 8) :=
  (zeroBad (List.replicate skew 0#8 ++ bytes) bad).drop skew

/-- An access has been served in full: its asker goes on. -/
def State.accessServed (s : State) (v : Served) : State :=
  match v.asker with
  | .host link tag read skew =>
    if v.code ≠ 0 then s.answer link tag v.code []
    else if !read then s.answer link tag 0 []
    else if v.poison.any id then s.answer link tag 0x0CF (cleanRead skew v.bytes v.poison)
    else s.answer link tag 0 v.bytes
  | .copy q => s.copyServed q v.code v.bytes v.poison
  | .result => s.resultServed v.code v.bytes v.poison
  | .rdma key => if v.code = 0 then s.rdmaGo key v.bytes v.poison else s
  | .shadow incoming _ n =>
    match incoming with
    | none => s
    | some i =>
      (s.modIncoming i fun a => if v.code = 0 then { a with landed := a.landed + n } else { a with dropped := a.dropped + n }).settle i
  | .snapshot stack => s.snapGot stack v.bytes v.poison
  | .steward => s

/-! ### Remote DMA at its gateway (R339, R387) -/

/-- Packet `k` of a remote DMA: up to four granules; the last packet carries LAST, unless a trailer follows (R365, R386). -/
def RdmaSend.packet (e : RdmaSend) (k : Nat) : Packet :=
  let gs := (List.range 4).filterMap fun j => tfind e.got (4 * k + j)
  { plainPacket 0 e.cls (e.dest + 256 * k) (e.key / 4) e.seq [] with
    chan := e.seq % 16, last := decide (e.granules ≤ 4 * k + 4) && e.cvu % 4 != 2, rpt := true, data := gs.flatMap (·.1)
    poison := BitVec.ofNat 32 (leNat (gs.map (·.2))) }

/-- The trailer's packet (R352). -/
def RdmaSend.trailer (e : RdmaSend) (v : Nat) : Packet :=
  { plainPacket 0 e.cls (e.dest + (e.granules - 1) / 4 * 256) (e.key / 4) e.seq [] with
    chan := e.seq % 16, last := true, rpt := true, trailer := true, data := trailerBytes (bitOf e.cvu 2) v }

/-- Whether every granule of the next packet has reached the gateway. -/
def RdmaSend.ready (e : RdmaSend) : Bool :=
  decide (4 * e.sent < e.granules) && (List.range 4).all fun j => decide (e.granules ≤ 4 * e.sent + j) || tmem e.got (4 * e.sent + j)

/-- Packets leave in order as they are whole (R385). -/
def State.sendReady (s : State) (e : RdmaSend) : Nat → State × RdmaSend
  | 0 => (s, e)
  | n + 1 => if e.ready then (s.sendPacket (e.packet e.sent)).sendReady { e with sent := e.sent + 1 } n else (s, e)

/-- A granule of a remote DMA reaches its gateway. With the last one its check value is posted, in TRAILER mode the trailer follows, and the unit takes its
next stream (R352, R355). -/
def State.gatewayTakes (s : State) (id i : Nat) (bytes : List (BitVec 8)) (poison : BitVec 8) : State :=
  match s.zfp.sends.find? fun e => e.id == id && e.going with
  | none => s
  | some e0 =>
    let q := s.sendReady { e0 with got := tput e0.got i (bytes, poison) } e0.granules
    let e := q.2
    if 4 * e.sent < e.granules then q.1.modZfp fun z => { z with sends := z.sends.map fun x => if x.id = id then e else x }
    else
      let s1 := q.1.modZfp fun z => { z with sends := z.sends.filter fun x => x.id != id }
      let all := e.got.flatMap fun g => g.2.1
      let v := checkValue (bitOf e.cvu 2) all
      match e.cvu % 4 with
      | 0 => s1
      | m => ((if m = 2 then s1.sendPacket (e.trailer v) else s1).modCvu e.gw fun c => c.post e.req 1 all.length v).cvuNext e.gw

/-- R331, R333, R339: a wadi flit leaves its channel at its core, or at the gateway through which its remote DMA leaves. -/
def execWadiFlitArrival (flit : Nat) (s : State) : Out :=
  match s.flit flit with
  | none => .next s
  | some f =>
    match f.pos with
    | .land pos due dir =>
      if f.kind ≠ 3 then .next s
      else if 0x3000 ≤ f.dest then
        .next (((s.advance due).dropFlit flit).gatewayTakes (f.tag.getD 0 - 2 ^ 40) f.arg f.bytes f.poison)
      else .next ((s.advance due).coreWadi flit f pos due dir)
    | _ => .next s

/-! ### Served accesses and streams -/

/-- R306, R349. -/
def execUnscheduledAccessServe (stack : Stack) (s : State) : Out :=
  let q := s.serveAccess stack
  match q.2 with
  | some v => .next (q.1.accessServed v)
  | none => .next q.1

/-- R348, R349: every region written is swept; a START that waits for the sweeps goes on. -/
def execStackSweepDone (stack : Stack) (s : State) : Out :=
  let r := s.stack stack
  if !r.sweeping then .next s
  else
    let s1 := s.each (fun s phys => s.sweepRegion stack phys) r.toSweep
    let s2 := (s1.modStack stack fun r => { r with sweeping := false }).raise 0x0405 (nodeOfStack stack) stack []
    .next (if s2.job.phase = .waitSweep then s2.proceed else s2)

/-- R355, R352: the unit's stream ends and its result is posted, ABANDONED for one cut off before its last byte or by its job's end; the next stream
of the queue follows. A stream of the device's own copies, remote DMAs, accounts and snapshots ends with the bytes that these hold. -/
def execCvuStreamEnd (unit : Cvu) (bytes : List (BitVec 8)) (abandoned : Bool) (s : State) : Out :=
  match (s.cvu unit).busy with
  | none => .next s
  | some q =>
    if (s.copyOn unit).isSome ∨ (s.sendOn unit).isSome ∨ (s.trailerOn unit).isSome ∨ s.snapOn unit ∨ (s.bcastOn unit).isSome ∨ (unit.val = 0 ∧ s.zfp.committing ∧ q = commitReq) then .next (s.workCvu unit 10)
    else if abandoned || (s.cvu unit).cut then
      .next ((s.modCvu unit fun c => c.post q 3 bytes.length (checkValue q.alg bytes)).cvuNext unit)
    else if q.mode = 3 then .next ((s.checkTrailer unit q bytes).1.cvuNext unit)
    else .next ((s.modCvu unit fun c => c.post q 1 bytes.length (checkValue q.alg bytes)).cvuNext unit)

end Sys2Proof.Machine
end

