-- ==== Sys2Proof/Machine/Cons.lean ====
section
/-! DEFINITION. Failure, fencing and step consensus (13): watchdogs, beacons, view changes, restores of a group, stragglers, pairs and
the group services. -/

namespace Sys2Proof.Machine

open Sys2Proof

/-! ### Watchdogs (R478, R479) -/

/-- What a second consecutive miss takes (R478). -/
def State.stewardLost (s : State) (agent : Nat) : State :=
  let s1 := s.modWdt agent fun w => { w with out := true, restarting := false }
  if 0x100 ≤ agent then s1.failDie (agent - 0x100) false ST_CORE_HW
  else if 0x30 ≤ agent then s1.loseStack (agent - 0x30)
  else if 0x20 ≤ agent then s1.gatewayServicesOut (agent - 0x20)
  else s1.panelFails (agent == 0x11)

/-- R478: a miss restarts the steward; a second one, while it restarts or before 100 ms without a miss, takes its unit. -/
def execStewardWdt (agent : Nat) (s : State) : Out :=
  let w := s.wdt agent
  let second := w.restarting || (match w.backAt with
    | some t => decide (s.clock.now < t + s.cyclesOf (100000 * usec))
    | none => false)
  if !isStewardAgent agent || w.out then .next s
  else if second then .next (s.stewardLost agent)
  else
    let u := stewardUnit agent
    let s1 := (s.modWdt agent fun w => { w with restarting := true }).raise 0x0901 u.1 u.2 []
    .next (if agent < 0x20 then s1.panelFails (agent == 0x11) else s1)

/-- R479. -/
def execPanelStewardSilence (s : State) : Out :=
  if s.stew.active.isSome then .next s
  else .next ((s.advance (s.stew.offAt + s.cyclesOf (20000 * usec))).modCons fun c => { c with silentOff := true })

/-! ### Steps of the group (R504, R505) -/

/-- The coordinator learns that every live rank has closed a further step (R505); marks of the step before fall. -/
def State.learn (s : State) : State :=
  if !s.isCoord then s
  else
    let g := lowest (s.cons.live.map fun r => (s.rankSteps r).1)
    if s.cons.allClosed < g then s.modCons fun c => { c with
      allClosed := g, learned := s.clock.tick.toNat, members := tmap (fun _ m => { m with straggler := false }) c.members }
    else s

/-! ### View changes (R497 to R502) -/

/-- Ranks that R496 names in a packet. -/
def statePacketRanks (p : Packet) : List Nat := ((List.range 4).map fun i => leField p.inl (24 + 2 * i) 2).filter (· ≠ 0xFFFF)

/-- A waiting STATE packet of a sub-kind is taken in: none when it is not for this device's group, or R368 or R375 drops it. -/
def State.takeState (s : State) (rx sub : Nat) : State × Option Packet :=
  match s.rxFor rx 4 with
  | none => (s, none)
  | some x =>
    if x.pkt.arg ≠ sub then (s, none)
    else
      let s1 := s.dropRx rx
      match s1.arrivalDrop x with
      | some s2 => (s2, none)
      | none => if leField x.pkt.inl 0 4 = s.cons.group then (s1, some x.pkt) else (s1, none)

/-- The rank of a packet's sender, when the membership table gives it to the packet's source device. -/
def State.senderRank (s : State) (p : Packet) : Option Nat :=
  let r := leField p.inl 8 2
  if (s.member r).dev = p.srcDev then some r else none

/-- Ranks that may run a change: the coordinator, the next lowest live rank, and the one to which a SUSPECT about the coordinator goes
again (R497, R499). -/
def Cons.actors (c : Cons) : List Nat := c.live.take 3

/-- The rank to which a SUSPECT about `rank` goes first (R497). -/
def Cons.suspectTo (c : Cons) (rank : Nat) : Option Nat := (c.live.filter (· ≠ rank)).head?

/-- This device fences itself (R486). -/
def State.fenceSelf (s : State) : State :=
  let s1 : State := { s with
    cons := { s.cons with mode := .fenced, proposal := none, waiting := [], suspected := [], spare := false }
    stew := { s.stew with c0 := [] } }
  ((s1.finishJob 0x0E1 .fence).reportEnd).raise 0x0902 s.consNode noUnit []

/-- Whether a job's program has begun, or is being restored, so that a rewind concerns it (R501); a fit test ends first (R53). -/
def Job.rewinds (j : Job) : Bool :=
  match j.phase with
  | .running => true
  | .restoring => true
  | .waitDie => j.started || j.spec.resume
  | .ready => j.started || j.spec.resume
  | _ => false

/-- The job goes back to the resume step of a view change, its START staying RUNNING (R501, R503). -/
def State.rewindTo (s : State) (step : Nat) : State :=
  if !s.job.rewinds then s
  else
    let s1 := s.haltJob.cutSnapshot
    ({ s1 with
      nvm := { s1.nvm.stopRecording with mode := if s1.nvm.mode = StoreMode.broken then .broken else .restoring }
      job := { s1.job with phase := .restoring, running := false, resumeAt := some step } }).modStatus s.job.queue s.job.slot fun w => { w with phase := 2 }

/-- The table after a change of a cause about some ranks (R498 step 4). -/
def changeMembers (cause : Nat) (ranks : List Nat) (t : Tab Member) : Tab Member :=
  if cause = 5 then ranks.foldl (fun t r => tmod {} t r fun m => { m with live := true }) t
  else tmap (fun r m =>
    if !ranks.contains r then m
    else if cause = 1 ∨ cause = 3 then (if m.live then { m with live := false, inc := (m.inc + 1) % 2 ^ 32 } else m)
    else if cause = 4 then {}
    else m) t

/-- The device of a rank and its incarnation become known, by its JOIN or by the first beacon of a rank that has joined; the entry that the
device held before is cleared (R488). -/
def nameMember (r dev inc : Nat) (t : Tab Member) : Tab Member :=
  tmod {} (tmap (fun k m => if k ≠ r ∧ m.dev = dev ∧ !m.live then {} else m) t) r fun m => { m with dev := dev, inc := inc }

/-- The incarnation that the table holds for a device (R488). -/
def Cons.heldInc (c : Cons) (dev : Nat) : Option Nat := (c.members.find? fun e => e.2.dev == dev).map fun e => e.2.inc

/-- The group-committed step that a change names is applied to the partner's shadow, and what was logged beyond it is dropped: the shadow
holds exactly that step (R501, R508). -/
def State.settleShadow (s : State) (step : Nat) : State :=
  (s.modCons fun c => { c with groupStep := max c.groupStep step }).applyShadow.modCons fun c =>
    { c with pairLog := c.pairLog.filter (fun g => decide (g.step ≤ step)), logGot := min c.logGot step }

/-- Adopt a new view (R498 step 4, R501); the coordinator knows the device and incarnation of a joiner. -/
def State.adopt (s : State) (view cause step : Nat) (ranks : List Nat) (join : Option (Nat × Nat)) : State :=
  let mine := ranks.contains s.cons.rank
  let us := min (2 ^ 32 - 1) ((s.clock.now - s.cons.lastTrigger) * cycleTime s.clk.step / usec)
  let first := ranks.headD 0
  let table := match join with
    | some j => nameMember first j.1 j.2 s.cons.members
    | none => s.cons.members
  let s1 : State := { s with
    cons := { s.cons with
      mode := if cause = 4 ∧ mine then .none_ else .member
      view := view, lastCause := cause, lastRank := first, lastDev := (tget {} table first).dev, resume := step, timeUs := us
      proposal := none, suspected := [], members := tmap (fun _ m => { m with seen := s.clock.now }) (changeMembers cause ranks table) }
    stew := { s.stew with c0 := [] } }
  let s2 := (s1.raise 0x0904 s.consNode noUnit []).settleShadow step
  let s3 :=
    if cause = 2 then s2.rewindTo step
    else if cause = 5 ∨ mine then s2
    else (s2.endJob 0x0E0).reportEnd
  ((s3.learn).paceCheck).gstepCheck

/-- The coordinator holds ACKs from more than half of the live ranks: it broadcasts COMMIT and adopts the view (R498 step 3). -/
def State.majority (s : State) : State :=
  match s.cons.proposal with
  | none => s
  | some p =>
    if s.cons.live.length < 2 * p.acks.length then (s.tellAll 4 p.view p.cause p.step p.ranks).adopt p.view p.cause p.step p.ranks p.join
    else s

/-- A change sets out (R498 step 1). -/
def State.startChange (s : State) (cause : Nat) (ranks : List Nat) (join : Option (Nat × Nat)) : State :=
  let v := (s.cons.view + 1) % 2 ^ 32
  let p : Proposal :=
    { view := v, cause := cause, ranks := ranks, step := s.cons.groupStep, join := join, acks := [s.cons.rank], at_ := s.clock.now }
  let s1 := (s.modCons fun c => { c with mode := .changing, proposal := some p, lastTrigger := s.clock.now }).tellAll 2 v cause p.step ranks
  s1.majority

/-- Whether a trigger still calls for anything: a rank that has left the view is not removed again. -/
def Cons.stillDue (c : Cons) (t : Trigger) : Bool :=
  if t.cause = 5 then t.ranks.any fun r => !(tget {} c.members r).live
  else t.ranks.any fun r => (tget {} c.members r).live

/-- A trigger reaches a rank that may run the change: one that the change in progress does not cover waits for the next (R498). -/
def State.trigger (s : State) (cause : Nat) (ranks : List Nat) (join : Option (Nat × Nat)) : State :=
  let t : Trigger := ⟨cause, ranks, join⟩
  if !s.cons.stillDue t then s
  else match s.cons.proposal with
    | some p =>
      if (p.cause = cause ∧ p.ranks = ranks) ∨ s.cons.waiting.contains t then s else s.modCons fun c => { c with waiting := c.waiting ++ [t] }
    | none => if s.cons.mode = .changing then s.modCons fun c => { c with waiting := c.waiting ++ [t] } else s.startChange cause ranks join

/-- The next change of those that wait: triggers of one cause go together, up to four ranks, but each joiner by itself (R498). -/
def State.nextChange (s : State) : State :=
  if s.cons.mode ≠ .member ∨ s.cons.proposal.isSome then s
  else match s.cons.waiting.filter s.cons.stillDue with
    | [] => s.modCons fun c => { c with waiting := [] }
    | t :: r =>
      let same := r.filter fun x => x.cause == t.cause && t.cause != 5
      let ranks := ((t :: same).flatMap fun x => x.ranks).eraseDups.take 4
      let left := r.filter fun x => !(x.cause == t.cause && t.cause != 5 && x.ranks.all fun k => ranks.contains k)
      (s.modCons fun c => { c with waiting := left }).startChange t.cause ranks t.join

/-- A trigger arrives in a packet. -/
def State.triggerIn (s : State) (cause : Nat) (ranks : List Nat) (join : Option (Nat × Nat)) : State :=
  if s.cons.inGroup && s.cons.actors.contains s.cons.rank then s.trigger cause ranks join else s

/-! ### Beacons (R495, R497) -/

/-- The live ranks next above and below, round the ring (R495). -/
def Cons.monitors (c : Cons) : List Nat :=
  let others := c.live.filter (· ≠ c.rank)
  let up := (others.filter (fun r => decide (c.rank < r))).head?.orElse fun _ => others.head?
  let down := (others.filter (fun r => decide (r < c.rank))).getLast?.orElse fun _ => others.getLast?
  (up.toList ++ down.toList).eraseDups

/-- The inline data of a BEACON. -/
def State.beaconBytes (s : State) : List (BitVec 8) :=
  leBytes 4 s.cons.view ++ leBytes 2 s.cons.rank ++
  [BitVec.ofNat 8 (b2n s.stew.active.isSome + 2 * b2n (s.cons.pair && s.zfp.pairUp)), 0#8] ++
  leBytes 8 s.job.closed ++ leBytes 8 s.cons.committed ++ leBytes 8 s.clock.tick.toNat

/-- Send a BEACON to a rank. -/
def State.beaconTo (s : State) (r : Nat) : State :=
  s.sendPacket (plainPacket 3 0 ((s.member r).dev * 2 ^ 48) s.consNode s.cons.group s.beaconBytes)

/-- R495: to the two monitors, and to the coordinator when CLOSED or COMMITTED has changed. -/
def execBeaconPeriod (s : State) : Out :=
  let c := s.cons
  if !c.inGroup || c.silentOff || !(s.member c.rank).live then .next s
  else
    let changed := s.job.closed != c.lastClosed || c.committed != c.lastCommitted
    let toCoord := match c.coord with
      | some r => if changed && r != c.rank && !c.monitors.contains r then [r] else []
      | none => []
    let s1 := s.each State.beaconTo (c.monitors ++ toCoord)
    .next ((((s1.modCons fun k => { k with lastClosed := s.job.closed, lastCommitted := c.committed }).learn).paceCheck).gstepCheck)

/-- R495, R504, R509: what a beacon reports is kept, and the coordinator counts with it. The first beacon of a rank that has joined names its
device (log entry 255). -/
def execBeacon (rx : Nat) (s : State) : Out :=
  match s.rxFor rx 3 with
  | none => .next s
  | some x =>
    let s1 := s.dropRx rx
    match s1.arrivalDrop x with
    | some s2 => .next s2
    | none =>
      let d := x.pkt.inl
      let r := leField d 4 2
      let dev := x.pkt.srcDev
      let fresh := decide ((s.member r).dev = 0xFFFF)
      if x.pkt.arg ≠ s.cons.group ∨ !s.cons.inGroup ∨ ((s.member r).dev ≠ dev ∧ !fresh) ∨ !(s.member r).live then .next s1
      else
        let closed := leField d 8 8
        let s2 := s1.modCons fun c => { c with members := tmod {} (if fresh then nameMember r dev ((c.heldInc dev).getD x.pkt.srcInc) c.members else c.members) r fun m => { m with
          closed := closed, committed := leField d 16 8, pairUp := bitOf (leField d 6 1) 1, seen := s.clock.now
          straggler := m.straggler && decide (closed ≤ c.allClosed) } }
        .next (((s2.learn).paceCheck).gstepCheck)

/-- Count a SUSPECT sent. -/
def State.countSuspect (s : State) : State :=
  let b := bump 0x3FF s.cons.suspects s.cons.ovf
  (s.modCons fun c => { c with suspects := b.1, ovf := b.2.1 }).cntOvf b.2.2 (dieWin 13 + 0x830) 20 s.consNode

/-- Send a SUSPECT about a rank to another. -/
def State.sendSuspect (s : State) (rank : Nat) (to_ : Option Nat) : State :=
  match to_ with
  | some r => s.countSuspect.sendState 1 (s.member r).dev s.cons.view 1 0 0 [rank]
  | none => s

/-- R497: SILENCE × BEACON_US after the neighbour's last beacon. -/
def execBeaconSilence (rank : Nat) (s : State) : Out :=
  let c := s.cons
  if !c.inGroup || !c.monitors.contains rank || c.suspected.contains rank then .next s
  else
    let s1 := s.advance ((s.member rank).seen + s.cyclesOf (c.silence * c.beaconUs * usec))
    .next ((s1.modCons fun k => { k with suspected := k.suspected ++ [rank], suspectAt := s1.clock.now }).sendSuspect rank (c.suspectTo rank))

/-- R497, R498. -/
def execSuspect (rx : Nat) (s : State) : Out :=
  let q := s.takeState rx 1
  match q.2 with
  | some p => .next (if (s.senderRank p).isSome then q.1.triggerIn 1 (statePacketRanks p) none else q.1)
  | none => .next q.1

/-- Whether a packet of a change comes from a rank that may run it, for the next view. -/
def State.fromActor (s : State) (p : Packet) : Bool :=
  match s.senderRank p with
  | some r => s.cons.actors.contains r && r != s.cons.rank && leField p.inl 4 4 == (s.cons.view + 1) % 2 ^ 32 && s.cons.inGroup
  | none => false

/-- R498 step 2. -/
def execPropose (rx : Nat) (s : State) : Out :=
  let q := s.takeState rx 2
  match q.2 with
  | some p =>
    if !s.fromActor p then .next q.1
    else
      let s1 : State := { q.1 with
        cons := { q.1.cons with mode := .changing, lastTrigger := if s.cons.mode = .changing then s.cons.lastTrigger else s.clock.now }
        stew := { q.1.stew with c0 := [] } }
      .next (s1.sendState 3 p.srcDev s.cons.view (leField p.inl 10 1) 0 (leField p.inl 16 8) (statePacketRanks p))
  | none => .next q.1

/-- R498 step 3. -/
def execAck (rx : Nat) (s : State) : Out :=
  let q := s.takeState rx 3
  match q.2, s.cons.proposal with
  | some p, some pr =>
    match s.senderRank p with
    | some r =>
      if (s.member r).live && leField p.inl 4 4 == s.cons.view && !pr.acks.contains r then
        .next ((q.1.modCons fun c => { c with proposal := some { pr with acks := r :: pr.acks } }).majority.nextChange)
      else .next q.1
    | none => .next q.1
  | _, _ => .next q.1

/-- R498 step 4, R501. -/
def execCommit (rx : Nat) (s : State) : Out :=
  let q := s.takeState rx 4
  match q.2 with
  | some p =>
    if s.fromActor p then
      .next ((q.1.adopt (leField p.inl 4 4) (leField p.inl 10 1) (leField p.inl 16 8) (statePacketRanks p) none).nextChange)
    else .next q.1
  | none => .next q.1

/-- R486: a notice that names this device's own incarnation. -/
def execFenced (rx : Nat) (s : State) : Out :=
  let q := s.takeState rx 5
  match q.2 with
  | some p => .next (if s.cons.inGroup ∧ leField p.inl 12 4 = s.cons.inc then q.1.fenceSelf else q.1)
  | none => .next q.1

/-- R498, R488: a JOIN of a device whose entry carries the incarnation that the table holds for it, at its old rank or at one that no
device holds. -/
def execJoin (rx : Nat) (s : State) : Out :=
  let q := s.takeState rx 6
  match q.2 with
  | some p =>
    let r := leField p.inl 8 2
    let inc := leField p.inl 12 4
    let free := (s.member r).dev = p.srcDev ∨ ((s.member r).dev = 0xFFFF ∧ r < 4096)
    .next (if free ∧ s.cons.heldInc p.srcDev = some inc then q.1.triggerIn 5 [r] (some (p.srcDev, inc)) else q.1)
  | none => .next q.1

/-- R498, R502: a member leaves, loses what it cannot replace, or has its job aborted. -/
def execLeave (rx : Nat) (s : State) : Out :=
  let q := s.takeState rx 7
  match q.2 with
  | some p =>
    match s.senderRank p with
    | some r =>
      let cause := leField p.inl 10 1
      .next (if cause = 1 ∨ cause = 4 ∨ cause = 6 then q.1.triggerIn cause [r] none else q.1)
    | none => .next q.1
  | none => .next q.1

/-- R498, R501, R502. -/
def execRewind (rx : Nat) (s : State) : Out :=
  let q := s.takeState rx 8
  match q.2 with
  | some p =>
    match s.senderRank p with
    | some r => .next (q.1.triggerIn 2 [r] none)
    | none => .next q.1
  | none => .next q.1

/-- R504, R507 step 4. -/
def execGstep (rx : Nat) (s : State) : Out :=
  let q := s.takeState rx 9
  match q.2 with
  | some p =>
    if s.cons.inGroup && (s.senderRank p).isSome && s.senderRank p == s.cons.coord && s.cons.coord != some s.cons.rank then
      .next ((q.1.modCons fun c => { c with groupStep := max c.groupStep (leField p.inl 16 8) }).applyShadow)
    else .next q.1
  | none => .next q.1

/-- R507 step 3, R491: the partner has logged a step. -/
def execStepLog (rx : Nat) (s : State) : Out :=
  let q := s.takeState rx 10
  match q.2 with
  | some p =>
    if s.partnerDev = some p.srcDev then
      .next ((q.1.modCons fun c => { c with logged := max c.logged (leField p.inl 16 8) }).recount)
    else .next q.1
  | none => .next q.1

/-- R507 step 4: the partner has written a step into the shadow. -/
def execApply (rx : Nat) (s : State) : Out :=
  let q := s.takeState rx 11
  match q.2 with
  | some p =>
    if s.partnerDev = some p.srcDev then
      .next (q.1.modCons fun c => { c with partnerApplied := max c.partnerApplied (leField p.inl 16 8) })
    else .next q.1
  | none => .next q.1

/-! ### Time limits (R499, R505, R510) -/

/-- R499: the coordinator has gathered no majority 2 ms after its PROPOSE. -/
def execProposeTimeout (s : State) : Out :=
  match s.cons.proposal with
  | some p => .next (s.advance (p.at_ + s.cyclesOf (2000 * usec))).fenceSelf
  | none => .next s

/-- R499: the SUSPECT goes again, to the next lowest live rank. -/
def execSuspectRetry (s : State) : Out :=
  match s.cons.suspected with
  | [] => .next s
  | r :: _ =>
    let s1 := s.advance (s.cons.suspectAt + s.cyclesOf (2000 * usec))
    .next (s1.sendSuspect r ((s.cons.live.filter fun x => x != r && some x != s.cons.suspectTo r).head?))

/-- R499. -/
def execSuspectTimeout (s : State) : Out :=
  if s.cons.suspected.isEmpty ∨ !s.cons.inGroup then .next s
  else .next (s.advance (s.cons.suspectAt + s.cyclesOf (4000 * usec))).fenceSelf

/-- R505. -/
def execStragglerCheck (rank : Nat) (s : State) : Out :=
  let c := s.cons
  let step := c.allClosed + 1
  let m := s.member rank
  let base := max c.learned s.job.firstTick
  if !s.isCoord || c.straggle == 0 || !m.live || decide (step ≤ (s.rankSteps rank).1) ||
      decide (s.clock.tick.toNat < base + c.deadline + c.straggle) then .next s
  else
    let b := bump 0x3FF c.stragglers c.ovf
    let s1 := if m.straggler then s else
      (s.modCons fun k => { k with stragglers := b.1, ovf := b.2.1 }).cntOvf b.2.2 (dieWin 13 + 0x830) 0 s.consNode
    let s2 := s1.modCons fun k => { k with members := tmod {} k.members rank fun x => { x with straggler := true, noted := step } }
    let s3 := if m.noted = step then s2 else s2.raise 0x0905 s.consNode noUnit []
    let partnerUp := match m.partner with
      | some p => if p = c.rank then s.zfp.pairUp else (s.member p).pairUp
      | none => false
    .next (if c.pair && partnerUp then s3.trigger 3 [rank] none else s3)

/-- R510: a request of the engine that is not answered within 100 µs is sent again. -/
def execC0RequestTimeout (n : Nat) (s : State) : Out :=
  match tfind s.stew.c0 n with
  | none => .next s
  | some r =>
    let s1 := s.advance (r.at_ + s.cyclesOf (100 * usec))
    .next ({ s1 with stew := { s1.stew with c0 := tput s1.stew.c0 n { r with at_ := s1.clock.now } } }.sendPacket r.pkt)

/-! ### Group services (R488, R492, R493) -/

/-- Whether a group descriptor has a defect of R492. -/
def groupBad (d : List (BitVec 8)) (rank dev : Nat) : Bool :=
  let n := leField d 6 2
  let us := leField d 0x10 2
  let k := leField d 0x12 1
  decide (leField d 0 4 ≠ 0x5047564B ∨ leField d 4 2 ≠ 1 ∨ n < 1 ∨ 4096 < n ∨ d.length < 64 + 8 * n) ||
  decide (leField d 0xC 4 = 0 ∨ us < 20 ∨ 1000 < us ∨ k < 3 ∨ 16 < k ∨ 2 ≤ leField d 0x13 1) ||
  decide (leField d 0x14 4 = 0 ∨ 8 ≤ leField d 0x1C 1 ∨ leField d 0x20 8 % 4096 ≠ 0 ∨ stackRange ≤ leField d 0x20 8) ||
  !zeroes d 0x1D 0x20 || !zeroes d 0x28 0x40 || decide (n ≤ rank) ||
  (List.range n).any (fun r => let p := leField d (0x42 + 8 * r) 2; decide (p ≠ 0xFFFF ∧ n ≤ p)) ||
  decide (leField d (0x40 + 8 * rank) 2 ≠ dev)

/-- The membership table of a descriptor; `skip` is a rank that is not yet live. -/
def groupMembers (d : List (BitVec 8)) (now : Nat) (skip : Option Nat) : Tab Member :=
  (List.range (leField d 6 2)).map fun r =>
    let p := leField d (0x42 + 8 * r) 2
    (r, { live := some r != skip, partner := if p = 0xFFFF then none else some p, dev := leField d (0x40 + 8 * r) 2
          inc := leField d (0x44 + 8 * r) 4, seen := now })

/-- R493, R488: the device becomes a member; a fenced one joins as a spare member, by a view change. -/
def execGroupSet (m : Mbx) (desc : Option (List (BitVec 8))) (s : State) : Out :=
  if !(m.val < 8 && s.asked m 0x10) then .next s
  else if s.panel.mode ≠ .ready then .next (s.ackBox m 0x0CD)
  else match desc with
    | none => .next (s.ackBox m 0x0C5)
    | some d =>
      let rank := bitsOf ((s.box m).word 2) 0 12
      if groupBad d rank s.zfp.devNum then .next (s.ackBox m 0x0E2)
      else
        let again := decide (s.cons.mode = .fenced)
        let c : Cons := { s.cons with
          mode := .member, group := leField d 8 4, view := leField d 0xC 4, inc := leField d (0x44 + 8 * rank) 4, rank := rank
          pair := bitOf (leField d 0x13 1) 0, beaconUs := leField d 0x10 2, silence := leField d 0x12 1, deadline := leField d 0x14 4
          straggle := leField d 0x18 4, takeover := leField d 0x1C 1, shadowBase := leField d 0x20 8
          members := groupMembers d s.clock.now (if again then some rank else none), spare := again, proposal := none, waiting := []
          suspected := [], groupStep := 0, allClosed := 0, learned := s.clock.tick.toNat, paceOk := true, shadowed := false, logged := 0, logSent := 0, logGot := 0, applied := 0, pairLog := [], lastClosed := 0, lastCommitted := 0 }
        let s1 := ({ s with cons := c }).ackBox m 0
        .next (match again, c.coord with
          | true, some r => s1.sendState 6 (s1.member r).dev c.view 5 c.inc 0 [rank]
          | _, _ => s1)

/-- R493: LEAVE goes to the coordinator; the device leaves at the COMMIT of the change. -/
def execGroupLeave (m : Mbx) (s : State) : Out :=
  if !(m.val < 8 && s.asked m 0x11) then .next s
  else if s.panel.mode ≠ .ready then .next (s.ackBox m 0x0CD)
  else .next ((if s.cons.inGroup then s.tellCoord 7 4 0 [s.cons.rank] else s).ackBox m 0)

end Sys2Proof.Machine
end

