-- ==== Sys2Proof/Machine/Secure.lean ====
section
/-! DEFINITION. The security services of MB0 to MB7 and the owner extensions (17). Signatures, key hashes and measurements are FIPS
computations that come in as operands; what the SEC engine itself computes is a free value (log entries 14 and 15). -/

namespace Sys2Proof.Machine

open Sys2Proof

/-- Change the SEC block. -/
def State.modSec (s : State) (f : Sec → Sec) : State := { s with sec := f s.sec }

/-- The request of a service that stands before firmware on one of MB0 to MB7 (R601, R603). -/
def State.secAsked (s : State) (m service : Nat) : Bool := decide (m < 8) && s.asked m service

/-- OWNER_SET (R594). -/
def Sec.ownerSet (c : Sec) : Bool := c.bankA.owner.isSome

/-- An anti-rollback counter: the higher of the banks (R595). -/
def Sec.svnOf (c : Sec) (type : Nat) : Nat := max (tget 0 c.bankA.svn type) (tget 0 c.bankB.svn type)

/-- KEY_REVOKED: a bit revoked in either bank (R595). -/
def Sec.revoked (c : Sec) : BitVec 4 := c.bankA.revoked ||| c.bankB.revoked

/-! ### Values that the SEC engine computes -/

/-- DEVICE_ID (R609). -/
def deviceId : List (BitVec 8) := (List.range 16).map Config.fuseByte

/-- The identity certificate (R609): DEVICE_ID, the public key, the part code and Keanov's signature. -/
def certificate : List (BitVec 8) :=
  (List.range 48).map Config.fuseByte ++ leBytes 2 0x0144 ++ (List.range 16224).map fun i => Config.fuseByte (48 + i)

/-- SHA-384 of bytes (FIPS 180), as a free value of those bytes. -/
def sha384 (bs : List (BitVec 8)) : List (BitVec 8) := (List.range 48).map fun i => Config.secretByte (4 * leNat bs + 1) i

/-- The device's deterministic signature over bytes (FIPS 205), as a free value of those bytes. -/
def signature (bs : List (BitVec 8)) : List (BitVec 8) := (List.range 17088).map fun i => Config.secretByte (4 * leNat bs + 3) i

/-- The `n`th challenge, as a free value (R612). -/
def challengeBytes (n : Nat) : List (BitVec 8) := (List.range 16).map fun i => Config.secretByte (4 * n + 2) i

/-- The 32-bit little-endian words of bytes. -/
def wordsLe (bs : List (BitVec 8)) : Nat → List Nat
  | 0 => []
  | n + 1 => leNat (bs.take 4) :: wordsLe (bs.drop 4) n

/-- Bytes of consecutive data words of a mailbox. -/
def MbxRec.bytes (b : MbxRec) (w n : Nat) : List (BitVec 8) := (List.range n).flatMap fun i => leBytes 4 (b.word (w + i))

/-! ### SEC registers (17) -/

/-- SEC_STAT. -/
def Sec.stat (c : Sec) : Nat :=
  c.life % 4 * 2 ^ 30 + b2n c.ownerSet * 2 ^ 29 + b2n c.debug * 2 ^ 28 + b2n c.scan * 2 ^ 27 + b2n c.rootA * 2 ^ 26 +
  b2n c.rootB * 2 ^ 25 + c.revoked.toNat * 2 ^ 20

/-- SEC_SVN. -/
def Sec.svnReg (c : Sec) : Nat :=
  c.svnOf 4 % 128 * 2 ^ 24 + c.svnOf 3 % 128 * 2 ^ 16 + c.svnOf 2 % 128 * 2 ^ 8 + c.svnOf 1 % 128

/-- SEC_EXT. -/
def Sec.extReg (c : Sec) : Nat := c.extFault.toNat * 16 + (List.range 4).foldl (fun n i => n + b2n (tmem c.exts i) * 2 ^ i) 0

/-! ### Signed images (R596, R597) -/

/-- The image that a header describes, with its measurement. -/
def parseFw (h digest : List (BitVec 8)) : FwImage :=
  { type := leField h 6 1, flags := leField h 7 1, svn := leField h 8 2, key := leField h 0x0A 1, length := leField h 0x0C 4,
    version := (h.drop 0x10).take 16, build := leField h 0x20 4, digest := digest }

/-- Whether a header field is out of its range (R596): `limit` bounds LENGTH. -/
def fwFormBad (h : List (BitVec 8)) (limit : Nat) : Bool :=
  let i := parseFw h []
  decide (h.length ≠ 128) || decide (leField h 0 4 ≠ 0x5746564B) || decide (leField h 4 2 ≠ 1) || decide (3 < i.flags) || decide (64 < i.svn) ||
  decide (3 < i.key) || decide (limit < i.length) || !zeroes h 0x0B 0x0C || !zeroes h 0x24 0x40 || !zeroes h 0x70 0x80

/-- Whether another of FW_UPDATE, EXT_LOAD, OWNER_ENROLL and DEBUG_UNLOCK is running: one that was rung earlier (R604). -/
def State.secBusy (s : State) (m : Nat) : Bool :=
  (List.range 8).any fun k => decide (k ≠ m) && decide ((s.box k).rung < (s.box m).rung) &&
    (s.asked k 0x32 || s.asked k 0x33 || s.asked k 0x35 || s.asked k 0x37)

/-- Whether an unlock keeps the device from signing (R614). -/
def Sec.scanned (c : Sec) : Bool := c.debug || c.scan

/-- The gateway whose panel steward serves. -/
def State.stewardGw7 (s : State) : Bool := s.stew.active = some true

/-- Write bytes to host memory for a mailbox's service in transfers of up to 256 bytes; the answer follows the last. A tail is filled
with zeros to a multiple of 4 bytes (R438). -/
def State.mbxWrite (s : State) (m addr : Nat) (bytes : List (BitVec 8)) : Nat → State
  | 0 => s
  | n + 1 =>
    if bytes.isEmpty then s
    else
      let c := bytes.take 256
      let pad := c ++ List.replicate ((4 - c.length % 4) % 4) 0#8
      (s.hostXfer s.stewardGw7 (.mbx m) addr pad.length (some pad)).mbxWrite m (addr + 256) (bytes.drop 256) n

/-- A service writes its response words and its bytes; it answers once the host has taken them. -/
def State.deliver (s : State) (m : Nat) (words : List Nat) (addr : Nat) (bytes : List (BitVec 8)) : State :=
  (s.modBox m fun b => { b with data := putWordsFrom b.data 0 words }).mbxWrite m addr bytes (bytes.length / 256 + 1)

/-- Address in two data words, low word first (R603). -/
def MbxRec.addr (b : MbxRec) (w : Nat) : Nat := b.word w + 2 ^ 32 * b.word (w + 1)

/-- R603: DEVICE_ID in the data words, and the certificate in host memory. -/
def execIdent (m : Mbx) (s : State) : Out :=
  if !s.secAsked m 0x30 then .next s
  else if s.sec.scanned then .next (s.ackBox m 0x125)
  else .next (s.deliver m (wordsLe deviceId 4) ((s.box m).addr 0) certificate)

/-! ### Attestation (R610, R611) -/

/-- A measurement entry. -/
def measureEntry (slot : Nat) (i : FwImage) : List (BitVec 8) :=
  leBytes 1 i.type ++ leBytes 1 slot ++ leBytes 2 i.svn ++ leBytes 4 i.length ++ List.replicate 8 0#8 ++
  (i.digest ++ List.replicate 48 0#8).take 48

/-- The entries: each steward image type in force, then each loaded extension. -/
def Sec.entries (c : Sec) : List (List (BitVec 8)) :=
  (c.inForce.filter fun e => decide (1 ≤ e.1 ∧ e.1 ≤ 4)).map (fun e => measureEntry 0 e.2.2) ++
  c.exts.map fun e => measureEntry e.1 e.2

/-- The map record in force. -/
def Panel.recordNow (p : Panel) : Option MapRecord := if p.inForceB then p.copyB else p.copyA

/-- The report but for its signature. -/
def State.report (s : State) (nonce : List (BitVec 8)) : List (BitVec 8) :=
  let es := s.sec.entries
  leBytes 4 0x5441564B ++ leBytes 2 1 ++ leBytes 2 es.length ++ nonce ++ deviceId ++ leBytes 4 s.panel.mapGen.toNat ++ leBytes 2 0x0144 ++
  [Config.stepping] ++ leBytes 1 (s.sec.stat / 2 ^ 24) ++ leBytes 8 s.clock.tick.toNat ++ leBytes 4 s.sec.svnReg ++ leBytes 4 0 ++
  sha384 ((s.panel.recordNow.map MapRecord.bytes).getD []) ++ List.replicate 64 0#8 ++ es.flatten

/-- R611: the report is signed and written to host memory. -/
def execAttest (m : Mbx) (s : State) : Out :=
  if !s.secAsked m 0x31 then .next s
  else if s.sec.scanned then .next (s.ackBox m 0x125)
  else
    let r := s.report ((s.box m).bytes 0 8)
    let all := r ++ signature r
    .next (s.deliver m [all.length] ((s.box m).addr 8) all)

/-! ### Updates, extensions and enrolment (R604 to R608) -/

/-- The code of a signed image, the first of R604's order that applies: `types` are the types that the service takes. -/
def Sec.imageCode (c : Sec) (ext : Bool) (total : Option Nat) (header : Option (List (BitVec 8))) (whole keyOk sigOk : Bool) : Nat :=
  match header with
  | none => 0x0C5
  | some h =>
    let i := parseFw h []
    let badType := if ext then decide (i.type ≠ 6) else decide (i.type < 1 ∨ 4 < i.type)
    if fwFormBad h (if ext then 262144 else 4194304) || badType || decide (ext ∧ i.key ≠ 0) ||
        total.any (fun n => n != 128 + i.length + 16224) then 0x122
    else if !ext ∧ i.svn < c.svnOf i.type then 0x121
    else if !keyOk || (!ext && c.revoked.getLsbD i.key) then 0x120
    else if !whole then 0x0C5
    else if !sigOk then 0x120
    else 0

/-- The slot of a type that does not hold the image in force (R605). -/
def Sec.freeSlot (c : Sec) (type : Nat) : Nat :=
  match tfind c.inForce type with
  | some (k, _) => 1 - k
  | none => 0

/-- R605: a verified image goes into the free slot of its type, on side A and then on side B. -/
def execFwUpdate (m : Mbx) (header : Option (List (BitVec 8))) (whole : Bool) (digest : List (BitVec 8)) (keyOk sigOk : Bool) (s : State) : Out :=
  if !s.secAsked m 0x32 then .next s
  else
    let code := if s.secBusy m then 0x123 else s.sec.imageCode false (some ((s.box m).word 2)) header whole keyOk sigOk
    match header with
    | none => .next (s.ackBox m code)
    | some h =>
      if code ≠ 0 then .next (s.ackBox m code)
      else
        let i := parseFw h digest
        let k := s.sec.freeSlot i.type
        .next ((s.modSec fun c => { c with images := tput (tput c.images (2 * i.type + k) i) (16 + 2 * i.type + k) i }).ackBox m 0)

/-- R607: a verified owner extension starts on both panel stewards in its slot. -/
def execExtLoad (m : Mbx) (header : Option (List (BitVec 8))) (whole : Bool) (digest : List (BitVec 8)) (keyOk sigOk : Bool) (s : State) : Out :=
  if !s.secAsked m 0x33 then .next s
  else
    let code := if s.secBusy m then 0x123 else if !s.sec.ownerSet then 0x126
      else s.sec.imageCode true none header whole keyOk sigOk
    match header with
    | none => .next (s.ackBox m code)
    | some h =>
      if code ≠ 0 then .next (s.ackBox m code)
      else
        let k := (s.box m).word 2 % 4
        .next ((s.modSec fun c => { c with
          exts := tput c.exts k (parseFw h digest)
          extFault := c.extFault &&& ~~~(1#4 <<< k) }).ackBox m 0)

/-- R603: the extension in a slot stops. -/
def execExtUnload (m : Mbx) (s : State) : Out :=
  if !s.secAsked m 0x34 then .next s
  else .next ((s.modSec fun c => { c with exts := tdel c.exts ((s.box m).word 0 % 4) }).ackBox m 0)

/-- R603, R606: the owner's key is blown into both banks, once. -/
def execOwnerEnroll (m : Mbx) (s : State) : Out :=
  if !s.secAsked m 0x35 then .next s
  else if s.secBusy m then .next (s.ackBox m 0x123)
  else if s.sec.ownerSet then .next (s.ackBox m 0x124)
  else
    let key := (s.box m).bytes 0 12
    .next ((s.modSec fun c => { c with
      bankA := { c.bankA with owner := some key }, bankB := { c.bankB with owner := some key } }).ackBox m 0)

/-- R608: an extension that breaks its limits is unloaded. -/
def execExtFault (slot : Fin 4) (s : State) : Out :=
  if !tmem s.sec.exts slot then .next s
  else .next ((s.modSec fun c => { c with
    exts := tdel c.exts slot, extFault := c.extFault ||| (1#4 <<< slot.val) }).raise 0x0D02 panelNode noUnit [(1, slot)])

/-! ### Debug (R612 to R614) -/

/-- R612: a new challenge replaces the one outstanding. -/
def execDebugChallenge (m : Mbx) (s : State) : Out :=
  if !s.secAsked m 0x36 then .next s
  else if s.sec.scanned then .next (s.ackBox m 0x125)
  else
    let c := challengeBytes s.sec.challenges
    .next ((s.modSec fun k => { k with challenge := some c, challenges := k.challenges + 1 }).replyBox m (wordsLe c 4))

/-- The code of a debug token against a challenge, the first of R604's order that applies (R612). -/
def Sec.tokenCode (c : Sec) (challenge : List (BitVec 8)) (token : Option (List (BitVec 8))) (keyOk sigOk : Bool) : Nat :=
  match token with
  | none => 0x0C5
  | some t =>
    let mode := leField t 36 1
    if t.length ≠ 128 ∨ leField t 0 4 ≠ 0x4754564B ∨ (t.drop 4).take 16 ≠ deviceId ∨ (t.drop 20).take 16 ≠ challenge ∨
        (mode ≠ 1 ∧ mode ≠ 2) ∨ 3 < leField t 37 1 ∨ !zeroes t 38 80 then 0x122
    else if !keyOk || c.revoked.getLsbD (leField t 37 1) || !sigOk then 0x120
    else 0

/-- R613: the unlock, in its order; the panel stays in TEST until the next cold start. -/
def State.unlock (s : State) (scan : Bool) : State :=
  (s.modPanel fun p => { p with mode := .test }).modSec fun c => { c with
    challenge := none, seedLocked := true, debug := c.debug || !scan, scan := c.scan || scan }

/-- R613. -/
def execDebugUnlock (m : Mbx) (token : Option (List (BitVec 8))) (keyOk sigOk : Bool) (s : State) : Out :=
  if !s.secAsked m 0x37 then .next s
  else if s.panel.mode ≠ .ready then .next (s.ackBox m 0x0CD)
  else if s.secBusy m then .next (s.ackBox m 0x123)
  else match s.sec.challenge with
    | none => .next (s.ackBox m 0x124)
    | some c =>
      let code := s.sec.tokenCode c token keyOk sigOk
      if code ≠ 0 then .next (s.ackBox m code)
      else .next ((s.unlock (leField (token.getD []) 36 1 == 2)).ackBox m 0)

end Sys2Proof.Machine
end

