-- ==== Sys2Proof/Machine/Power.lean ====
section
/-! DEFINITION. Power (14): the input, the power cap, droop, forecasts, controllers, short circuits and the migration away from a derated
erg. Sensor readings and qualified voltage levels come in as operands. -/

namespace Sys2Proof.Machine

open Sys2Proof

/-! ### The input (R511, R648, R650) -/

/-- The level of an input voltage in units of 10 mV (R511). -/
def inputLevel (v : Nat) : InputLevel :=
  if 6800 < v then .high else if 6400 < v then .beyond else if 5400 ≤ v then .normal else if 5000 ≤ v then .beyond else .under

/-- What a NAND channel's media keep without power: its blocks and its block tables. -/
def ChanRec.keep (c : ChanRec) : ChanRec :=
  { qlc := c.qlc, factory := c.factory, grown := c.grown, maxErase := c.maxErase, minErase := c.minErase, endurance := c.endurance, blocks := c.blocks }

/-- What the store keeps without power (R415, R426, R432). -/
def Nvm.keep (n : Nvm) : Nvm :=
  { chans := tmap (fun _ c => c.keep) n.chans, areaA := n.areaA, areaB := n.areaB, cseq := n.cseq, slots := n.slots, images := n.images
    imageNow := n.imageNow, sys := n.sys, sysHalf := n.sysHalf, stripes := n.stripes, slotBytes := n.slotBytes }

/-- Every stage 1 stops switching: what is left is what lies on the media and in fuses (R511, R347). -/
def State.powerOff (s : State) : State :=
  { State.reset with
    panel := { ({} : Panel) with
      copyA := s.panel.copyA, copyB := s.panel.copyB, inForceB := s.panel.inForceB, away := s.panel.away, before := s.panel.before }
    nvm := s.nvm.keep
    sec := { ({} : Sec) with
      bankA := s.sec.bankA, bankB := s.sec.bankB, life := s.sec.life, images := s.sec.images, challenges := s.sec.challenges }
    pwr := { ({} : Pwr) with vin := s.pwr.vin, level := s.pwr.level, stopped := true }
    pending := s.pending }

/-- R511, R639: the device acts by the level; above 75 V the spec gives it no behaviour. -/
def execInputVoltageEvent (volts : BitVec 16) (s : State) : Out :=
  let v := volts.toNat
  let l := inputLevel v
  if 7500 < v then .fault .absoluteMaximum
  else
    let s1 := s.modPwr fun p => { p with vin := v, level := l, told := p.told && l != .normal }
    let s2 : State := if l = .normal then s1 else { s1 with mc := { s1.mc with tripLow := false } }
    match l with
    | .high => .next s2.powerOff
    | .under => .next (if s.pwr.stopped then s2 else (s2.endJob 0x0F2).modPwr fun p => { p with stopping := true })
    | .beyond =>
      if s.pwr.stopped then .next s2
      else
        let s3 := s2.modPwr fun p => { p with excursion := true, told := true }
        .next (if s.pwr.told then s3 else s3.raise 0x0A01 panelNode noUnit [])
    | _ => .next s2

/-- R511. -/
def execStage1Stop (s : State) : Out := .next (if s.pwr.stopping then s.powerOff else s)

/-- R511: the step limit lifts, or the stopped device may start again from cold start. -/
def execInputRecovery (s : State) : Out :=
  .next (if s.pwr.level = .normal then s.modPwr fun p => { p with excursion := false, stopped := false } else s)

/-- PANEL_READY is released (R650); below 54 V both outputs are high-impedance. -/
def State.panelReadyPin (s : State) : Bool := s.panel.mode == .ready || s.panel.mode == .running

/-! ### The power cap (R513) -/

/-- R513: a broken limit lowers the step by one, once a lower step is not already on its way; the step rises again by one after each second in which
the 1 s average has stayed below 90 % of the cap (100,000 samples). -/
def execPowerSample (avg1s avg10ms max10ms iin : BitVec 16) (mj : Nat) (s : State) : Out :=
  let s1 := s.modPwr fun p => { p with
    avg1s := avg1s.toNat, avg10ms := max10ms.toNat, iin := iin.toNat, energy := (p.energy + mj) % 2 ^ 64 }
  if s.pwr.cap < avg1s.toNat ∨ 16500 < avg10ms.toNat then
    let s2 := s1.modPwr fun p => { p with capLow := 0 }
    if s.clk.step < s.stepWanted then .next s2
    else .next ((s2.modPwr fun p => { p with capStep := min 5 (s.clk.step + 1) }).raise 0x0A02 panelNode noUnit [])
  else if 10 * avg1s.toNat < 9 * s.pwr.cap then
    let n := s.pwr.capLow + 1
    .next (s1.modPwr fun p => if n < 100000 then { p with capLow := n } else { p with capLow := 0, capStep := p.capStep - 1 })
  else .next (s1.modPwr fun p => { p with capLow := 0 })

/-! ### Droop, forecasts and anomalies (R520 to R525) -/

/-- Offset of an erg's register in the PWR block. -/
def ergReg (e o : Nat) : Nat := 0x201000 + 0x40 * e + o

/-- R520: the trip is counted and raised, and the job resumes from its last step record. -/
def execDroopTrip (site : Site) (sensor : Fin 64) (s : State) : Out :=
  let e := ergOf site
  let r := s.ergPwr e
  let b := bump 0xFF r.trips r.droopOvf
  let s1 := (s.modErg e fun x => { x with trips := b.1, droopOvf := b.2.1 }).cntOvf b.2.2 (ergReg e 0x0C) 8 panelNode
  .next ((s1.raise 0x0A03 (nodeAt site 0) e [(1, site), (1, sensor)]).resumeJob ST_CORE_HW)

/-- Put a hint behind every one that takes effect no later: of two for one cycle the one issued last stands (R184). -/
def addHint (h : Nat × Nat × Nat) : List (Nat × Nat × Nat) → List (Nat × Nat × Nat)
  | [] => [h]
  | g :: gs => if g.2.1 ≤ h.2.1 then g :: addHint h gs else h :: g :: gs

/-- The hints in the order in which they take effect. -/
def State.hintsInOrder (s : State) : List (Nat × Nat × Nat) := s.hints.foldl (fun l h => addHint h l) []

/-- The level of a logical core that stands at a cycle: the last hint to take effect by then, 15 without one (R184, R185). -/
def State.levelAt (s : State) (l t : Nat) : Nat :=
  match (s.hintsInOrder.filter fun h => h.1 == l && decide (h.2.1 ≤ t)).getLast? with
  | some h => h.2.2
  | none => tget 15 s.loadLevel l

/-- The announced levels of a site's cores, summed, at a cycle: a core that carries no logical core counts at 15 (R521). -/
def State.siteLevels (s : State) (site t : Nat) : Nat :=
  match s.ldAt site with
  | some ld => sumOf ((List.range 96).map fun k => s.levelAt (96 * ld + k) t) + 8 * 15
  | none => 104 * 15

/-- The forecast of an erg's core-rail current in a window that begins at a cycle, in mA (R521). -/
def State.forecast (s : State) (e t : Nat) : Nat :=
  let sites := (ergSites e).filter fun x => !isGw x && s.roleOf x != .dark
  sites.length * 104 * Config.baseCurrent s.clk.step + sumOf (sites.map fun x => s.siteLevels x t) * Config.tensorCurrent s.clk.step

/-- Hints of an erg whose cycle has come take effect (R184). -/
def State.takeHints (s : State) (e t : Nat) : State :=
  let due (h : Nat × Nat × Nat) : Bool := decide (h.2.1 ≤ t) && (s.siteOfLd (lDie h.1)).any fun x => ergOf x == e
  { s with
    loadLevel := (s.hintsInOrder.filter due).foldl (fun t h => tput t h.1 h.2.2) s.loadLevel
    hints := s.hints.filter fun h => !due h }

/-- R523: a window whose current exceeds its forecast by more than 25 % of the erg's design current of 1,250 A is counted, and raised once per erg and job. -/
def State.unhinted (s : State) (e current : Nat) : State :=
  let r := s.ergPwr e
  if 1000 * current ≤ r.windows.headD 0 + 312500 then s
  else
    let b := bump 0x7FFF r.unhinted r.droopOvf
    let s1 := (s.modErg e fun x => { x with unhinted := b.1, droopOvf := b.2.1 }).cntOvf b.2.2 (ergReg e 0x0C) 16 panelNode
    if r.noted || !s.job.running then s1 else (s1.modErg e fun x => { x with noted := true }).raise 0x0A04 panelNode e []

/-- R524, R525: a sensor that droops beyond 1.5 times its expectation plus 5 mV in 16 windows in a row is an anomaly; a site's third has it replaced. -/
def State.anomaly (s : State) (e : Nat) (d : Droop) : State :=
  let key := 64 * d.site + d.sensor
  let n := if 2 * d.droop > 3 * d.expected + 10000 then tget 0 (s.ergPwr e).runs key + 1 else 0
  let s1 := s.modErg e fun x => { x with runs := mset 0 x.runs key (if n < 16 then n else 0) }
  if n < 16 then s1
  else
    let b := bump 0x7FFF (s1.ergPwr e).anomalies (s1.ergPwr e).anomOvf
    let s2 := (s1.modErg e fun x => { x with anomalies := b.1, anomOvf := b.2.1, lastSite := d.site, lastSensor := d.sensor }).cntOvf b.2.2
      (ergReg e 0x10) 16 panelNode
    let k := tget 0 s.pwr.anoms d.site + 1
    (s2.modPwr fun p => { p with
      anoms := tput p.anoms d.site k, replace := if k = 3 then p.replace ++ [d.site] else p.replace }).raise 0x0A05 (nodeAt d.site 0) e []

/-- R521 to R524: the window that ends is judged, the forecast of the next 8 windows is made, and the phases and the feed-forward offset of the next one are
set. A site with 3 anomalies is replaced at once when no job runs (R525). -/
def execForecastWindow (erg : Erg) (current vmin vbus iin : Nat) (droops : List Droop) (s : State) : Out :=
  let e := erg.val
  let s1 := s.unhinted e current
  let s2 := if 4 * current ≤ 1250 then s1
    else (droops.filter fun d => d.site < 144 && ergOf d.site == e && decide (d.sensor < 64)).foldl (fun s d => s.anomaly e d) s1
  let w := 64 * (s.clock.now / 64 + 1)
  let s3 := s2.takeHints e w
  let ws := (List.range 8).map fun k => s3.forecast e (w + 64 * k)
  let s4 := s3.modErg e fun x => { x with
    iout := current, vmin := vmin, vbus := vbus, iin := iin, windows := ws, limit := 360 * x.ctrls
    phases := min (8 * x.ctrls) (Config.phasesFor (ws.headD 0)), feed := Config.feedForward (x.windows.headD 0) (ws.headD 0) }
  .next (if s4.job.live || s4.pwr.replace.isEmpty then s4 else s4.anomSubst)

/-! ### Controllers and shorts (R526 to R532) -/

/-- R526, R528: the erg derates and the panel's floor drops by one step, or, with a second controller lost, the erg goes dark. -/
def execControllerFail (erg : Erg) (ctrl : Fin 4) (s : State) : Out :=
  let e := erg.val
  let r := s.ergPwr e
  if (r.mode ≠ .up ∧ r.mode ≠ .derated) ∨ !r.ctrlOk.getLsbD ctrl then .next s
  else
    let s1 := s.modErg e fun x => { x with ctrlOk := x.ctrlOk &&& ~~~(1#4 <<< ctrl.val) }
    if (s1.ergPwr e).ctrls ≤ 2 then .next (s1.ergDark e false)
    else
      let first := s.pwr.derated.isEmpty
      let drop := if s.clk.pending ∧ s.clk.step < s.clk.next then s.clk.next else min 5 (s.clk.step + 1)
      .next (((s1.modErg e fun x => { x with mode := .derated, limit := 360 * x.ctrls }).modPwr fun p => { p with
        floor := if first then drop else p.floor, migrate := p.migrate ++ [e] }).raise 0x0A06 panelNode e [])

/-- R527: while no job runs. -/
def execDeratedMigration (s : State) : Out :=
  .next (if s.startBusy ∨ s.pwr.migrate.isEmpty then s else s.migrate)

/-- R529, R532. -/
def execErgShort (erg : Erg) (s : State) : Out :=
  let m := (s.ergPwr erg).mode
  .next (if m = .dark ∨ m = .shorted then s else s.ergDark erg true)

end Sys2Proof.Machine
end

