-- ==== Sys2Proof/Machine/Thermal.lean ====
section
/-! DEFINITION. Clocks, frequency steps and heat (15): reference inputs, PLLs and the forwarded clock; step changes; junctions, parking and
barchan rotation; the cold plate. Readings and forecasts come in as operands. -/

namespace Sys2Proof.Machine

open Sys2Proof

/-! ### Reference inputs and PLLs (R535, R536) -/

/-- R535: a lost input. -/
def execRefclkLoss (b : Bool) (s : State) : Out :=
  let c := s.clk
  let good := if b then c.bOk else c.aOk
  let other := if b then c.aOk else c.bOk
  if !good then .next s
  else
    let s1 := s.modClk fun c => { c with aOk := c.aOk && b, bOk := c.bOk && !b }
    let mine := c.sel = (if b then RefSel.refB else RefSel.refA)
    if !other then .next ((s1.modClk fun c => { c with sel := .holdover, holdAt := s.clock.now }).raise 0x0B01 panelNode noUnit [])
    else if mine then .next ((s1.modClk fun c => { c with sel := if b then .refA else .refB }).raise 0x0B01 panelNode noUnit [])
    else .next s1

/-- R535: an input that has been good for 100 ms. -/
def execRefclkReturn (b : Bool) (s : State) : Out :=
  .next (s.modClk fun c =>
    let a := c.aOk || !b
    { c with aOk := a, bOk := c.bOk || b, sel := if a then .refA else .refB })

/-- R536: a gateway whose PLL loses lock forwards no clock, and the dies that took theirs from it switch. -/
def execPllLockLoss (g : Gateway) (s : State) : Out :=
  if s.clk.pllOut.contains g.val ∨ !s.routerUp (gwSite g) then .next s
  else .next (((s.modClk fun c => { c with pllOut := g.val :: c.pllOut }).clockGone [gwSite g]).raise 0x0B02 (nodeAt (gwSite g) 1) (gwSite g) [])

/-- R536: the PLL relocks, and the gateway's links can deliver clock again. -/
def execPllRelock (g : Gateway) (s : State) : Out :=
  if !s.clk.pllOut.contains g.val then .next s
  else
    let s1 := s.modClk fun c => { c with pllOut := c.pllOut.filter (· ≠ g.val) }
    .next (s1.each (fun s k => match neighbour (gwSite g) k with
      | some n => s.modDieClk n fun d => { d with link := d.link ||| (1#4 <<< facing k) }
      | none => s) [0, 1, 2, 3])

/-! ### The forwarded clock (R537 to R541) -/

/-- R538, R540: the compute domain switches to its secondary; with both lost the die is declared dead, and with no link that delivers clock its positions and
attach points leave service as well. -/
def execPrimaryClockLoss (site : Site) (secGood : Bool) (links : BitVec 4) (s : State) : Out :=
  let d := s.dieClk site
  if isGw site ∨ d.st = .off ∨ d.st = .lost then .next s
  else
    let s1 := s.modDieClk site fun d => { d with link := links }
    if secGood ∧ d.sec ≠ d.pri ∧ d.st = .primary then
      .next ((s1.modDieClk site fun d => { d with st := .secondary }).modClk fun c => { c with relayDue := true })
    else
      let s2 := s1.modDieClk site fun d => { d with st := .lost }
      let dark := decide (links = 0#4)
      .next ((if dark then s2.clockGone [site.val] else s2).failDie site dark ST_CORE_HW)

/-- The sites from a site up its chain of primaries to a gateway, none when 16 hops reach none. -/
def rootPath (pri : Nat → Option Nat) (site : Nat) : Nat → Option (List Nat)
  | 0 => none
  | n + 1 =>
    if isGw site then some [site]
    else match pri site with
      | none => none
      | some k => match neighbour site k with
        | none => none
        | some x => (rootPath pri x n).map fun r => site :: r

/-- Whether the link of a site in a direction delivers clock. -/
def State.fed (s : State) (site dir : Nat) : Bool := (s.dieClk site).link.getLsbD dir

/-- Whether a plan gives a die's entry what R537 asks for, over links that deliver clock: disjoint paths to roots of at most 16 hops. -/
def planGood (fed : Nat → Nat → Bool) (plan : List (Nat × Nat × Option Nat)) (e : Nat × Nat × Option Nat) : Bool :=
  let pri (x : Nat) : Option Nat := ((plan.find? fun e => e.1 == x).map fun e => e.2.1).filter (fed x)
  let path (k : Nat) : Option (List Nat) := if fed e.1 k then (neighbour e.1 k).bind fun x => rootPath pri x 16 else none
  match path e.2.1, e.2.2 with
  | some _, none => true
  | some a, some k => match path k with
    | some b => a.all fun x => !b.contains x && x != e.1
    | none => false
  | none, _ => false

/-- Take a plan into force. -/
def State.layPlan (s : State) (plan : List (Nat × Nat × Option Nat)) : State :=
  (plan.foldl (fun s e => s.modDieClk e.1 fun d =>
    if d.st = .lost then d else { d with st := .primary, pri := e.2.1, sec := e.2.2.getD e.2.1 }) s).modClk fun c => { c with relayDue := false }

/-- A plan with the present neighbours of every die that takes clock and that it leaves out. -/
def State.wholePlan (s : State) (plan : List (Nat × Nat × Option Nat)) : List (Nat × Nat × Option Nat) :=
  plan ++ (s.clk.die.filter fun e => (e.2.st == .primary || e.2.st == .secondary) && !isGw e.1 && !plan.any fun p => p.1 == e.1).map fun e =>
    (e.1, e.2.pri, if e.2.sec = e.2.pri then none else some e.2.sec)

/-- Whether a plan names compute sites alone and, with it, every die that takes clock has what R537 asks for. -/
def State.planFits (s : State) (plan : List (Nat × Nat × Option Nat)) : Bool :=
  let whole := s.wholePlan plan
  plan.all (fun e => decide (e.1 < 144) && !isGw e.1) && whole.all (planGood s.fed whole)

/-- R537, R539, R542: firmware lays a plan; it lays none that breaks R537. -/
def execClockPlanRelay (plan : List (Nat × Nat × Option Nat)) (s : State) : Out :=
  if !s.planFits plan then .next s
  else
    let s1 := s.layPlan plan
    .next (if s.clk.relayDue then s1.raise 0x0B02 panelNode noUnit [] else s1)

/-- R541: an always-on domain whose clock returns: its positions return at the next route flip, while the die stays fenced. A gateway that is out
stays out until a cold start (R57). -/
def execClockReturn (site : Site) (links : BitVec 4) (s : State) : Out :=
  if links = 0#4 then .next s
  else
    let s1 := s.modDieClk site fun d => { d with link := links }
    .next (if isGw site ∨ s.routerUp site ∨ s.roleOf site = .dark then s1
      else s1.modClk fun c => { c with rejoin := site.val :: c.rejoin.filter (· ≠ site.val) })

/-! ### Frequency steps (R543 to R546) -/

/-- R543: host software's limit; other values are ignored. -/
def execStepRequest (value : BitVec 32) (s : State) : Out :=
  let r := bitsOf value.toNat 16 4
  .next (if r ≤ 5 then s.modClk fun c => { c with req := r } else s)

/-- The first boundary that meets the lead of R545 for a change to a step, as a tick: the present tick runs to its end, and later ones at their shortest. -/
def State.leadTick (s : State) (step : Nat) : Nat :=
  let ct := cycleTime s.clk.step
  let len := if s.job.running then s.clock.hdr.len else 1024
  let rise := if step < s.clk.step then setpointOf step - setpointOf s.clk.step else 0
  let need := max (2 * len) ((usec * (20 + rise) + ct - 1) / ct)
  let rest := s.boundary - s.clock.now
  s.clock.tick.toNat + 1 + (need - rest + len - 1) / len

/-- R544 to R546: firmware schedules the step that the limits call for. -/
def execStepChangeRequest (s : State) : Out :=
  let want := s.stepWanted
  let c := s.clk
  let t := s.leadTick want
  if !c.pending then
    if want = c.step then .next s
    else .next ((s.modClk fun c => { c with next := want, pending := true, atTick := BitVec.ofNat 64 t }).setSetpoints (min want c.step))
  else if want ≤ c.next ∨ c.drop.any (fun d => decide (want ≤ d.1)) then .next s
  else if t ≤ c.atTick.toNat then .next ((s.modClk fun c => { c with next := want, drop := none }).setSetpoints (min want c.step))
  else .next (s.modClk fun c => { c with drop := some (want, max t (c.atTick.toNat + 1)) })

/-- R544 steps 3 and 4, R246: in the first cycle of a tick, which no tick's later cycle is. The boundary has made a change that was due at it
(log entry 92). -/
def execStepChange (s : State) : Out := .next (if s.clock.now = s.clock.start then s.stepDue else s)

/-! ### Junctions (R547 to R549) -/

/-- How much lower the thresholds of a unit are: 10 °C for a stack (144 and up). -/
def cooler (unit : Nat) : Nat := if 144 ≤ unit then 10 else 0

/-- The erg of a site, or of a stack. -/
def unitErg (unit : Nat) : Nat := if 144 ≤ unit then ergOf ((attachSites (unit - 144)).getD 1 0) else ergOf unit

/-- Hotter of the measured and the forecast junction. -/
def junctionHot (j : Junction) : Nat := max j.tj j.fc

/-- THM_DIE, THM_ERG and THM_STAT after a forecast. -/
def State.thmRegs (s : State) (js : List Junction) : State :=
  let s1 := js.foldl (fun s j =>
    if j.unit < 144 then s.modDieClk j.unit fun d => { d with tj := min 255 j.tj, fc := min 255 j.fc, sensor := j.sensor % 16 }
    else s.modClk fun c => { c with
      stackTj := tput c.stackTj (j.unit - 144) (min 255 j.tj), stackFc := tput c.stackFc (j.unit - 144) (min 255 j.fc) }) s
  let top (f : Junction → Nat) (js : List Junction) : Nat := min 255 (largest (js.map f))
  s1.modClk fun c => { c with
    tjMax := top Junction.tj js, fcMax := top Junction.fc js
    ergs := tfillIn {} (fun e r =>
      let mine := js.filter fun j => unitErg j.unit == e
      { r with tj := top Junction.tj mine, fc := top Junction.fc mine }) 16 0 c.ergs }

/-- The warning of an erg, once per episode, and the conditions of its end and of its unparking (R547, R555). -/
def State.thmErg (s : State) (js : List Junction) (e : Nat) : State :=
  let mine := js.filter fun j => unitErg j.unit == e
  let r : ErgThm := tget {} s.clk.ergs e
  let warm := mine.any fun j => decide (95 ≤ junctionHot j + cooler j.unit)
  let calm := mine.all fun j => decide (junctionHot j + cooler j.unit < 90)
  let cold := mine.all fun j => decide (144 ≤ j.unit) || (decide (j.tj < 85) && decide (j.fcFull < 95))
  let n := if calm then r.below90 + 1 else 0
  let r1 : ErgThm := { r with
    warned := warm || (r.warned && decide (n < 100)), below90 := n, cool := if cold then r.cool + 1 else 0 }
  let s1 := s.modClk fun c => { c with ergs := tput c.ergs e r1 }
  if warm && !r.warned then s1.raise 0x0B04 panelNode e [] else s1

/-- R547, R548: in normal service a trigger lowers the limit by one step each time; at F5 the ergs of dies whose forecast still reaches it are parked. -/
def State.throttle (s : State) (js : List Junction) : State :=
  if js.any fun j => decide (105 ≤ junctionHot j + cooler j.unit) then
    let s1 := s.modClk fun c => { c with cool100 := 0 }
    if s.clk.thmLimit < 5 then (s1.modClk fun c => { c with thmLimit := c.thmLimit + 1 }).raise 0x0B05 panelNode noUnit []
    else s1.each (fun s e => s.park e false)
      ((js.filter fun j => decide (j.unit < 144) && decide (105 ≤ j.fc)).map fun j => unitErg j.unit).eraseDups
  else
    let n := if js.all fun j => decide (j.fcFaster + cooler j.unit < 100) then s.clk.cool100 + 1 else 0
    s.modClk fun c => if n < 100 then { c with cool100 := n } else { c with cool100 := 0, thmLimit := c.thmLimit - 1 }

/-- Whether R242 and R510 allow a die's halves to be stretched. -/
def State.mayStretch (s : State) (site : Nat) : Bool :=
  let d := tget DieMode.off s.panel.die site
  let inJob := s.job.started && s.job.live && !s.clock.hdr.test
  !inJob && (s.panel.mode == .starting || s.panel.mode == .test || s.panel.mode == .relay || d == .test || d == .computeReset)

/-- The k of a half-die after a forecast (R549). -/
def stretchK (k hot : Nat) : Nat := if 105 ≤ hot then min 4 (k + 1) else if hot < 100 then k - 1 else k

/-- R549: hot half-dies are stretched outside normal service, and let go again. -/
def State.stretchDie (s : State) (j : Junction) : State :=
  if 144 ≤ j.unit then s
  else
    let may := s.mayStretch j.unit
    let k (old hot : Nat) : Nat := if may then stretchK old hot else 0
    let d := s.dieClk j.unit
    if !may && d.stretchW == 0 && d.stretchE == 0 then s
    else s.syncAll.modDieClk j.unit fun d => { d with stretchW := k d.stretchW j.west, stretchE := k d.stretchE j.east }

/-- R547 to R549: every 1 ms. -/
def execThermalForecast (junctions : List Junction) (s : State) : Out :=
  let js := junctions.filter fun j => decide (j.unit < 160)
  let s1 := (s.thmRegs js).each (fun s e => s.thmErg js e) (List.range 16)
  let s2 := js.foldl State.stretchDie s1
  .next (if s.panel.mode = .ready ∨ s.panel.mode = .running then s2.throttle js else s2)

/-- R547: a die at its trip level parks its erg and THERMTRIP# falls (R650); a stack at its own is lost (R321). -/
def execThermalTrip (unit : Fin 160) (tj : BitVec 8) (s : State) : Out :=
  if tj.toNat + cooler unit < 115 then .next s
  else
    let s1 : State := { s with mc := { s.mc with tripLow := true } }
    let s2 := s1.raise 0x0B06 panelNode (unitErg unit) []
    .next (if 144 ≤ unit.val then s2.loseStack (unit - 144) else s2.park (unitErg unit) true)

/-! ### Unparking (R555) -/

/-- A site of an erg that is powered again: its router and its clock are back, and the sweep that precedes its return begins (R342). -/
def State.siteOn (s : State) (site : Nat) : State :=
  let s1 := (s.modPanel fun p => { p with routerUp := tput p.routerUp site true }).modDieClk site fun d =>
    { d with st := .primary, link := 0xF#4 }
  if tget Role.retired s.panel.before site = .retired then s1 else s1.sweepSite .back false site

/-- An erg's stage 2 turns on again: one with three controllers is DERATED, so that the floor binds and the migration is due (R526, R527, log entry 274). -/
def State.ergOn (s : State) (e : Nat) : State :=
  let whole := decide ((s.ergPwr e).ctrls = 4)
  let first := s.pwr.derated.isEmpty
  let s1 := s.modErg e fun x => { x with mode := if whole then .up else .derated, setpoint := setpointOf s.clk.step }
  if whole then s1 else s1.modPwr fun p => { p with
    floor := if first then min 5 (s.clk.step + 1) else p.floor, migrate := p.migrate ++ [e] }

/-- R555, R61: while no job runs, the erg's supply is only off, and it has been cool for 1 s (1,000 forecasts); a trip's erg stays parked. Its
sites return once they are swept. -/
def execErgUnpark (erg : Erg) (s : State) : Out :=
  let e := erg.val
  if !s.clk.parked.contains e ∨ s.clk.tripped.contains e ∨ s.startBusy ∨ (tget {} s.clk.ergs e).cool < 1000 ∨ (s.ergPwr e).mode ≠ .off then
    .next s
  else
    let sites := (ergSites e).filter fun x => !isGw x
    let s1 := (s.modClk fun c => { c with parked := c.parked.filter (· ≠ e), relayDue := true }).ergOn e
    let s2 := (s1.each State.siteOn sites).modPanel fun p => { p with returning := e :: p.returning }
    .next (if sites.all fun x => (s2.dieSweep x).left.isEmpty then s2.attachAnew.ergBack e else s2.attachAnew)

/-! ### Barchan rotation (R550, R551) -/

/-- A row's move begins with the self-check of its resting core (R36, R90); one whose last move has not handed over skips the interval and is counted. -/
def State.rotateRow (s : State) (ld site row : Nat) : State :=
  if (s.rowFaultOf site row).isSome then s
  else if tmem s.panel.moves (8 * site + row) then
    let b := bump 0x7FFF s.clk.skips s.clk.rotOvf
    (s.modClk fun c => { c with skips := b.1, rotOvf := b.2.1 }).cntOvf b.2.2 0x300010 0 panelNode
  else
    let r := s.restOf ld row
    let rest := pcoreAt site row r
    if (s.core rest).stat.run ≠ .resting then s
    else
      let key := 8 * ld + row
      let down := if r = 0 then false else if r = 12 then true else tget false s.panel.restDown key
      (s.modPanel fun p => { p with
        restDown := tput p.restDown key down
        moves := tput p.moves (8 * site + row) { phase := .checking, src := if down then r - 1 else r + 1, rest := r } }).modStat rest
          fun c => { c with run := .selfcheck }

/-- R550: in every die in service, all in the same tick. -/
def execRotationInterval (s : State) : Out :=
  let dies := s.panel.ldSite.filter fun e =>
    let d := tget DieMode.off s.panel.die e.2
    d == .ready || d == .running
  .next (dies.foldl (fun s e => s.each (fun s row => s.rotateRow e.1 e.2 row) (List.range 8)) s)

/-! ### The cold plate (R557, R558) -/

/-- R557: the estimated flow in units of 0.01 L/min, from the power in W and the rise in units of 0.5 °C; without a rise it is past the field. -/
def flowOf (power rise : Nat) : Nat := if rise = 0 then 0xFFFF else min 0xFFFF (power * 1200000 / (416746 * rise))

/-- Whether the estimated flow lies below a share (in halves) of what R556 asks for; both grow with the power. -/
def flowBelow (halves rise : Nat) : Bool := decide (2 * 1200000 * 15000 < halves * 1400 * 416746 * rise)

/-- R558: COOLING after a sample: a state clears once its condition has been absent for 10 s (1,000 samples). -/
def coolingNext (now : Cooling) (lost degraded : Bool) (lostGone worseGone : Nat) : Cooling :=
  if lost then .lost
  else if now = .lost ∧ lostGone < 1000 then .lost
  else if degraded then .degraded
  else if now ≠ .ok ∧ worseGone < 1000 then .degraded
  else .ok

/-- R557, R558, R638. -/
def execWaterSample (inlet outlet : Option (BitVec 8)) (s : State) : Out :=
  let p := s.pwr.avg1s
  let i := (inlet.map BitVec.toNat).getD s.clk.inlet
  let o := (outlet.map BitVec.toNat).getD s.clk.outlet
  let silent := inlet.isNone || outlet.isNone
  let test := decide (3000 < p) && !silent
  let lost := silent || decide (100 < i) || (test && flowBelow 1 (o - i))
  let degraded := decide (80 < i) || (test && flowBelow 2 (o - i))
  let lg := if lost then 0 else s.clk.lostGone + 1
  let wg := if lost || degraded then 0 else s.clk.worseGone + 1
  let c := coolingNext s.clk.cooling lost degraded lg wg
  let s1 := s.modClk fun k => { k with
    inlet := i, outlet := o, flow := if silent then k.flow else flowOf p (o - i), cooling := c, lostGone := lg, worseGone := wg }
  .next (if c ≠ s.clk.cooling ∧ c ≠ .ok then s1.raise 0x0B09 panelNode noUnit [] else s1)

end Sys2Proof.Machine
end

