-- ==== Sys2Proof/Machine/BootOps.lean ====
section
/-! DEFINITION. What bring-up shares (16): the answers to BIST's failures (R569, R570), the retirement of the sites at failed links (R573), the choice of
images and their fuses (R595 to R600), and the map that a cold start confirms (R42, R61). -/

namespace Sys2Proof.Machine

open Sys2Proof

/-- Change bring-up's records. -/
def State.modBoot (s : State) (f : Boot → Boot) : State := { s with boot := f s.boot }

/-! ### BIST (R569, R570, R587) -/

/-- The families that a selection runs; 0x00 is taken as 0x03 (R569). -/
def bistSel (sel : Nat) : Nat := if sel % 4 = 0 then 3 else sel % 4

/-- Whether a failure belongs to a selected family (R569). -/
def BistFailureSelected (sel : Nat) (f : BistFailure) : Bool :=
  match f with
  | .d2d _ _ _ => bitOf sel 1
  | .pll _ => bitOf sel 1
  | .sensor _ => bitOf sel 1
  | .serdes _ _ => bitOf sel 1
  | .baseDie _ => true
  | _ => bitOf sel 0

/-- The RCODE bit that covers a failure (R587). -/
def bistBit (f : BistFailure) : Nat :=
  match f with
  | .datapath _ _ => 13
  | .d2d _ _ _ => 14
  | .pll _ => 14
  | .sensor _ => 14
  | .serdes _ _ => 14
  | .region _ _ => 15
  | .baseDie _ => 15
  | _ => 12

/-- RCODE of a test (R586, R587). -/
def bistCode (found : List BistFailure) : Nat :=
  if found.isEmpty then 0
  else 0x111 + ((found.map bistBit).eraseDups.foldl (fun n b => n + 2 ^ b) 0)

/-- Record a failure that was not repaired in place (DIE_BIST, DIE_BIST_FAIL). -/
def State.bistFail (s : State) (site kind core bank word bit : Nat) : State :=
  s.modBoot fun b => { b with bist := tmod {} b.bist site fun d => { d with
    st := .fail, unrepaired := min 0xFF (d.unrepaired + 1), kind := kind, core := core, bank := bank, word := word, bit := bit } }

/-- A site is retired outside a job; one whose router is lost takes it out of service (R29, R570, R573). -/
def State.retireSite (s : State) (site : Nat) (routerLost : Bool) : State :=
  if isGw site ∨ s.roleOf site = .dark then s
  else
    let s1 := ((s.dropMoves site).setRole site .retired).dieMode site .off
    if routerLost then s1.modPanel fun p => { p with routerUp := tput p.routerUp site false } else s1

/-- A core that BIST finds faulty has its row pinned; a second one in a row retires the die (R37, R49, R570). -/
def State.coreFaulty (s : State) (site k : Nat) : State :=
  match s.rowFaultOf site (k / 13) with
  | some c => if c = k % 13 then s else s.retireSite site false
  | none => s.pinRow site (k / 13) (k % 13)

/-- The site at an end of a failed D2D link that is retired with its router (R573): the compute site beside a gateway, else the end that holds no logical
die, else the one with the higher number. -/
def State.linkVictim (s : State) (a b : Nat) : Nat :=
  if isGw a then b else if isGw b then a
  else match (s.ldAt a).isSome, (s.ldAt b).isSome with
    | false, true => a
    | true, false => b
    | _, _ => max a b

/-- A D2D link that has failed for good takes one site with it (R573). -/
def State.linkDead (s : State) (site dir : Nat) : State :=
  match neighbour site dir with
  | some n => if s.routerUp site ∧ s.routerUp n then s.retireSite (s.linkVictim site n) true else s
  | none => s

/-- A region that BIST retires before the panel is ready takes the lowest free spare at once (R317, R570). -/
def State.bistRegion (s : State) (n region : Nat) : State :=
  let s1 := s.modBoot fun b => { b with stackBist := tmod {} b.stackBist n fun k => { st := .fail, retired := k.retired + 1, lastRegion := region } }
  if s.panel.confirmed then s1.retireRegion n region
  else match (s.stack n).freeSpare with
    | some i => s1.modStack n fun r => { r with spares := tput r.spares i { used := true, retired := false, region := region } }
    | none => s1.modStack n fun r => { r with deadRegions := region :: r.deadRegions, mode := .degraded }

/-- A failure is recorded with its place (R570): a scratchpad's rows within its spares are repaired, the others are not. -/
def State.bistNote (s : State) (f : BistFailure) : State :=
  match f with
  | .spad site core bank rows word bit =>
    if rows ≤ 4 then s.modBoot fun b => { b with bist := tmod {} b.bist site fun d => { d with repaired := min 0xFF (d.repaired + rows) } }
    else s.bistFail site 1 core bank word bit
  | .imem site core word bit => s.bistFail site 2 core 0 word bit
  | .datapath site core => s.bistFail site 3 core 0 0 0
  | .router site => s.bistFail site 4 0x7F 0 0 0
  | .steward site => s.bistFail site 5 0x7F 0 0 0
  | .d2d site dir wire => s.bistFail site 6 0x7F dir wire 0
  | .pll site => s.bistFail site 7 0x7F 0 0 0
  | .sensor site => s.bistFail site 8 0x7F 0 0 0
  | .baseDie stack => s.modBoot fun b => { b with stackBist := tmod {} b.stackBist stack fun k => { k with st := .fail } }
  | .region _ _ => s
  | .serdes _ _ => s

/-- A site whose router buffer or steward SRAM fails: a compute site is retired with its router, a gateway leaves service (R570). -/
def State.siteFaulty (s : State) (site : Nat) : State :=
  match gwAt site with
  | some g => s.gatewayGone g
  | none => s.retireSite site true

/-- A SerDes lane that fails: the port or link comes up at half width, or fails (R359, R437, R570). -/
def State.serdesFaulty (s : State) (link : Nat) (lanes : BitVec 8) : State :=
  if !(s.port link).up then s
  else if halfGood link lanes.toNat then s.modPort link fun r => { r with mode := .upHalf, lanesOk := lanes }
  else (s.takeDown link .failed).modPort link fun r => { r with lanesOk := lanes }

/-- A failure is recorded, and firmware answers it (R570). -/
def State.bistFix (s : State) (f : BistFailure) : State :=
  let s1 := s.bistNote f
  match f with
  | .spad site core _ rows _ _ => if rows ≤ 4 then s1 else s1.coreFaulty site core
  | .imem site core _ _ => s1.coreFaulty site core
  | .datapath site core => s1.coreFaulty site core
  | .router site => s1.siteFaulty site
  | .steward site => s1.siteFaulty site
  | .d2d site dir _ => s1.linkDead site dir
  | .pll _ => s1
  | .sensor _ => s1
  | .region stack region => s1.bistRegion stack region
  | .baseDie stack => s1.loseStack stack
  | .serdes link lanes => s1.serdesFaulty link lanes

/-- The site of a die where a failure lies, none for a stack or a gateway's SerDes lanes. -/
def bistSite (f : BistFailure) : Option Nat :=
  match f with
  | .spad site _ _ _ _ _ => some site
  | .imem site _ _ _ => some site
  | .datapath site _ => some site
  | .router site => some site
  | .steward site => some site
  | .d2d site _ _ => some site
  | .pll site => some site
  | .sensor site => some site
  | .region _ _ => none
  | .baseDie _ => none
  | .serdes _ _ => none

/-- Every site and stack in `sites` and `stacks` has run the selected families and passed, as far as nothing has failed it yet. -/
def State.bistRan (s : State) (sel : Nat) (sites plos : List Nat) : State :=
  s.modBoot fun b => { b with
    bist := sites.foldl (fun t x => tmod {} t x fun d => { d with st := .pass, sel := sel }) b.bist
    stackBist := plos.foldl (fun t n => tmod {} t n fun k => { k with st := .pass }) b.stackBist }

/-! ### Images and fuses (R595 to R600) -/

/-- R624 for 32 bits. -/
def later32 (a b : Nat) : Bool :=
  let d := (a + 2 ^ 32 - b) % 2 ^ 32
  decide (0 < d) && decide (d < 2 ^ 31)

/-- The better of two slots of a type (R599): highest SVN, then latest BUILD, then the earlier in the order side A, side B, slot 0, slot 1. -/
def betterFw (a b : Nat × FwImage) : Nat × FwImage :=
  if a.2.svn < b.2.svn then b else if b.2.svn < a.2.svn then a else if later32 b.2.build a.2.build then b else a

/-- The slots of a type that verify (R597): what the device knows of a slot, and what spoils it (`spoiled`). -/
def Sec.slotsOk (c : Sec) (spoiled : List Nat) (type : Nat) : List (Nat × FwImage) :=
  [2 * type, 2 * type + 1, 16 + 2 * type, 17 + 2 * type].filterMap fun k =>
    (tfind c.images k).bind fun i =>
      if i.type = type ∧ c.svnOf type ≤ i.svn ∧ !c.revoked.getLsbD i.key ∧ !spoiled.contains k then some (k, i) else none

/-- The image of a type that R599 chooses, with its slot. -/
def Sec.choose (c : Sec) (spoiled : List Nat) (type : Nat) : Option (Nat × FwImage) :=
  match c.slotsOk spoiled type with
  | [] => none
  | x :: r => let b := r.foldl betterFw x; some (b.1 % 2, b.2)

/-- Firmware blows the lower bank to match (R595). -/
def Sec.levelBanks (c : Sec) : Sec :=
  let owner := if c.bankA.owner.isSome then c.bankA.owner else c.bankB.owner
  let svn := [1, 2, 3, 4].foldl (fun t k => if c.svnOf k = 0 then t else tput t k (c.svnOf k)) ([] : Tab Nat)
  let b : FuseBank := { revoked := c.revoked, owner := owner, svn := svn }
  { c with bankA := b, bankB := b }

/-- What the FLAGS of an image in force have firmware blow, in both banks, with EV_SEC_FUSE after each change (R600). -/
def State.advanceFuses (s : State) (i : FwImage) : State :=
  let s1 := if bitOf i.flags 0 ∧ s.sec.svnOf i.type < i.svn then
      (s.modSec fun c => { c with
        bankA := { c.bankA with svn := tput c.bankA.svn i.type (min 64 i.svn) }
        bankB := { c.bankB with svn := tput c.bankB.svn i.type (min 64 i.svn) } }).raise 0x0D01 panelNode noUnit []
    else s
  if bitOf i.flags 1 then
    s1.each (fun s k => if i.key ≤ k ∨ s.sec.revoked.getLsbD k then s
      else (s.modSec fun c => { c with
        bankA := { c.bankA with revoked := c.bankA.revoked ||| (1#4 <<< k) }
        bankB := { c.bankB with revoked := c.bankB.revoked ||| (1#4 <<< k) } }).raise 0x0D01 panelNode noUnit []) (List.range 4)
  else s1

/-! ### The map that a cold start confirms (R31, R42, R61) -/

/-- The record as the part left manufacture (R31): LD0 to LD127 on the compute sites that are not spares, in ascending order. -/
def factoryRecord (spares : List Nat) : MapRecord :=
  let bound := computeSites.filter fun x => !spares.contains x
  { gen := 1#32, commitTick := 0#64, ldSite := (List.range bound.length).zip bound
    role := computeSites.map fun x => (x, if spares.contains x then Role.spare else Role.bound), rowFault := [], spares := [] }

/-- The record that R42 takes, and whether it is copy B; the factory's, which stands in copy A, where the device holds none of its own yet (log
entry 30). -/
def State.startRecord (s : State) (f : StartFacts) : Option (MapRecord × Bool) :=
  let a := if f.badMapA then none else s.panel.copyA
  let b := if f.badMapB then none else s.panel.copyB
  match a, b with
  | some x, some y => if later32 y.gen.toNat x.gen.toNat then some (y, true) else some (x, false)
  | some x, none => some (x, false)
  | none, some y => some (y, true)
  | none, none =>
    if s.panel.copyA.isNone ∧ s.panel.copyB.isNone ∧ !f.badMapA ∧ f.spares.eraseDups.length = 8 ∧ f.spares.all (fun x => decide (x < 144) && !isGw x) then
      some (factoryRecord f.spares, false)
    else none

/-- STACK_SPARE entries of a record, back in a stack's registers (R319). -/
def spareTable (t : Tab Nat) (n : Nat) : Tab SpareRec :=
  (t.filter fun e => decide (e.1 / 16 = n)).map fun e =>
    (e.1 % 16 / 2, { used := bitOf e.2 15, retired := bitOf e.2 14, region := bitsOf e.2 0 9 })

/-- The role with which a site enters a cold start (R61): a retired site that has passed returns to the spare pool, and so does one that was dark; a site of an
erg that stays dark is dark. -/
def startRole (dark : Bool) (r : Role) : Role :=
  if dark then .dark else match r with
    | .bound => .bound
    | .spare => .spare
    | .retired => .spare
    | .dark => .spare
    | .gateway => .gateway

end Sys2Proof.Machine
end

