-- ==== Sys2Proof/Machine/SelfTest.lean ====
section
/-! DEFINITION. Self-test, stand-alone die test, compute reset and restarted stewards (16, 13): SELFTEST, DIETEST, DIE_TEST_END, D2D_RETRAIN,
COMPUTE_RESET_DONE, COMPUTE_RESET_TIMEOUT, STEWARD_RESTART_DONE. -/

namespace Sys2Proof.Machine

open Sys2Proof

/-! ### Maps after a test -/

/-- Whether two states hold the same record data. -/
def State.sameMap (a b : State) : Bool :=
  decide (a.panel.role = b.panel.role) && decide (a.panel.ldSite = b.panel.ldSite) && decide (a.panel.rowFault = b.panel.rowFault) &&
  decide (a.stackSpares = b.stackSpares)

/-- Firmware answers what a test or a retrain has changed since `old`: lost dies are replaced (R50), and a record is committed (R41). -/
def State.settleMap (old s : State) : State :=
  if !s.lostDies.isEmpty then s.replaceLost false ST_CORE_HW
  else if old.sameMap s then s else s.commitRecord.rebindJob

/-! ### SELFTEST (R586, R587) -/

/-- What MEMORY BIST overwrites: every scratchpad, instruction memory and stack holds zeros with valid ECC (R569). -/
def State.marched (s : State) (sel : Nat) : State :=
  if bitOf sel 0 then { s with srams := {}, plos := { s.plos with mem := [], poison := [], flips := [] } } else s

/-- Every stack that is not lost is swept whole (R586, R571). -/
def State.sweepStacks (s : State) : State :=
  { s with plos := { s.plos with rec_ := tfill {} (fun _ r =>
      if r.mode = .lost then r else { r with sweeping := true, toSweep := List.range 392, written := [] }) 0 16 s.plos.rec_ } }

/-- R586: BIST with the selection asked for, its repairs and retirements (R570), and its answer. -/
def execSelftest (m : Mbx) (found : List BistFailure) (s : State) : Out :=
  if !(8 ≤ m.val && s.asked m 0x20) then .next s
  else if s.panel.mode ≠ .ready then .next (s.ackBox m 0x0CD)
  else
    let sel := bistSel ((s.box m).word 0)
    let fs := found.filter (BistFailureSelected sel)
    let s1 := ((s.marched sel).bistRan sel (allSites.filter fun x => s.roleOf x != .dark) (List.range 16)).sweepStacks
    let s2 := (fs.foldl State.bistFix s1).attachAnew
    let s3 := s.settleMap (s2.each State.dress s2.servedSites)
    .next (s3.ackBox m (bistCode fs))

/-! ### Die test (R583 to R586) -/

/-- R583, R584, R586: a spare or retired compute site enters stand-alone test, with routes and the clock plan laid around it. -/
def execDietest (m : Mbx) (s : State) : Out :=
  if !(8 ≤ m.val && s.asked m 0x21) then .next s
  else
    let w := (s.box m).word 0
    let site := bitsOf w 0 8
    let role := s.roleOf site
    if s.panel.mode ≠ .ready ∨ 144 ≤ site ∨ (role ≠ .spare ∧ role ≠ .retired) then .next (s.ackBox m 0x0CD)
    else
      let s1 := (s.modPanel fun p => { p with mode := .test, routerUp := tput p.routerUp site false }).dieMode site .test
      let s2 := (s1.clockGone [site]).attachAnew
      .next (s2.modBoot fun b => { b with test := some ⟨m, site, bitOf w 8, role⟩ })

/-- One training of a D2D link: both ends count it, and the end in hand shows its qualification (R572, R585). -/
def State.d2dTrained (s : State) (site dir : Nat) (st : QualMode) (trainings errors : Nat) : State :=
  match neighbour site dir with
  | none => s
  | some n => s.modBoot fun b => { b with
      qual := tmod {} (tmod {} b.qual (4 * n + facing dir) fun q => { q with
        st := if st = .fail then .fail else q.st, retrains := min 0xFF (q.retrains + trainings) })
        (4 * site + dir) fun q => { st := st, retrains := min 0xFF (q.retrains + trainings), errors := min 0xFFFF errors } }

/-- A D2D link that fails its qualification tells of it (R572). -/
def State.d2dEvent (s : State) (site : Nat) : State := s.raise 0x0C02 (nodeAt site 0) site []

/-- The role with which a tested site goes on (R585 step 4). -/
def testedRole (was : Role) (pass : Bool) : Role := if was = .spare ∧ pass then .spare else .retired

/-- R585, R586: the die is swept and its links retrained, its positions return at the next route flip, its role is set, and the test is answered. -/
def execDieTestEnd (found : List BistFailure) (linksOk : Bool) (s : State) : Out :=
  match s.boot.test with
  | none => .next s
  | some t =>
    let fs := found.filter fun f => bistSite f == some t.site
    let gone := s.roleOf t.site = .dark
    let role := if gone then .dark else testedRole t.role (fs.isEmpty && linksOk)
    let s0 := fs.foldl State.bistNote (s.bistRan 3 [t.site] [])
    let s1 := if gone then s0 else s0.sweepSite .back false t.site
    let s2 := s1.each (fun s d => s.d2dTrained t.site d (if linksOk then .pass else .fail) 1 0) (List.range 4)
    let s3 := if gone then s2 else if linksOk then (s2.modClk fun c => { c with rejoin := t.site :: c.rejoin.filter (· ≠ t.site) }).modDieClk t.site fun d =>
        { d with st := .primary, link := 0xF#4 }
      else s2.d2dEvent t.site
    let s4 := (s3.dieMode t.site (if role = .spare then .ready else .off)).setRole t.site role
    let s5 := if role = s.roleOf t.site then s4 else s4.commitRecord
    let s6 := if s5.panel.mode ≠ .test ∨ s.sec.debug ∨ s.sec.scan then s5 else s5.modPanel fun p => { p with mode := .ready }
    .next ((s6.modBoot fun b => { b with
      test := none }).ackBox t.mbx (bistCode fs ||| (if linksOk then 0 else 0x4111)))

/-! ### D2D links (R576) -/

/-- R576: while no job runs; a link that does not qualify takes a site with it (R573). -/
def execD2dRetrain (site : Site) (dir : Fin 4) (pass : Bool) (errors : BitVec 16) (s : State) : Out :=
  match neighbour site dir with
  | none => .next s
  | some n =>
    if s.startBusy ∨ !s.routerUp site ∨ !s.routerUp n then .next s
    else
      let s1 := s.d2dTrained site dir (if pass then .pass else .fail) 1 errors.toNat
      .next (if pass then s1 else s.settleMap ((s1.d2dEvent site).linkDead site dir).attachAnew)

/-! ### Compute reset (R579 to R582) -/

/-- The announced levels of a die's cores are 15 again (R185). -/
def State.levelsAnew (s : State) (site : Nat) : State :=
  match s.ldAt site with
  | some ld => { s with
      loadLevel := tfilter (fun k _ => decide (k / 96 ≠ ld)) s.loadLevel, hints := s.hints.filter fun h => h.1 / 96 != ld }
  | none => s

/-- R579: the steward's image is the one whose measurement it holds (R599) and its BIST passes: DIE_STATE reads READY, and a program that waits for the die is
broadcast. -/
def execComputeResetDone (site : Site) (imageOk bistOk : Bool) (s : State) : Out :=
  if tget .off s.panel.die site ≠ .computeReset ∨ !imageOk ∨ !bistOk then .next s
  else
    let s1 := ((s.dieMode site .ready).modPanel fun p => { p with resetAt := tdel p.resetAt site }).levelsAnew site
    .next (if s1.job.phase = .waitDie then s1.loadProgram else s1)

/-- R582: a die steward that has not returned within 5 ms leaves its die dead. -/
def execComputeResetTimeout (site : Site) (s : State) : Out :=
  match tget .off s.panel.die site, tfind s.panel.resetAt site with
  | .computeReset, some t =>
    let s1 := (s.advance (t + s.cyclesOf (5000 * usec))).modPanel fun p => { p with resetAt := tdel p.resetAt site }
    .next (s1.failDie site false ST_CORE_HW)
  | _, _ => .next s

/-! ### Restarted stewards (R478) -/

/-- The cores of a site that stand faulted and whose fault no steward has reported. -/
def State.untold (s : State) (site : Nat) : List Nat :=
  (s.cores.filter fun e => pSite e.1 == site && e.2.fault.valid && !e.2.fault.told).map (·.1)

/-- R478: the steward is back, and its 100 ms without a miss begin; a die steward reports the faults recorded meanwhile, and a panel steward is standby, or active
where none is. -/
def execStewardRestartDone (agent : Nat) (bad : List PCore) (s : State) : Out :=
  if !isStewardAgent agent ∨ !(s.wdt agent).restarting then .next s
  else
    let s1 := s.modWdt agent fun w => { w with restarting := false, backAt := some s.clock.now }
    if 0x100 ≤ agent then .next (s1.each (fun s p => s.faultReport p (bad.all fun b => b.val != p)) (s1.untold (agent - 0x100)))
    else if agent < 0x20 ∧ s1.stew.active.isNone then .next (s1.activate (agent == 0x11))
    else .next s1

end Sys2Proof.Machine
end

