-- ==== Sys2Proof/Machine/Cold.lean ====
section
/-! DEFINITION. Cold start (R559 to R573, R592): its steps in order, on the facts that the environment and the parts give it. -/

namespace Sys2Proof.Machine

open Sys2Proof

/-! ### Steps 2 and 3: ergs (R531) -/

/-- The controllers of an erg that pass self-test. -/
def startCtrls (f : StartFacts) (e : Nat) : BitVec 4 := ((f.ctrls.find? fun x => x.1 == e).map (·.2)).getD 0xF#4

/-- An erg starts whole, starts DERATED with three controllers, or stays dark (R531); its rail comes up at the setpoint of F3 (R559 step 2). -/
def State.ergStart (f : StartFacts) (s : State) (e : Nat) : State :=
  let ok := startCtrls f e
  let n := ({ ctrlOk := ok } : ErgPwr).ctrls
  if f.stage1Out.contains e ∨ n < 3 then
    ((s.modErg e fun x => { x with mode := .dark, ctrlOk := 0#4 }).modPwr fun p => { p with dark := e :: p.dark }).raise 0x0A07 panelNode e []
  else
    let s1 := s.modErg e fun x => { x with mode := if n = 4 then .up else .derated, ctrlOk := ok, limit := 360 * n, setpoint := setpointOf 3 }
    if n = 4 then s1 else (s1.modPwr fun p => { p with floor := 1, migrate := p.migrate ++ [e] }).raise 0x0A06 panelNode e []

/-- Whether an erg stays dark. -/
def State.ergOut (s : State) (e : Nat) : Bool := (s.ergPwr e).mode == .dark

/-! ### Step 4: the boot ROMs (R562, R563, R567, R599) -/

/-- The parts of saved link settings in a log, with MAGIC and FORMAT valid (R565). -/
def settingsIn (l : List (Nat × List (BitVec 8))) : List (List (BitVec 8)) :=
  (l.filter fun e => e.1 == 2 && leField e.2 0 4 == 0x534C564B && leField e.2 4 2 == 1).map (·.2)

/-- The parts of the set of a generation, in order; none where one is missing (R567). -/
def settingsSet (ps : List (List (BitVec 8))) (sgen : Nat) : Option (List (List (BitVec 8))) :=
  let mine := ps.filter fun p => leField p 8 4 == sgen
  let n := leField (mine.headD []) 7 1
  let set := (List.range n).filterMap fun k => mine.find? fun p => leField p 6 1 == k && leField p 7 1 == n
  if 0 < n ∧ set.length = n then some set else none

/-- The entries of a part, by unit and lane (R566). -/
def partEntries (p : List (BitVec 8)) : List (Nat × List (BitVec 8)) :=
  (List.range (min 254 (leField p 0xC 2))).map fun i =>
    let o := 0x20 + 16 * i
    (256 * leField p o 2 + leField p (o + 2) 1, (p.drop (o + 4)).take 12)

/-- The valid set with the latest SGEN comes into force, from the sides that can be read; none leaves every link to its defaults (R560, R567). -/
def State.settingsStart (s : State) : State :=
  let side (k : Nat) : List (List (BitVec 8)) := if s.routerUp (gwSite (7 * k)) then settingsIn (tget [] s.nvm.sys k) else []
  let ps := side 0 ++ side 1
  let gens := (ps.map fun p => leField p 8 4).filter fun g => decide (0 < g) && (settingsSet ps g).isSome
  match gens with
  | [] => s
  | g :: gs =>
    let best := gs.foldl (fun a b => if later32 b a then b else a) g
    s.modBoot fun b => { b with
      sgen := best, settings := (((settingsSet ps best).getD []).flatMap partEntries).foldl (fun t e => tput t e.1 e.2) [] }

/-- Whether this start trains some link from its defaults (BOOT_STAT.FULLTRAIN): with no valid set, and where a link fails its first test (R560, R572). -/
def State.trainsFull (s : State) (f : StartFacts) : Bool :=
  f.fullTrain || s.boot.sgen == 0 || !f.d2dRetry.isEmpty || !f.d2dFail.isEmpty

/-- BOOT_STAT of GW0 and GW7. -/
def State.bootStat (s : State) (f : StartFacts) (step codeA codeB : Nat) : State :=
  let r (code : Nat) : BootStat := { step := step, full := s.trainsFull f, code := code, ms := min 0xFFF f.time }
  s.modBoot fun b => { b with boot := [(0, r codeA), (7, r codeB)] }

/-- The firmware area as the part left manufacture, where the device holds none of its own (R598, log entry 30). -/
def State.firmware (s : State) (f : StartFacts) : State :=
  if s.sec.images.isEmpty then s.modSec fun c => { c with images := f.firmware.foldl (fun t e => tput t e.1 e.2) [] } else s

/-- A Jisto link trains: whole, at half width, or not (R437, R572). -/
def State.jistoStart (f : StartFacts) (s : State) (l : Nat) : State :=
  if !s.routerUp (if l = 0 then 13 else 130) then s
  else
    let p := 32 + l
    match f.jisto.find? fun e => e.1 == l with
    | some (_, lanes) =>
      if lanes.toNat = allLanes p then s.comeUp p lanes 0xFFFF
      else if halfGood p lanes.toNat then (s.comeUp p lanes 0xFFFF).linkQual p
      else (s.modPort p fun r => { r with mode := .failed, lanesOk := lanes }).linkQual p
    | none => (s.modPort p fun r => { r with mode := .failed, lanesOk := 0#8 }).linkQual p

/-- The panel steward image that the ROMs find (R599). -/
def State.rootImage (s : State) (f : StartFacts) : Option (Nat × FwImage) := s.sec.choose f.spoiled 1

/-- The panel stewards start: GW0's is active where its root of trust passes, else GW7's; one that does not pass stays out (R563, R478). -/
def State.stewardsStart (s : State) (a b : Bool) : State :=
  let out (s : State) (agent : Nat) (ok : Bool) : State := if ok then s else s.modWdt agent fun w => { w with out := true }
  let s1 := out (out s 0x10 a) 0x11 b
  { (s1.modSec fun c => { c with rootA := a, rootB := b }) with
    stew := { s1.stew with active := some (!a) }, cons := { s1.cons with gw7 := !a } }

/-! ### Steps 5, 6 and 9: links -/

/-- Whether a target meets the table of R403, but for its cell type's being the device's. -/
def paramFits (p : ParamPage) : Bool :=
  (p.cell == 3 || p.cell == 4) && p.lpddr4 && decide (3600 ≤ p.rate) && p.dutyCycle && p.dqTraining && p.zq && p.main == 16384 &&
  decide (2048 ≤ p.spare ∧ 1 ≤ p.luns ∧ p.luns ≤ 4 ∧ p.capacity ≤ 2 ^ 40) && p.slc && decide (8 ≤ p.readSets) && p.marking

/-- The device's cell type: that of the first fit target, by channel and target (R403, log entry 251). -/
def startCell (f : StartFacts) : Nat :=
  let fit := f.media.filter fun p => paramFits p && decide (p.chan < 32 ∧ p.target < 8)
  match fit.find? fun p => decide (8 * p.chan + p.target = lowest (fit.map fun q => 8 * q.chan + q.target)) with
  | some p => p.cell
  | none => 3

/-- The targets of a channel that serve: those that fall short of R403 are left out of service. -/
def startServed (f : StartFacts) (c : Nat) : List ParamPage :=
  f.media.filter fun p => p.chan == c && decide (p.target < 8) && paramFits p && p.cell == startCell f

/-- Whether the system area holds the factory bad-block table: the markings are read at the first cold start alone (R413). -/
def State.factoryKnown (s : State) : Bool := s.nvm.sys.any fun e => e.2.any fun x => x.1 == 3

/-- A NAND channel trains with the targets that it finds fit (R403, R572); one with none leaves service. -/
def State.chanStart (f : StartFacts) (s : State) (c : Nat) : State :=
  if !s.routerUp (gwSite (c / 4)) then s.modChan c fun r => { r with mode := .out, targets := 0#8 }
  else
    let ps := startServed f c
    let limit := leField (tget [] s.boot.settings (256 * 0x5001 + 0xFF)) 0 4
    if ps.isEmpty then s.modChan c fun r => { r with mode := .out, targets := 0#8 }
    else s.modChan c fun r => { r with
      mode := .up, targets := ps.foldl (fun m p => m ||| (1#8 <<< p.target)) 0#8, qlc := startCell f == 4
      endurance := if limit = 0 then lowest (ps.map (·.endurance)) else limit, factory := if s.factoryKnown then r.factory else sumOf (ps.map (·.factoryBad)) }

/-- Whether the target that holds a side of the system area serves (R415). -/
def State.sideServes (s : State) (c : Nat) : Bool := (s.chan c).mode == .up && (s.chan c).targets.getLsbD 0

/-- Every channel, and the sides of the system area (R418); the factory bad-block table is built once (R413). -/
def State.chansStart (s : State) (f : StartFacts) : State :=
  let s0 := s.each (State.chanStart f) (List.range 32)
  let s1 := if s.factoryKnown then s0 else s0.sysTable 3
  s1.modNvm fun v => { v with sysOut := [(0, !s1.sideServes 0), (1, !s1.sideServes 31)] }

/-- What the facts name about the link end `k` = 4 * site + direction. -/
def endIn (l : List (Nat × Nat × Nat)) (k : Nat) : Option (Nat × Nat × Nat) := l.find? fun e => 4 * e.1 + e.2.1 == k

/-- How a link end qualifies: at its first test but where the facts name it (R572). -/
def qualOf (f : StartFacts) (k : Nat) : LinkQual :=
  match endIn f.d2dFail k with
  | some e => { st := .fail, retrains := 2, errors := min 0xFFFF e.2.2 }
  | none => match endIn f.d2dRetry k with
    | some e => { st := .passRetry, retrains := 2, errors := min 0xFFFF e.2.2 }
    | none => { st := .pass, retrains := 1, errors := 0 }

/-- Every D2D link end between dies in service is qualified (R572). -/
def State.qualify (s : State) (f : StartFacts) : State :=
  let ends := (allSites.filter s.routerUp).flatMap fun x => (List.range 4).filterMap fun d =>
    if (neighbour x d).any s.routerUp then some (4 * x + d) else none
  s.modBoot fun b => { b with qual := ends.map fun k => (k, qualOf f k) }

/-- A die whose links deliver clock takes the plan (R537). -/
def State.clockStart (s : State) (f : StartFacts) : State :=
  let mask (x : Nat) : BitVec 4 := (List.range 4).foldl (fun m d => if (neighbour x d).any s.routerUp then m ||| (1#4 <<< d) else m) 0#4
  let s1 := (computeSites.filter s.routerUp).foldl (fun s x => s.modDieClk x fun d => { d with link := mask x }) s
  (s1.layPlan (f.plan.filter fun e => decide (e.1 < 144) && !isGw e.1 && s.routerUp e.1 && planGood s1.fed f.plan e)).modClk fun c => { c with
    aOk := f.refA, bOk := f.refB, sel := if f.refA then .refA else if f.refB then .refB else .holdover, holdAt := s.clock.now }

/-- The common start of the cycle count (R217). -/
def State.commonStart (s : State) : State := { s with clock := { now := s.clock.now, start := s.clock.now } }

/-- Every site of an erg that is up has its router in service (R23, R531); the others have theirs out, with what is seated there. -/
def State.routersStart (s : State) : State :=
  let s1 := s.modPanel fun p => { p with routerUp := allSites.map fun x => (x, !s.ergOut (ergOf x)) }
  s1.each (fun s g => if s.routerUp (gwSite g) then s else s.modWdt (0x20 + g) fun w => { w with out := true }) (List.range 8)

/-- A site that stays silent in discovery is treated as failing BIST (R564). -/
def State.silentOut (s : State) (f : StartFacts) : State :=
  (s.each State.siteFaulty (f.silent.filter fun x => decide (x < 144) && s.routerUp x)).each State.loseStack
    (f.silentStacks.filter fun n => decide (n < 16))

/-- Firmware sets every port's medium from the saved settings (R357, R566). -/
def State.mediaStart (s : State) : State :=
  let w := leField (tget [] s.boot.settings (256 * 0x5003 + 0xFF)) 0 4
  s.each (fun s p => s.modPort p fun r => { r with medium := b2n (bitOf w p) }) (List.range 32)

/-! ### The store (R430) -/

/-- The commit records of a generation that release its slot: kind 3 (R426). -/
def released (rs : List CommitRec) (sgen : Nat) : Bool := rs.any fun r => r.kind == 3 && r.sgen == sgen

/-- The snapshot record in force: the unreleased one with the latest generation (R430). -/
def snapInForce (rs : List CommitRec) : Option CommitRec :=
  (rs.filter fun r => r.kind == 1 && !released rs r.sgen).foldl (fun best r => match best with
    | none => some r
    | some b => if later32 r.sgen b.sgen then some r else some b) none

/-- The store as the start finds it (R430, R431). -/
def State.storeStart (s0 : State) (f : StartFacts) : State :=
  let s := s0.modNvm Nvm.dropWaiting
  let rs := if f.badAreaA then s.nvm.areaB else if f.badAreaB then s.nvm.areaA else s.nvm.areaA
  match snapInForce rs with
  | none => s.modNvm fun v => { v with mode := .none_, valid := false, slots := [] }
  | some r => s.modNvm fun v => { v with
      mode := .idle, valid := true, slotB := r.slot == 1, sgen := r.sgen, base := r.step
      slots := tfilter (fun _ x => x.sgen == r.sgen) v.slots
      stepCommit := largest ((rs.filter fun x => x.kind == 2 && x.sgen == r.sgen).map (·.step) ++ [r.step]) }

/-! ### Step 7: images and their broadcast (R592, R599) -/

/-- Firmware's treatment of a receiver that a transfer of steward images has not reached (R592): a compute site, a gateway, a stack. -/
def State.unreached (s : State) (unit : Nat) : State :=
  if 160 ≤ unit then s
  else if 144 ≤ unit then s.loseStack (unit - 144)
  else match gwAt unit with
    | some g => (s.modWdt (0x20 + g) fun w => { w with out := true }).gatewayServicesOut g
    | none => s.retireSite unit false

/-- The receivers of the steward image types 2, 3 and 4. -/
def fwReceivers (type : Nat) : List Nat :=
  match type with
  | 2 => (List.range 8).map gwSite
  | 3 => computeSites
  | _ => (List.range 16).map (144 + ·)

/-- The images in force, and the receivers that get none or are not reached (R592, R599). -/
def State.imagesStart (s : State) (f : StartFacts) : State :=
  let s1 := s.modSec fun c => { c with inForce := [1, 2, 3, 4].filterMap fun t => (c.choose f.spoiled t).map fun x => (t, x) }
  let bare := ([2, 3, 4].filter fun t => !tmem s1.sec.inForce t).flatMap fwReceivers
  let up (x : Nat) : Bool := if x < 144 then s1.routerUp x else (s1.stack (x - 144)).mode != .lost
  let lost := (f.unreached ++ bare).eraseDups.filter up
  let s2 := s1.modBoot fun b => { b with bcast := (allSites.filter up).map fun x =>
    (x, { result := if lost.contains x then 3 else 2, rounds := if lost.contains x then 3 else 0, xfer := 0 }) }
  if lost.isEmpty then s2 else (s2.raise 0x0C03 panelNode noUnit []).each State.unreached lost

/-! ### Step 10: the map (R42, R61, R655) -/

/-- The site that an unbound die of a record held: what the device knows of it, else what the other copy says, else site 0 (R655, log entry 233). -/
def State.heldSite (s : State) (ld : Nat) : Nat :=
  let of (r : Option MapRecord) : Option Nat := r.bind fun x => tfind x.ldSite ld
  ((tfind s.panel.away ld).or ((of s.panel.copyA).or (of s.panel.copyB))).getD 0

/-- The record's map on the sites as they now are (R61), a record of manufacture in copy A (log entry 30); its unbound dies count from the sites that they held (R59, R655). -/
def State.takeRecord (s : State) (r : MapRecord) (b : Bool) (memory : Bool) : State :=
  s.modPanel fun p => { p with
    role := computeSites.map fun x => (x, startRole (s.ergOut (ergOf x)) (tget .dark r.role x))
    away := ((List.range 128).filter fun n => !tmem r.ldSite n).map fun n => (n, s.heldSite n)
    ldSite := r.ldSite, rowFault := if memory then [] else r.rowFault, mapGen := r.gen, inForceB := b
    copyA := if p.copyA.isNone && p.copyB.isNone then some r else p.copyA }

/-- Rest positions of every bound row (R35, R37). -/
def State.restStart (s : State) : State :=
  s.modPanel fun p => { p with rest := p.ldSite.flatMap fun e => (List.range 8).map fun row => (8 * e.1 + row, s.restFor e.2 row) }

/-- Stacks whose erg stays dark are unpowered (R530); the others are READY, with the spares of the record (R319). -/
def State.stacksStart (s : State) (spares : Tab Nat) : State :=
  let dark := (List.range 16).filter fun n => (List.range 16).any fun e => s.ergOut e && (stacksOfErg e).contains n
  (s.each (fun s n => s.modStack n fun k => { k with mode := .ready, spares := spareTable spares n }) (List.range 16)).each State.loseStack dark

/-- Dies whose sites are lost leave them, and every unbound die takes its own site again or a spare (R50, R655). -/
def State.bindStart (s : State) : State :=
  let lost := s.lostDies
  let s1 := lost.foldl (fun s e => s.unbindDie e.1 e.2) s
  let s2 := s1.rebind s1.spares
  let ms : List Moved := s2.unbound.map fun e => ⟨e.1, e.2, none⟩
  if lost.isEmpty ∨ ms.isEmpty then s2 else s2.modPanel fun p => { p with relay := relayOf 4 ms p.relay }

/-- Step 10: the map is confirmed, a record committed if anything changed, and the panel is READY, or SHORT where dies stay unbound (R59). -/
def State.confirm (s : State) (r : MapRecord) : State :=
  let s1 := s.bindStart.restStart
  let same := decide (s1.panel.role = r.role) && decide (s1.panel.ldSite = r.ldSite) && decide (s1.panel.rowFault = r.rowFault) &&
    decide (s1.stackSpares = r.spares)
  let s2 := if same then s1.modPanel fun p => { p with stackSpare := r.spares } else s1.commitRecord
  let s3 := (s2.migrate).modPanel fun p => { p with
    confirmed := true, restSeen := p.rest
    die := computeSites.map fun x => (x, if s2.roleOf x = .bound ∨ s2.roleOf x = .spare then DieMode.ready else .off) }
  let s4 := s3.each State.dress s3.servedSites
  let step := s4.stepWanted
  let s5 := (s4.modClk fun c => { c with step := step, next := step }).setSetpoints step
  let v := s5.mesh.version s5.mesh.versions.1
  let s6 := s5.inForce v
  if s6.panel.away.isEmpty then s6.modPanel fun p => { p with mode := .ready }
  else (s6.modPanel fun p => { p with mode := .short }).raise 0x0103 panelNode noUnit []

/-! ### The start -/

/-- Steps 5 to 10, once a panel steward runs (R564 to R573, R592, R42). -/
def State.bringUp (s : State) (f : StartFacts) (codeA codeB : Nat) : State :=
  let sel := bistSel (match (tget [] s.boot.settings (256 * 0x5002 + 0xFF)) with
    | b :: _ => b.toNat
    | [] => 3)
  match s.startRecord f with
  | none =>
    let s1 := ((s.chansStart f).clockStart f).commonStart
    (s1.bootStat f 10 codeA codeB).raise 0x0102 panelNode noUnit []
  | some (r, b) =>
    let s1 := ((s.takeRecord r b (bitOf sel 0)).stacksStart r.spares).storeStart f
    let s2 := ((s1.chansStart f).silentOut f).mediaStart
    let s3 := (s2.qualify f).clockStart f |>.commonStart
    let s4 := s3.imagesStart f
    let fs := f.bist.filter fun x => BistFailureSelected sel x && (match bistSite x with
      | some x => decide (x < 144) && !s4.ergOut (ergOf x)
      | none => true)
    let s5 := fs.foldl State.bistFix (s4.bistRan sel (allSites.filter fun x => !s4.ergOut (ergOf x))
      ((List.range 16).filter fun n => (s4.stack n).mode != .lost))
    let bad := f.d2dFail.filter fun e => decide (e.1 < 144)
    let s6 := (bad.foldl (fun s e => (s.d2dEvent e.1).linkDead e.1 e.2.1) s5).attachAnew
    let s7 := ((s6.confirm r).bootStat f 0xF codeA codeB).raise 0x0104 panelNode noUnit []
    if s7.panel.mode = .ready then (s7.sec.inForce.map fun e => e.2.2).foldl State.advanceFuses s7 else s7

/-- R559: with the input in range, and nothing started since power came, the device runs the steps of cold start. -/
def execColdStart (facts : StartFacts) (s : State) : Out :=
  let f := facts
  if s.panel.mode ≠ .starting ∨ s.pwr.level ≠ .normal ∨ s.pwr.stopped ∨ s.pwr.stopping ∨ !s.boot.boot.isEmpty then .next s
  else
    let s1 := ((s.each (State.ergStart f) (List.range 16)).routersStart.settingsStart.firmware f)
    let s2 : State := { s1 with sec := s1.sec.levelBanks, mc := { s1.mc with straps := f.straps.toNat } }
    let s3 := s2.each (State.jistoStart f) [0, 1]
    let image := (s3.rootImage f).isSome
    let a := f.rootA && image && s3.routerUp 13
    let b := f.rootB && image && s3.routerUp 130
    let code (ok : Bool) : Nat := if ok then 0 else 0x110
    if !a && !b then
      let s4 := s3.bootStat f 4 0x110 0x110
      .next { s4 with evq := { s4.evq with buffer := s4.evq.buffer ++ [(⟨0x0C01, s3.tick32, panelNode, noUnit, []⟩ : EventRec)] } }
    else .next ((s3.stewardsStart a b).bringUp f (code a) (code b))

end Sys2Proof.Machine
end

