-- ==== Sys2Proof/Machine/Bcast.lean ====
section
/-! DEFINITION. Saved link settings and live retrains (R565 to R578), and firmware broadcast (R588 to R593). -/

namespace Sys2Proof.Machine

open Sys2Proof

/-! ### Saved link settings (R565 to R567) -/

/-- An entry of a settings part (R566). -/
def settingsEntry (e : Nat × List (BitVec 8)) : List (BitVec 8) :=
  leBytes 2 (e.1 / 256) ++ leBytes 1 e.1 ++ [0#8] ++ (e.2 ++ List.replicate 12 0#8).take 12

/-- A part of a settings set, one codeword (R565). -/
def settingsPart (sgen parts part : Nat) (es : List (Nat × List (BitVec 8))) : List (BitVec 8) :=
  (leBytes 4 0x534C564B ++ leBytes 2 1 ++ leBytes 1 part ++ leBytes 1 parts ++ leBytes 4 sgen ++ leBytes 2 es.length ++
    List.replicate 18 0#8 ++ es.flatMap settingsEntry ++ List.replicate 4096 0#8).take 4096

/-- The parts of a set. -/
def settingsParts (sgen : Nat) (es : List (Nat × List (BitVec 8))) : List (List (BitVec 8)) :=
  let n := max 1 ((es.length + 253) / 254)
  (List.range n).map fun k => settingsPart sgen n k ((es.drop (254 * k)).take 254)

/-- Whether an entry names a unit of R566. -/
def settingsUnit (kind lane : Nat) : Bool :=
  match kind / 4096 with
  | 1 => decide (kind % 4096 < 576) && lane == 0xFF
  | 2 => decide (kind % 4096 < 32 ∧ lane < 8)
  | 3 => decide (kind % 4096 < 2 ∧ lane < 4)
  | 4 => decide (kind % 4096 < 256) && lane == 0xFF
  | 5 => decide (kind % 4096 < 4) && lane == 0xFF
  | _ => false

/-- R567: firmware writes a new set, with SGEN one higher, to both sides of the system area; an endurance limit in it holds from then on (R412). -/
def execSettingsWrite (entries : List (Nat × Nat × List (BitVec 8))) (s : State) : Out :=
  let good := entries.filter fun e => settingsUnit e.1 e.2.1 && e.2.2.length == 12
  let sgen := if s.boot.sgen = 2 ^ 32 - 1 then 1 else s.boot.sgen + 1
  let set := good.foldl (fun t e => tput t (256 * e.1 + e.2.1) e.2.2) s.boot.settings
  let s1 := s.modBoot fun b => { b with settings := set, sgen := sgen }
  let s2 := (settingsParts sgen set).foldl (fun s p => (s.sysPut false 2 p).sysPut true 2 p) s1
  let limit := leField (tget [] set (256 * 0x5001 + 0xFF)) 0 4
  .next (if limit = 0 then s2 else s2.modNvm fun v => { v with chans := tmap (fun _ c => { c with endurance := limit }) v.chans })

/-! ### Live retrains (R574 to R578) -/

/-- R574, R575, R577: a live retrain of a port, a Jisto link or a NAND channel ends in UP, UP_HALF or FAILED; one whose gateway has left service is
abandoned (R578). -/
def execRetrainDone (link : Fin 96) (pass fullPass : Bool) (lanesOk : BitVec 8) (peer : BitVec 16) (s : State) : Out :=
  let p := link.val
  let ok := pass || fullPass
  if p < 34 then
    let r := s.port p
    if r.mode ≠ .training ∨ !r.live then .next s
    else if ok then .next (s.trained p lanesOk peer.toNat)
    else .next (((s.modPort p fun x => { x with mode := .failed, lanesOk := lanesOk, live := false, trains := 0 }).failedLink p).linkQual p)
  else if p < 64 then .next s
  else
    let c := p - 64
    let m := (s.chan c).mode
    if (m ≠ .up ∧ m ≠ .training) ∨ !s.gwServes (c / 4) then .next s
    else if ok then .next (s.modChan c fun r => { r with mode := .up })
    else .next (((s.channelOut c none).modChan c fun r => { r with mode := .failed }).raise 0x0C02 (nandNode c) c [])

/-! ### Transfers (R588 to R593) -/

/-- The open transfer of a gateway. -/
def State.xferAt (s : State) (g : Nat) : Option BcastRec := tfind s.boot.xfers g

/-- Put back an open transfer. -/
def State.setXfer (s : State) (g : Nat) (t : BcastRec) : State := s.modBoot fun b => { b with xfers := tput b.xfers g t }

/-- Data packets of a transfer (R588). -/
def BcastRec.packets (t : BcastRec) : Nat := (t.object.length + 255) / 256

/-- Whether a transfer is one of the program's (R466, R593). -/
def BcastRec.ofProgram (t : BcastRec) : Bool := t.obj == 5 || t.obj == 7

/-- Whether a receiver is done: its report of a complete and matching object is ready or in. -/
def BcastRecv.whole (r : BcastRecv) : Bool :=
  (match r.reported with
   | some (0, _) => true
   | _ => false) ||
  (match r.ready with
   | some (0, _) => true
   | _ => false)

/-- Whether a receiver's complete report has reached the sender. -/
def BcastRecv.done (r : BcastRecv) : Bool :=
  match r.reported with
  | some (0, _) => true
  | _ => false

/-- Whether a receiver takes packets now: not while its die is in compute reset (R581, R593). -/
def State.hears (s : State) (unit : Nat) : Bool :=
  if unit < 144 then s.routerUp unit && tget .off s.panel.die unit != .computeReset else (s.stack (unit - 144)).mode != .lost

/-- Whether a receiver has been declared dead and is dropped from its transfers (R593). -/
def State.gone (s : State) (unit : Nat) : Bool :=
  if 144 ≤ unit then (s.stack (unit - 144)).mode == .lost
  else if isGw unit then !s.routerUp unit
  else s.roleOf unit == .retired || s.roleOf unit == .dark

/-- Set DIE_BCAST of a receiver that is a die or a gateway. -/
def State.bcastReg (s : State) (unit : Nat) (f : DieBcast → DieBcast) : State :=
  if unit < 144 then s.modBoot fun b => { b with bcast := tmod {} b.bcast unit f } else s

/-- R588, R589, R593: a gateway opens a transfer, where it has none open; its unit computes the object's CHECK, and one whose unit refuses it does not open
(R353, log entry 256). -/
def execBcastAnnounce (g : Gateway) (obj : BitVec 8) (image : Nat) (object : List (BitVec 8)) (sites plos heard : List Nat) (s : State) : Out :=
  let packets := (object.length + 255) / 256
  let o := obj.toNat
  if !s.gwServes g ∨ (s.xferAt g).isSome ∨ o < 1 ∨ 7 < o ∨ packets < 1 ∨ 32766 < packets then .next s
  else
    let recv := (sites.filter (decide <| · < 144)) ++ (plos.filter (decide <| · < 16)).map (144 + ·)
    let n := tget 0 s.boot.nextXfer g
    let t : BcastRec :=
      { xfer := n, obj := o, image := image, object := object, mapGen := if o = 5 ∨ o = 7 then s.job.hdr.mapGen else 0, round := 0
        recv := recv.foldl (fun t x => tput t x {}) [] }
    let k := s.askCvu g (t.req g)
    if k.2 = 2 then .next k.1
    else
    let s1 := ((k.1.setXfer g t).workCvu g 10).modBoot fun b => { b with nextXfer := tput b.nextXfer g ((n + 1) % 2 ^ 32) }
    .next ((recv.filter fun x => heard.contains x && s.hears x).foldl (fun s x => s.bcastReg x fun _ =>
      { result := 1, rounds := 0, xfer := n % 65536 }) s1)

/-- The cores of a site whose entry in the program's core map names a code image (R589). -/
def State.imageCores (s : State) (site image : Nat) : List Nat :=
  (s.cores.filter fun e => pSite e.1 == site && e.2.stat.valid && imgEntry s.job.image e.2.stat.lcore == image).map (·.1)

/-- A packet's eight bundles go into the instruction memory of a core (R589, R132). -/
def State.putPacket (s : State) (p num : Nat) (bytes : List (BitVec 8)) : State :=
  s.each (fun s i => s.putBundle p (8 * num + i) (BitVec.ofNat 256 (leField bytes (32 * i) 32)) false) (List.range 8)

/-- R588, R589: a data packet reaches a receiver, which keeps it; a code image's goes into instruction memory. -/
def execBcastData (g : Gateway) (unit : Fin 160) (num : BitVec 15) (bytes : List (BitVec 8)) (s : State) : Out :=
  match s.xferAt g with
  | none => .next s
  | some t =>
    match tfind t.recv unit with
    | none => .next s
    | some r =>
      let n := num.toNat
      if t.packets ≤ n ∨ !s.hears unit ∨ r.whole then .next s
      else
        let b := (bytes ++ List.replicate 256 0#8).take 256
        let s1 := s.setXfer g { t with recv := tput t.recv unit { r with got := tput r.got n b } }
        .next (if t.obj = 5 ∧ unit.val < 144 ∧ n < 256 then s1.each (fun s p => s.putPacket p n b) (s.imageCores unit t.image) else s1)

/-- The ranges of packets that a receiver misses, from packet `k` on, each a start and a count. -/
def missingFrom (got : Tab (List (BitVec 8))) (packets k : Nat) : Nat → List (Nat × Nat)
  | 0 => []
  | n + 1 =>
    if tmem got k then missingFrom got packets (k + 1) n
    else match missingFrom got packets (k + 1) n with
      | (a, c) :: r => if a = k + 1 then (k, c + 1) :: r else (k, 1) :: (a, c) :: r
      | [] => [(k, 1)]

/-- Up to 60 ranges, the 60th running to the last packet where there are more (R590). -/
def reportRanges (rs : List (Nat × Nat)) (packets : Nat) : List (Nat × Nat) :=
  if rs.length ≤ 60 then rs
  else rs.take 59 ++ ((rs.drop 59).take 1).map fun e => (e.1, packets - e.1)

/-- A receiver's report at the end of a round, and what it keeps (R590). -/
def BcastRec.judge (t : BcastRec) (r : BcastRecv) : BcastRecv :=
  let miss := missingFrom r.got t.packets 0 t.packets
  if !miss.isEmpty then { r with ready := some (1, reportRanges miss t.packets) }
  else if crc64 ((r.got.flatMap (·.2)).take t.object.length) = crc64 t.object then { r with ready := some (0, []) }
  else { r with got := [], ready := some (2, [(0, t.packets)]) }

/-- R590: an end packet reaches a receiver. -/
def execBcastEnd (g : Gateway) (unit : Fin 160) (s : State) : Out :=
  match s.xferAt g with
  | none => .next s
  | some t =>
    match tfind t.recv unit with
    | none => .next s
    | some r =>
      if !s.hears unit ∨ r.whole then .next s
      else
        let r1 := t.judge r
        let s1 := s.setXfer g { t with recv := tput t.recv unit r1 }
        .next (s1.bcastReg unit fun d => { d with xfer := t.xfer % 65536, result := if r1.whole then 2 else 1 })

/-- A transfer in which every receiver is complete closes. -/
def State.closeXfer (s : State) (g : Nat) (t : BcastRec) : State :=
  if t.recv.all fun e => e.2.done then s.closeBcast g else s.setXfer g t

/-- R590, R591: a receiver's report reaches the sender. -/
def execBcastReport (g : Gateway) (unit : Fin 160) (s : State) : Out :=
  match s.xferAt g with
  | none => .next s
  | some t =>
    match tfind t.recv unit with
    | none => .next s
    | some r =>
      match r.ready with
      | none => .next s
      | some x => .next (s.closeXfer g { t with recv := tput t.recv unit { r with ready := none, reported := some x } })

/-- Firmware's treatment of a receiver of a failed transfer (R592). -/
def State.bcastLost (s : State) (obj unit : Nat) : State :=
  if 144 ≤ unit then s.loseStack (unit - 144)
  else match gwAt unit with
    | some g =>
      if obj = 1 ∨ obj = 6 then s.stewardLost (if g = 7 then 0x11 else 0x10)
      else (s.modWdt (0x20 + g) fun w => { w with out := true }).gatewayServicesOut g
    | none => (((s.dropMoves unit).dieMode unit .off).setRole unit .retired).replaceLost false ST_CORE_HW

/-- R591 to R593: 200 µs after the end, a further round for the receivers that are not complete, or, after the third, the end of the
transfer. -/
def execReportWaitExpiry (g : Gateway) (s : State) : Out :=
  match s.xferAt g with
  | none => .next s
  | some t0 =>
    let t := { t0 with recv := tfilter (fun x _ => !s.gone x) t0.recv }
    let open_ := (t.recv.filter fun e => !e.2.done).map (·.1)
    if open_.isEmpty then .next (s.closeXfer g t)
    else if t.round < 3 then
      let t1 := { t with round := t.round + 1, recv := tmap (fun _ r => if r.done then r else { r with ready := none, reported := none }) t.recv }
      .next ((s.setXfer g t1).each (fun s x => s.bcastReg x fun d => { d with rounds := t1.round }) open_)
    else
      let s1 := (s.closeBcast g).each (fun s x => s.bcastReg x fun d =>
        { d with result := 3, xfer := t.xfer % 65536 }) open_
      .next ((s1.raise 0x0C03 panelNode noUnit []).each (fun s x => s.bcastLost t.obj x) open_)

end Sys2Proof.Machine
end

