-- ==== Sys2Proof/Machine/CoreCtl.lean ====
section
/-! DEFINITION. A core between its operations (02, 04): held bundles, the next bundle, stop and marks, arrivals, page-ins,
hardware checks, and CORE_CTL. -/

namespace Sys2Proof.Machine

open Sys2Proof

/-- R76, R77: each further cycle the outstanding accesses ask for their banks again, until the last is served and the bundle
issues. -/
def execHeldBundleIssue (p : PCore) (s : State) : Out := .next (s.serveOn p 1024)

/-- R134: the next bundle becomes ready; it is fetched at the program counter and meets its ready cycle. -/
def execHoldExpiry (p : PCore) (s : State) : Out := .next (s.issueBundle p (s.fetch p))

/-- R136: a bundle of NOPs with STOP set; the core becomes IDLE in cycle t + 1 + HOLD. -/
def execStop (p : PCore) (hold : BitVec 5) (s : State) : Out :=
  let s1 := s.issueBundle p { hdr := ⟨true, false, false, hold⟩ }
  match (s1.core p).pipe.stopAt with
  | some t => .next ((s1.advance (s1.realCycle p t)).sync p)
  | none => .next s1

/-- R134: a bundle of NOPs with PGM set. -/
def execPageMark (p : PCore) (hold : BitVec 5) (s : State) : Out :=
  .next (s.issueBundle p { hdr := ⟨false, false, true, hold⟩ })

/-- R135: the core arrives at TSYNC in cycle t + 1 + HOLD of its TSM bundle. -/
def execTsyncArrival (p : PCore) (s : State) : Out :=
  match (s.core p).pipe.arriveAt with
  | some t => .next ((s.advance (s.realCycle p t)).sync p)
  | none => .next s

/-- R85, R161: the page-in in progress reads its remaining granules, one a granted cycle, and completes; a queued one starts
in the cycle after. -/
def execPageinComplete (p : PCore) (s : State) : Out :=
  let s1 := s.sync p
  match (s1.core p).ctl.pagein with
  | some g => .next (((s1.advance (s1.realCycle p (max s1.clock.now g.cycle + (128 - g.next)))).syncCtx).sync p)
  | none => .next s1

/-- R658: a check outside any issuing bundle records ST_CORE_HW in this cycle, whatever the core is doing. An id of a gateway site names no
core (R33). -/
def execCoreHwCheck (p : PCore) (s : State) : Out :=
  .next (if isGw (pSite p) then s else (s.sync p).recordOffBundle p ST_CORE_HW none)

/-- R96 CMD 0x1: the core is held at its next bundle boundary; a bundle that it holds issues first. -/
def execHold (p : PCore) (s : State) : Out :=
  let s1 := s.sync p
  let c := s1.core p
  if c.stat.run = .running then
    if c.pipe.held.isSome then .next (s1.modPipe p fun k => { k with holdReq := true })
    else .next (s1.modStat p fun k => { k with run := .held })
  else .next s1

/-- R96 CMD 0x2: a held core runs on; its next bundle's cycle is not before the present one. -/
def execResume (p : PCore) (s : State) : Out :=
  let s1 := s.sync p
  let c := s1.core p
  if c.stat.run = .held then
    .next (s1.setCore p { c with
      stat := { c.stat with run := .running }
      ctl := { c.ctl with readyAt := c.ctl.readyAt.map fun t => max t s1.clock.now }
      pipe := { c.pipe with holdReq := false } })
  else .next (s1.modPipe p fun k => { k with holdReq := false })

/-- R96 CMD 0x3: accepted only in RESTING or IDLE. -/
def execSelfcheck (p : PCore) (s : State) : Out :=
  let s1 := s.sync p
  let c := s1.core p
  if isGw (pSite p) then .next s
  else if c.stat.run = .resting ∨ c.stat.run = .idle then
    .next (s1.setCore p { c with
      stat := { c.stat with run := .selfcheck }, pipe := { c.pipe with beforeCheck := c.stat.run } })
  else .next s1

end Sys2Proof.Machine
end

