-- ==== Sys2Proof/Machine/Ctrl.lean ====
section
/-! DEFINITION. The CTRL slot's operations (R173 to R193), each as the issue of a bundle that holds it alone. -/

namespace Sys2Proof.Machine

open Sys2Proof

/-- R138: a bundle whose slots are all NOP. -/
def execNop (p : PCore) (h : Header) (g : BitVec 5) (s : State) : Out :=
  .next (s.issueBundle p { hdr := h, ctrl := .nop, ctrlG := g })

/-- R173 MOVI. -/
def execMovi (p : PCore) (h : Header) (g : BitVec 5) (dst : BitVec 5) (imm : BitVec 16) (s : State) : Out :=
  .next (s.issueBundle p { hdr := h, ctrl := .movi dst imm, ctrlG := g })

/-- R173 MOVHI. -/
def execMovhi (p : PCore) (h : Header) (g : BitVec 5) (dst : BitVec 5) (imm : BitVec 16) (s : State) : Out :=
  .next (s.issueBundle p { hdr := h, ctrl := .movhi dst imm, ctrlG := g })

/-- R173 ADDI. -/
def execAddi (p : PCore) (h : Header) (g : BitVec 5) (dst : BitVec 5) (imm : BitVec 16) (s : State) : Out :=
  .next (s.issueBundle p { hdr := h, ctrl := .addi dst imm, ctrlG := g })

/-- R174 ALU FN ADD. -/
def execAluAdd (p : PCore) (h : Header) (g : BitVec 5) (dst s1 s2 : BitVec 5) (s : State) : Out :=
  .next (s.issueBundle p { hdr := h, ctrl := .alu .add dst s1 s2, ctrlG := g })

/-- R174 ALU FN SUB. -/
def execAluSub (p : PCore) (h : Header) (g : BitVec 5) (dst s1 s2 : BitVec 5) (s : State) : Out :=
  .next (s.issueBundle p { hdr := h, ctrl := .alu .sub dst s1 s2, ctrlG := g })

/-- R174 ALU FN MUL. -/
def execAluMul (p : PCore) (h : Header) (g : BitVec 5) (dst s1 s2 : BitVec 5) (s : State) : Out :=
  .next (s.issueBundle p { hdr := h, ctrl := .alu .mul dst s1 s2, ctrlG := g })

/-- R174 ALU FN AND. -/
def execAluAnd (p : PCore) (h : Header) (g : BitVec 5) (dst s1 s2 : BitVec 5) (s : State) : Out :=
  .next (s.issueBundle p { hdr := h, ctrl := .alu .and dst s1 s2, ctrlG := g })

/-- R174 ALU FN OR. -/
def execAluOr (p : PCore) (h : Header) (g : BitVec 5) (dst s1 s2 : BitVec 5) (s : State) : Out :=
  .next (s.issueBundle p { hdr := h, ctrl := .alu .or dst s1 s2, ctrlG := g })

/-- R174 ALU FN XOR. -/
def execAluXor (p : PCore) (h : Header) (g : BitVec 5) (dst s1 s2 : BitVec 5) (s : State) : Out :=
  .next (s.issueBundle p { hdr := h, ctrl := .alu .xor dst s1 s2, ctrlG := g })

/-- R174 ALU FN SHL. -/
def execAluShl (p : PCore) (h : Header) (g : BitVec 5) (dst s1 s2 : BitVec 5) (s : State) : Out :=
  .next (s.issueBundle p { hdr := h, ctrl := .alu .shl dst s1 s2, ctrlG := g })

/-- R174 ALU FN SHR. -/
def execAluShr (p : PCore) (h : Header) (g : BitVec 5) (dst s1 s2 : BitVec 5) (s : State) : Out :=
  .next (s.issueBundle p { hdr := h, ctrl := .alu .shr dst s1 s2, ctrlG := g })

/-- R174 ALU FN SRA. -/
def execAluSra (p : PCore) (h : Header) (g : BitVec 5) (dst s1 s2 : BitVec 5) (s : State) : Out :=
  .next (s.issueBundle p { hdr := h, ctrl := .alu .sra dst s1 s2, ctrlG := g })

/-- R174 ALU FN MIN. -/
def execAluMin (p : PCore) (h : Header) (g : BitVec 5) (dst s1 s2 : BitVec 5) (s : State) : Out :=
  .next (s.issueBundle p { hdr := h, ctrl := .alu .min dst s1 s2, ctrlG := g })

/-- R174 ALU FN MAX. -/
def execAluMax (p : PCore) (h : Header) (g : BitVec 5) (dst s1 s2 : BitVec 5) (s : State) : Out :=
  .next (s.issueBundle p { hdr := h, ctrl := .alu .max dst s1 s2, ctrlG := g })

/-- R174 ALU FN MINU. -/
def execAluMinu (p : PCore) (h : Header) (g : BitVec 5) (dst s1 s2 : BitVec 5) (s : State) : Out :=
  .next (s.issueBundle p { hdr := h, ctrl := .alu .minu dst s1 s2, ctrlG := g })

/-- R174 ALU FN MAXU. -/
def execAluMaxu (p : PCore) (h : Header) (g : BitVec 5) (dst s1 s2 : BitVec 5) (s : State) : Out :=
  .next (s.issueBundle p { hdr := h, ctrl := .alu .maxu dst s1 s2, ctrlG := g })

/-- R174 ALU FN FADD. -/
def execAluFadd (p : PCore) (h : Header) (g : BitVec 5) (dst s1 s2 : BitVec 5) (s : State) : Out :=
  .next (s.issueBundle p { hdr := h, ctrl := .alu .fadd dst s1 s2, ctrlG := g })

/-- R174 ALU FN FSUB. -/
def execAluFsub (p : PCore) (h : Header) (g : BitVec 5) (dst s1 s2 : BitVec 5) (s : State) : Out :=
  .next (s.issueBundle p { hdr := h, ctrl := .alu .fsub dst s1 s2, ctrlG := g })

/-- R174 ALU FN FMUL. -/
def execAluFmul (p : PCore) (h : Header) (g : BitVec 5) (dst s1 s2 : BitVec 5) (s : State) : Out :=
  .next (s.issueBundle p { hdr := h, ctrl := .alu .fmul dst s1 s2, ctrlG := g })

/-- R174 ALU FN FMIN. -/
def execAluFmin (p : PCore) (h : Header) (g : BitVec 5) (dst s1 s2 : BitVec 5) (s : State) : Out :=
  .next (s.issueBundle p { hdr := h, ctrl := .alu .fmin dst s1 s2, ctrlG := g })

/-- R174 ALU FN FMAX. -/
def execAluFmax (p : PCore) (h : Header) (g : BitVec 5) (dst s1 s2 : BitVec 5) (s : State) : Out :=
  .next (s.issueBundle p { hdr := h, ctrl := .alu .fmax dst s1 s2, ctrlG := g })

/-- R176 CMP EQ. -/
def execCmpEq (p : PCore) (h : Header) (g : BitVec 5) (dst s1 s2 : BitVec 5) (s : State) : Out :=
  .next (s.issueBundle p { hdr := h, ctrl := .cmp .eq dst s1 s2, ctrlG := g })

/-- R176 CMP NE. -/
def execCmpNe (p : PCore) (h : Header) (g : BitVec 5) (dst s1 s2 : BitVec 5) (s : State) : Out :=
  .next (s.issueBundle p { hdr := h, ctrl := .cmp .ne dst s1 s2, ctrlG := g })

/-- R176 CMP LT. -/
def execCmpLt (p : PCore) (h : Header) (g : BitVec 5) (dst s1 s2 : BitVec 5) (s : State) : Out :=
  .next (s.issueBundle p { hdr := h, ctrl := .cmp .lt dst s1 s2, ctrlG := g })

/-- R176 CMP LE. -/
def execCmpLe (p : PCore) (h : Header) (g : BitVec 5) (dst s1 s2 : BitVec 5) (s : State) : Out :=
  .next (s.issueBundle p { hdr := h, ctrl := .cmp .le dst s1 s2, ctrlG := g })

/-- R176 CMP LTU. -/
def execCmpLtu (p : PCore) (h : Header) (g : BitVec 5) (dst s1 s2 : BitVec 5) (s : State) : Out :=
  .next (s.issueBundle p { hdr := h, ctrl := .cmp .ltu dst s1 s2, ctrlG := g })

/-- R176 CMP LEU. -/
def execCmpLeu (p : PCore) (h : Header) (g : BitVec 5) (dst s1 s2 : BitVec 5) (s : State) : Out :=
  .next (s.issueBundle p { hdr := h, ctrl := .cmp .leu dst s1 s2, ctrlG := g })

/-- R176 CMP FEQ. -/
def execCmpFeq (p : PCore) (h : Header) (g : BitVec 5) (dst s1 s2 : BitVec 5) (s : State) : Out :=
  .next (s.issueBundle p { hdr := h, ctrl := .cmp .feq dst s1 s2, ctrlG := g })

/-- R176 CMP FLT. -/
def execCmpFlt (p : PCore) (h : Header) (g : BitVec 5) (dst s1 s2 : BitVec 5) (s : State) : Out :=
  .next (s.issueBundle p { hdr := h, ctrl := .cmp .flt dst s1 s2, ctrlG := g })

/-- R176 CMP FLE. -/
def execCmpFle (p : PCore) (h : Header) (g : BitVec 5) (dst s1 s2 : BitVec 5) (s : State) : Out :=
  .next (s.issueBundle p { hdr := h, ctrl := .cmp .fle dst s1 s2, ctrlG := g })

/-- R176 CMP NAN. -/
def execCmpNan (p : PCore) (h : Header) (g : BitVec 5) (dst s1 s2 : BitVec 5) (s : State) : Out :=
  .next (s.issueBundle p { hdr := h, ctrl := .cmp .nan dst s1 s2, ctrlG := g })

/-- R177 PLOG AND. -/
def execPlogAnd (p : PCore) (h : Header) (g : BitVec 5) (dst s1 s2 : BitVec 5) (s : State) : Out :=
  .next (s.issueBundle p { hdr := h, ctrl := .plog .and dst s1 s2, ctrlG := g })

/-- R177 PLOG OR. -/
def execPlogOr (p : PCore) (h : Header) (g : BitVec 5) (dst s1 s2 : BitVec 5) (s : State) : Out :=
  .next (s.issueBundle p { hdr := h, ctrl := .plog .or dst s1 s2, ctrlG := g })

/-- R177 PLOG XOR. -/
def execPlogXor (p : PCore) (h : Header) (g : BitVec 5) (dst s1 s2 : BitVec 5) (s : State) : Out :=
  .next (s.issueBundle p { hdr := h, ctrl := .plog .xor dst s1 s2, ctrlG := g })

/-- R177 PLOG ANDN. -/
def execPlogAndn (p : PCore) (h : Header) (g : BitVec 5) (dst s1 s2 : BitVec 5) (s : State) : Out :=
  .next (s.issueBundle p { hdr := h, ctrl := .plog .andn dst s1 s2, ctrlG := g })

/-- R177 PLOG NOT. -/
def execPlogNot (p : PCore) (h : Header) (g : BitVec 5) (dst s1 : BitVec 5) (s : State) : Out :=
  .next (s.issueBundle p { hdr := h, ctrl := .plog .not dst s1 0#5, ctrlG := g })

/-- R177 PLOG MOV. -/
def execPlogMov (p : PCore) (h : Header) (g : BitVec 5) (dst s1 : BitVec 5) (s : State) : Out :=
  .next (s.issueBundle p { hdr := h, ctrl := .plog .mov dst s1 0#5, ctrlG := g })

/-- R177 PLOG ANY. -/
def execPlogAny (p : PCore) (h : Header) (g : BitVec 5) (dst s1 : BitVec 5) (s : State) : Out :=
  .next (s.issueBundle p { hdr := h, ctrl := .plog .any dst s1 0#5, ctrlG := g })

/-- R177 PLOG ALL. -/
def execPlogAll (p : PCore) (h : Header) (g : BitVec 5) (dst s1 : BitVec 5) (s : State) : Out :=
  .next (s.issueBundle p { hdr := h, ctrl := .plog .all dst s1 0#5, ctrlG := g })

/-- R177 PLOG SETALL. -/
def execPlogSetall (p : PCore) (h : Header) (g : BitVec 5) (dst : BitVec 5) (s : State) : Out :=
  .next (s.issueBundle p { hdr := h, ctrl := .plog .setall dst 0#5 0#5, ctrlG := g })

/-- R177 PLOG CLRALL. -/
def execPlogClrall (p : PCore) (h : Header) (g : BitVec 5) (dst : BitVec 5) (s : State) : Out :=
  .next (s.issueBundle p { hdr := h, ctrl := .plog .clrall dst 0#5 0#5, ctrlG := g })

/-- R173 JMP. -/
def execJmp (p : PCore) (h : Header) (g : BitVec 5) (imm : BitVec 21) (s : State) : Out :=
  .next (s.issueBundle p { hdr := h, ctrl := .jmp imm, ctrlG := g })

/-- R178 JMPR. -/
def execJmpr (p : PCore) (h : Header) (g : BitVec 5) (s1 : BitVec 5) (s : State) : Out :=
  .next (s.issueBundle p { hdr := h, ctrl := .jmpr s1, ctrlG := g })

/-- R179 LOOP. -/
def execLoop (p : PCore) (h : Header) (g : BitVec 5) (dst : BitVec 5) (imm : BitVec 16) (s : State) : Out :=
  .next (s.issueBundle p { hdr := h, ctrl := .loop dst imm, ctrlG := g })

/-- R180 TSYNC. -/
def execTsync (p : PCore) (h : Header) (g : BitVec 5) (imm : BitVec 21) (s : State) : Out :=
  .next (s.issueBundle p { hdr := h, ctrl := .tsync imm, ctrlG := g })

/-- R181 ACCSWAP. -/
def execAccswap (p : PCore) (h : Header) (g : BitVec 5) (s : State) : Out :=
  .next (s.issueBundle p { hdr := h, ctrl := .accswap, ctrlG := g })

/-- R182 PAGEIN. -/
def execPagein (p : PCore) (h : Header) (g : BitVec 5) (imm : BitVec 21) (s : State) : Out :=
  .next (s.issueBundle p { hdr := h, ctrl := .pagein imm, ctrlG := g })

/-- R183 LOADHINT. -/
def execLoadhint (p : PCore) (h : Header) (g : BitVec 5) (imm : BitVec 21) (s : State) : Out :=
  .next (s.issueBundle p { hdr := h, ctrl := .loadhint imm, ctrlG := g })

/-- R192 SRSEED. -/
def execSrseed (p : PCore) (h : Header) (g : BitVec 5) (s1 s2 : BitVec 5) (s : State) : Out :=
  .next (s.issueBundle p { hdr := h, ctrl := .srseed s1 s2, ctrlG := g })

/-- R188 WAITSTR. -/
def execWaitstr (p : PCore) (h : Header) (g : BitVec 5) (dst s1 : BitVec 5) (fn : BitVec 6) (s : State) : Out :=
  .next (s.issueBundle p { hdr := h, ctrl := .waitstr dst s1 fn, ctrlG := g })

/-- R188 to R190: once the count is reached or the context has left ACTIVE, a bundle that WAITSTR holds meets its first
request cycle; the cycles it was held are stream stall cycles. -/
def execWaitstrRelease (p : PCore) (s : State) : Out :=
  let s1 := (s.sync p).syncCtx
  match (s1.core p).pipe.held with
  | some h =>
    if h.wait && !s1.waits p h.bundle then
      let d := s1.clock.now - h.since
      .next (((s1.modPipe p fun c => { c with held := none }).modCtl p fun c => { c with
        tickStream := satAdd 0xFF c.tickStream d, stallSum := satAdd 0xFFFF c.stallSum d }).firstRequest p h.bundle)
    else .next s1
  | none => .next s1

/-- R191 STRCNT. -/
def execStrcnt (p : PCore) (h : Header) (g : BitVec 5) (dst : BitVec 5) (fn : BitVec 6) (s : State) : Out :=
  .next (s.issueBundle p { hdr := h, ctrl := .strcnt dst fn, ctrlG := g })

/-- R193 CSRRD FN 0x00. -/
def execCsrrdLcore (p : PCore) (h : Header) (g : BitVec 5) (dst : BitVec 5) (s : State) : Out :=
  .next (s.issueBundle p { hdr := h, ctrl := .csrrd .lcore dst, ctrlG := g })

/-- R193 CSRRD FN 0x01. -/
def execCsrrdTickLo (p : PCore) (h : Header) (g : BitVec 5) (dst : BitVec 5) (s : State) : Out :=
  .next (s.issueBundle p { hdr := h, ctrl := .csrrd .tickLo dst, ctrlG := g })

/-- R193 CSRRD FN 0x02. -/
def execCsrrdTickHi (p : PCore) (h : Header) (g : BitVec 5) (dst : BitVec 5) (s : State) : Out :=
  .next (s.issueBundle p { hdr := h, ctrl := .csrrd .tickHi dst, ctrlG := g })

/-- R193 CSRRD FN 0x03. -/
def execCsrrdCycle (p : PCore) (h : Header) (g : BitVec 5) (dst : BitVec 5) (s : State) : Out :=
  .next (s.issueBundle p { hdr := h, ctrl := .csrrd .cycle dst, ctrlG := g })

/-- R193 CSRRD FN 0x04. -/
def execCsrrdMapGen (p : PCore) (h : Header) (g : BitVec 5) (dst : BitVec 5) (s : State) : Out :=
  .next (s.issueBundle p { hdr := h, ctrl := .csrrd .mapGen dst, ctrlG := g })

/-- R193 CSRRD FN 0x05. -/
def execCsrrdTickLen (p : PCore) (h : Header) (g : BitVec 5) (dst : BitVec 5) (s : State) : Out :=
  .next (s.issueBundle p { hdr := h, ctrl := .csrrd .tickLen dst, ctrlG := g })

end Sys2Proof.Machine
end

