-- ==== Sys2Proof/Machine/Memory.lean ====
section
/-! DEFINITION. The LD0 and LS1 slots' operations (R205 to R207). -/

namespace Sys2Proof.Machine

open Sys2Proof

/-- A bundle that holds one load, in the LD0 slot or in the LS1 slot. -/
def loadBundle (h : Header) (g : BitVec 5) (ls1 : Bool) (op : MemOp) (reg : BitVec 6) (base : BitVec 4) (off : BitVec 16) :
    Slots :=
  if ls1 then { hdr := h, ls1 := op, ls1G := g, ls1Reg := reg, ls1Base := base, ls1Off := off }
  else { hdr := h, ld0 := op, ld0G := g, ld0Reg := reg, ld0Base := base, ld0Off := off }

/-- R205 LDW, in the LD0 slot or the LS1 slot. -/
def execLdw (p : PCore) (h : Header) (g : BitVec 5) (ls1 : Bool) (reg : BitVec 6) (base : BitVec 4) (off : BitVec 16) (s : State) : Out :=
  .next (s.issueBundle p (loadBundle h g ls1 .ldw reg base off))

/-- R205 LDD. -/
def execLdd (p : PCore) (h : Header) (g : BitVec 5) (ls1 : Bool) (reg : BitVec 6) (base : BitVec 4) (off : BitVec 16) (s : State) : Out :=
  .next (s.issueBundle p (loadBundle h g ls1 .ldd reg base off))

/-- R205 LDQ0 to LDQ3. -/
def execLdq (p : PCore) (h : Header) (g : BitVec 5) (ls1 : Bool) (q : BitVec 2) (reg : BitVec 6) (base : BitVec 4) (off : BitVec 16) (s : State) : Out :=
  .next (s.issueBundle p (loadBundle h g ls1 (.ldq q) reg base off))

/-- R205 LDH0, LDH1. -/
def execLdh (p : PCore) (h : Header) (g : BitVec 5) (ls1 : Bool) (hi : Bool) (reg : BitVec 6) (base : BitVec 4) (off : BitVec 16) (s : State) : Out :=
  .next (s.issueBundle p (loadBundle h g ls1 (.ldh hi) reg base off))

/-- R205 LDV. -/
def execLdv (p : PCore) (h : Header) (g : BitVec 5) (ls1 : Bool) (reg : BitVec 6) (base : BitVec 4) (off : BitVec 16) (s : State) : Out :=
  .next (s.issueBundle p (loadBundle h g ls1 .ldv reg base off))

/-- R207 LDSC64. -/
def execLdsc64 (p : PCore) (h : Header) (g : BitVec 5) (ls1 : Bool) (reg : BitVec 6) (base : BitVec 4) (off : BitVec 16) (s : State) : Out :=
  .next (s.issueBundle p (loadBundle h g ls1 .ldsc64 reg base off))

/-- R207 LDSC256. -/
def execLdsc256 (p : PCore) (h : Header) (g : BitVec 5) (ls1 : Bool) (reg : BitVec 6) (base : BitVec 4) (off : BitVec 16) (s : State) : Out :=
  .next (s.issueBundle p (loadBundle h g ls1 .ldsc256 reg base off))

/-- R205 STW. -/
def execStw (p : PCore) (h : Header) (g : BitVec 5) (reg : BitVec 6) (base : BitVec 4) (off : BitVec 16) (s : State) : Out :=
  .next (s.issueBundle p { hdr := h, ls1 := .stw, ls1G := g, ls1Reg := reg, ls1Base := base, ls1Off := off })

/-- R205 STD. -/
def execStd (p : PCore) (h : Header) (g : BitVec 5) (reg : BitVec 6) (base : BitVec 4) (off : BitVec 16) (s : State) : Out :=
  .next (s.issueBundle p { hdr := h, ls1 := .std, ls1G := g, ls1Reg := reg, ls1Base := base, ls1Off := off })

/-- R205 STQ0 to STQ3. -/
def execStq (p : PCore) (h : Header) (g : BitVec 5) (q : BitVec 2) (reg : BitVec 6) (base : BitVec 4) (off : BitVec 16) (s : State) : Out :=
  .next (s.issueBundle p { hdr := h, ls1 := .stq q, ls1G := g, ls1Reg := reg, ls1Base := base, ls1Off := off })

/-- R205 STH0, STH1. -/
def execSth (p : PCore) (h : Header) (g : BitVec 5) (hi : Bool) (reg : BitVec 6) (base : BitVec 4) (off : BitVec 16) (s : State) : Out :=
  .next (s.issueBundle p { hdr := h, ls1 := .sth hi, ls1G := g, ls1Reg := reg, ls1Base := base, ls1Off := off })

/-- R205 STV. -/
def execStv (p : PCore) (h : Header) (g : BitVec 5) (reg : BitVec 6) (base : BitVec 4) (off : BitVec 16) (s : State) : Out :=
  .next (s.issueBundle p { hdr := h, ls1 := .stv, ls1G := g, ls1Reg := reg, ls1Base := base, ls1Off := off })

end Sys2Proof.Machine
end

