-- ==== Sys2Proof/Machine/Regs.lean ====
section
/-! DEFINITION. The panel control space as it reads (R19): every register of the spec at its offset, with its width in bytes and its
value. Reads at the wrong width, and the latch of R625, are in RegOps. -/

namespace Sys2Proof.Machine

open Sys2Proof

/-- A register: its width in bytes, 4 or 8, and what it reads. -/
abbrev RegVal := Option (Nat × Nat)

/-- A 32-bit register. -/
def r32 (v : Nat) : RegVal := some (4, v % 2 ^ 32)
/-- A 64-bit register. -/
def r64 (v : Nat) : RegVal := some (8, v % 2 ^ 64)

/-- A field at its lowest bit. -/
def fld (v lo : Nat) : Nat := v * 2 ^ lo
/-- A flag at its bit. -/
def flag (b : Bool) (lo : Nat) : Nat := b2n b * 2 ^ lo
/-- One bit for each of `n` things. -/
def bitsFor (n : Nat) (f : Nat → Bool) : Nat := (List.range n).foldl (fun acc i => acc + flag (f i) i) 0

/-! ### GLB (01) and background work (18) -/

/-- GLB_PANEL_STATE.STATE (R62). -/
def panelCode : PanelMode → Nat
  | .starting => 0
  | .ready => 1
  | .running => 2
  | .relay => 3
  | .short => 4
  | .test => 5

/-- Retired compute sites. -/
def State.retiredSites (s : State) : Nat := (computeSites.filter fun x => s.roleOf x == .retired).length

/-- GLB_PANEL_STATE (R62). -/
def State.panelStateReg (s : State) : Nat :=
  (if s.panel.confirmed then fld s.spares.length 16 + fld s.retiredSites 8 else 0) + panelCode s.panel.mode

/-- GLB_PANEL_ID (R62). -/
def panelIdReg : Nat := fld 0x0144 16 + fld Config.stepping.toNat 8

/-- GLB_LD_SITE (R62). -/
def State.ldSiteReg (s : State) (n : Nat) : Nat :=
  if s.panel.confirmed then
    match s.siteOfLd n with
    | some x => flag true 31 + fld (ergOf x) 8 + x
    | none => 0
  else 0

/-- GLB_SITE_INFO (R62). -/
def State.siteInfoReg (s : State) (x : Nat) : Nat :=
  let a := stacksAt x
  let role := if s.panel.confirmed then roleCode (s.roleOf x) else if isGw x then 0 else 4
  fld role 29 + flag (s.panel.confirmed && tget false s.panel.routerUp x) 28 +
  (if s.panel.confirmed then fld ((s.ldAt x).getD 0) 20 else 0) + fld (ergOf x) 16 +
  flag (decide (2 ≤ a.length)) 10 + flag (decide (1 ≤ a.length)) 9 + fld (a.getD 1 0) 4 + a.getD 0 0

/-- GLB_ROW_MAP (R62, R63). -/
def State.rowMapReg (s : State) (n : Nat) : Nat :=
  if s.panel.confirmed then
    (match s.siteOfLd n with
     | some x => fld (bitsFor 8 fun k => (s.rowFaultOf x k).isSome) 32
     | none => 0) +
    (List.range 8).foldl (fun acc k => acc + fld (tget 12 s.panel.restSeen (8 * n + k)) (4 * k)) 0
  else 0xCCCCCCCC

/-- BG_ACT (18). -/
def BgAct.reg (a : BgAct) : Nat := flag a.ovf 31 + flag a.urgent 30 + fld a.missed 22 + fld a.donePct 15

/-- The GLB block (R62, 18). -/
def State.glbReg (s : State) (o : Nat) : RegVal :=
  if o = 0 then r32 panelIdReg
  else if o = 4 then r32 s.panelStateReg
  else if o = 8 then r32 (if s.panel.confirmed then s.panel.mapGen.toNat else 0)
  else if o = 0xC then
    let r := s.panel.relay
    r32 (if s.panel.confirmed then fld r.result 28 + fld r.ld 20 + fld r.oldSite 12 + fld r.newSite 4 else 0)
  else if 0x400 ≤ o ∧ o < 0x600 ∧ o % 4 = 0 then r32 (s.ldSiteReg ((o - 0x400) / 4))
  else if 0x800 ≤ o ∧ o < 0xA40 ∧ o % 4 = 0 then r32 (s.siteInfoReg ((o - 0x800) / 4))
  else if 0x1000 ≤ o ∧ o < 0x1400 ∧ o % 8 = 0 then r64 (s.rowMapReg ((o - 0x1000) / 8))
  else if o = 0x2000 then r32 s.bg.spacing
  else if 0x2010 ≤ o ∧ o < 0x202C ∧ o % 4 = 0 then r32 (s.bgAct ((o - 0x2010) / 4)).reg
  else none

/-! ### HIF, MBX and EVQ (12, 18) -/

/-- HIF_LINK_STAT.STATE and, but for its two further states, ZFP_PORT_STAT.STATE. -/
def linkCode (hif : Bool) : LinkMode → Nat
  | .down => 0
  | .training => 1
  | .up => 2
  | .upHalf => 3
  | .disabled => 4
  | .failed => if hif then 4 else 5

/-- STATE of a status word (R455). -/
def cmdCode : CmdState → Nat
  | .empty => 0
  | .accepted => 1
  | .running => 2
  | .done => 3
  | .failed => 4
  | .aborting => 5
  | .aborted => 6
  | .rejected => 7

/-- A status word (R455). -/
def Status.reg (w : Status) : Nat :=
  fld (cmdCode w.st) 60 + fld (w.code % 4096) 48 + fld (w.phase % 256) 40 + fld (w.progress % 2 ^ 24) 16 + w.seq % 65536

/-- HIF_QSTAT (12): WAIT by R445. -/
def State.qstatReg (s : State) (q : Nat) : Nat :=
  let r := s.queue q
  flag (r.enable && r.head != r.tail && !(s.status q r.head).st.free) 31 + flag r.moved 30 + flag (s.queueGw7 q) 29 + r.head

/-- A mailbox's registers, but for MBX_LOCK as a read that does not claim. -/
def MbxRec.reg (b : MbxRec) (m o : Nat) : RegVal :=
  if o = 0 then r32 b.owner
  else if o = 4 then r32 (flag b.pending 31 + b.service)
  else if o = 8 then r32 (flag b.done 31 + b.rcode)
  else if o = 0xC then r32 (flag (decide (m < 8)) 31 + b.receiver)
  else if 0x40 ≤ o ∧ o < 0x80 ∧ o % 4 = 0 then r32 (b.word ((o - 0x40) / 4))
  else none

/-- The HIF, MBX and EVQ registers, by offset from 0x010_0000. -/
def State.hifReg (s : State) (o : Nat) : RegVal :=
  if o < 0x40 then
    let r := s.port (32 + o / 0x20)
    if o % 0x20 = 0 then r32 (fld (linkCode true r.mode) 28 + fld (r.lanesOk.toNat % 16) 24)
    else if o % 0x20 = 8 then r64 (flag r.fecOvf 63 + fld r.corr 32 + fld r.replays 16 + r.uncorr)
    else none
  else if 0x1000 ≤ o ∧ o < 0x1400 then
    let q := (o - 0x1000) / 16
    let r := s.queue q
    if o % 16 = 0 then r32 (flag r.enable 31 + fld r.cls 29 + r.depth)
    else if o % 16 = 4 then r32 r.tail
    else if o % 16 = 8 then r32 (s.qstatReg q)
    else none
  else if o = 0x2000 then r64 s.job.gen
  else if o = 0x2008 then r32 s.job.id
  else if o = 0x200C then r32 (fld s.job.regQueue 26 + fld s.job.regSlot 14)
  else if o = 0x2010 then r64 s.job.regFirst
  else if o = 0x2018 then r64 s.job.regStep
  else if o = 0x3000 then r64 s.evq.base
  else if o = 0x3008 then r32 (flag s.evq.enable 31 + s.evq.size)
  else if o = 0x300C then r32 s.evq.head
  else if o = 0x3010 then r32 (flag s.evq.ovf 31 + fld s.evq.lost 15 + s.evq.tail)
  else if 0x80000 ≤ o ∧ o < 0x82000 then (s.box ((o - 0x80000) / 256)).reg ((o - 0x80000) / 256) (o % 256)
  else none

/-! ### PWR (14), CLK and THM (15) -/

/-- PWR_ERG_STAT.STATE. -/
def ergCode : ErgMode → Nat
  | .off => 0
  | .up => 1
  | .derated => 2
  | .dark => 3
  | .shorted => 4

/-- PWR_STAT.STATE: where several hold, INPUT is shown before CAPPED, and CAPPED before DERATED (DESIGN CHOICE, log entry 50). -/
def Pwr.stateCode (p : Pwr) : Nat :=
  if p.ergs.all fun e => e.2.mode == .off then 0
  else if p.excursion then 3
  else if 0 < p.capStep then 4
  else if !p.derated.isEmpty then 2
  else 1

/-- PWR_STAT (14). -/
def Pwr.statReg (p : Pwr) : Nat :=
  fld p.stateCode 28 + fld (if p.derated.isEmpty then 0 else p.floor) 24 + bitsFor 16 fun e => p.derated.contains e

/-- PWR_IN (14). -/
def Pwr.inReg (p : Pwr) : Nat := fld (p.vin % 65536) 16 + p.iin % 65536
/-- PWR_POWER (14). -/
def Pwr.powerReg (p : Pwr) : Nat := fld (p.avg1s % 65536) 16 + p.avg10ms % 65536

/-- An erg's power registers (14). -/
def ErgPwr.reg (e : ErgPwr) (o : Nat) : RegVal :=
  if o = 0 then r32 (fld (ergCode e.mode) 28 + fld e.ctrlOk.toNat 24 + e.setpoint % 65536)
  else if o = 4 then r32 (fld (e.vmin % 65536) 16 + e.iout % 65536)
  else if o = 8 then r32 (fld (e.windows.headD 0 / 1000 % 65536) 16 + e.limit % 65536)
  else if o = 0xC then r32 (flag e.droopOvf 31 + fld e.unhinted 16 + fld e.trips 8)
  else if o = 0x10 then r32 (flag e.anomOvf 31 + fld e.anomalies 16 + fld (e.lastSite % 256) 8 + e.lastSensor % 64)
  else if o = 0x14 then r32 (fld (e.vbus % 65536) 16 + e.iin % 65536)
  else none

/-- The PWR registers, by offset from 0x020_0000. -/
def State.pwrReg (s : State) (o : Nat) : RegVal :=
  let p := s.pwr
  if o = 0 then r32 p.inReg
  else if o = 4 then r32 p.powerReg
  else if o = 8 then r32 p.cap
  else if o = 0xC then r32 p.statReg
  else if o = 0x10 then r32 (fld (bitsFor 16 fun e => p.shorted.contains e) 16 + bitsFor 16 fun e => p.dark.contains e)
  else if o = 0x18 then r64 p.energy
  else if 0x1000 ≤ o ∧ o < 0x1400 then (s.ergPwr ((o - 0x1000) / 0x40)).reg (o % 0x40)
  else none

/-- CLK_STEP.LIMITED_BY: the limits above F0 that call for the step in force (R543). -/
def State.limitedBy (s : State) : Nat :=
  bitsFor 5 fun i => decide (0 < s.stepLimits.getD i 0) && s.stepLimits.getD i 0 == s.clk.step

/-- CLK_REF.SEL. -/
def refCode : RefSel → Nat
  | .refA => 0
  | .refB => 1
  | .holdover => 2

/-- THM_STAT.COOLING. -/
def coolCode : Cooling → Nat
  | .ok => 0
  | .degraded => 1
  | .lost => 2

/-- CLK_REF (15). PLL_OK reads 0 while no gateway is in service. -/
def State.clkRefReg (s : State) : Nat :=
  let gws := (List.range 8).filter s.gwServes
  fld (refCode s.clk.sel) 30 + flag s.clk.aOk 29 + flag s.clk.bOk 28 +
  flag (!gws.isEmpty && gws.all fun g => !s.clk.pllOut.contains g) 27 +
  (if s.clk.sel = .holdover then min 0xFFFF ((s.clock.now - s.clk.holdAt) / s.cyclesOf (1000 * usec)) else 0)

/-- THM_STAT (15). -/
def Clk.thmStatReg (c : Clk) : Nat := fld c.thmLimit 28 + fld (coolCode c.cooling) 26 + fld (c.fcMax % 256) 8 + c.tjMax % 256
/-- THM_WATER (15). -/
def Clk.waterReg (c : Clk) : Nat := fld (c.inlet % 256) 24 + fld (c.outlet % 256) 16 + c.flow % 65536
/-- THM_PARK (15). -/
def Clk.parkReg (c : Clk) : Nat := fld (bitsFor 16 fun e => c.tripped.contains e) 16 + bitsFor 16 fun e => c.parked.contains e

/-- The CLK and THM registers, by offset from 0x030_0000. -/
def State.clkReg (s : State) (o : Nat) : RegVal :=
  let c := s.clk
  if o = 0 then r32 s.clkRefReg
  else if o = 4 then r32 (fld c.step 28 + fld c.next 24 + flag c.pending 23 + fld c.req 16 + s.limitedBy)
  else if o = 8 then r64 c.atTick.toNat
  else if o = 0x10 then r32 (fld (c.rotMs % 65536) 16 + flag c.rotOvf 15 + c.skips)
  else if o = 0x1000 then r32 c.thmStatReg
  else if o = 0x1004 then r32 c.waterReg
  else if o = 0x1008 then r32 c.parkReg
  else if 0x1100 ≤ o ∧ o < 0x1200 ∧ o % 16 = 0 then
    let e := tget ({} : ErgThm) c.ergs ((o - 0x1100) / 16)
    r32 (fld (e.tj % 256) 24 + fld (e.fc % 256) 16)
  else none

/-! ### ZFP (10), NVC (11), SEC (17) -/

/-- A port's registers (10). -/
def State.portReg (s : State) (p o : Nat) : RegVal :=
  let r := s.port p
  if o = 0 then r32 (flag r.enable 31 + fld (r.medium % 4) 29)
  else if o = 4 then r32 (fld (linkCode false r.mode) 28 + fld r.lanesOk.toNat 20 + flag (s.zfp.isPair p) 19 + r.peerDev % 65536)
  else if o = 8 then r64 (flag r.fecOvf 63 + fld r.corr 24 + r.uncorr)
  else if o = 0x10 then r32 (flag r.retryOvf 31 + fld r.replays 16 + fld (r.lastRun % 256) 8 + r.downs)
  else none

/-- ZFP_C0_STAT.BOUND_OK: normal service is that of 06, and F0 to F3. -/
def State.boundOk (s : State) : Bool :=
  (s.panel.mode == .ready || s.panel.mode == .running) && decide (s.clk.step ≤ 3) &&
  (s.clk.die.all fun e => e.2.stretchW == 0 && e.2.stretchE == 0) &&
  (List.range 32).all fun p => (s.port p).mode != .upHalf

/-- A circuit entry's registers (10). -/
def CircEntry.reg (e : CircEntry) (o : Nat) : RegVal :=
  if o = 0 then
    r32 (flag e.valid 31 + flag e.active 30 + fld e.circ 20 + fld e.out 15 + fld e.inp 9 + fld e.share 5 + fld e.chan 1)
  else if o = 4 then r32 (fld e.count 16 + e.dest)
  else if o = 8 then r64 e.first
  else none

/-- The ZFP registers, by offset from 0x040_0000. The table windows return the inactive version. -/
def State.zfpReg (s : State) (o : Nat) : RegVal :=
  let z := s.zfp
  if o < 0x8000 then s.portReg (o / 0x400) (o % 0x400)
  else if o = 0x8000 then r32 z.devNum
  else if o = 0x8004 then
    r32 (flag z.active 31 + flag z.loaded 30 + flag z.pending 29 + flag s.draining 28 + fld z.hopsInit 22 + fld z.drain 8)
  else if o = 0x8008 then r64 z.flipTick.toNat
  else if o = 0x8010 then r32 z.check.toNat
  else if o = 0x8018 then r32 (flag z.pairOn 31 + flag z.pairUp 30 + fld z.portB 24 + fld z.portA 16 + z.partner)
  else if 0x8020 ≤ o ∧ o < 0x8030 ∧ o % 4 = 0 then
    let m := tget (false, 0xFFFF) z.mgr ((o - 0x8020) / 4)
    r32 (flag m.1 31 + m.2)
  else if o = 0x8040 then
    r64 (flag z.dropOvf 63 + fld z.noRoute 48 + fld z.staleInc 32 + fld z.refused 16 + fld z.aged 8 + z.oldEpoch)
  else if o = 0x8048 then r32 (flag z.c0Over 31 + flag s.boundOk 30 + z.c0Port)
  else if 0x9000 ≤ o ∧ o < 0x9400 then (z.entry ((o - 0x9000) / 16)).reg (o % 16)
  else if 0x80000 ≤ o ∧ o < 0xC0000 ∧ o % 4 = 0 then r32 (tget 0 (z.version (!z.active)).dev ((o - 0x80000) / 4))
  else if 0xC0000 ≤ o ∧ o < 0xC0108 ∧ o % 8 = 0 then r64 (tget 0 (z.version (!z.active)).bcast ((o - 0xC0000) / 8))
  else none

/-- NVC_CH_STAT.STATE. -/
def chanCode : ChanMode → Nat
  | .off => 0
  | .training => 1
  | .up => 2
  | .out => 3
  | .failed => 4

/-- NVC_STORE_STAT.STATE. -/
def storeCode : StoreMode → Nat
  | .none_ => 0
  | .idle => 1
  | .recording => 2
  | .snapshot => 3
  | .restoring => 4
  | .broken => 5

/-- A channel's registers (11). -/
def ChanRec.reg (c : ChanRec) (o : Nat) : RegVal :=
  if o = 0 then r32 (fld (chanCode c.mode) 28 + fld c.targets.toNat 20 + flag c.qlc 19)
  else if o = 8 then r64 (flag c.ovf 63 + fld c.tier1 32 + fld c.tier2 16 + fld c.tier3 8 + fld c.tier4 4 + c.uncorr)
  else if o = 0x10 then r32 (fld (c.factory % 65536) 16 + c.grown % 65536)
  else if o = 0x14 then r32 (fld (c.maxErase % 65536) 16 + c.minErase % 65536)
  else none

/-- NVC_BACKLOG.MIB: delta granules that are not yet on flash (11). -/
def Nvm.backlog (v : Nvm) : Nat :=
  min 0xFFFF (((v.rings.map fun e => e.2.q.length).foldl (· + ·) (v.pages.length - v.flashed)) / 16384)

/-- NVC_STORE_STAT.CHAIN (11): a snapshot is in force and no delta since its base step is broken. -/
def Nvm.chain (v : Nvm) : Bool := v.valid && v.broken.isEmpty && v.mode != .broken

/-- The NVC registers, by offset from 0x050_0000. -/
def State.nvcReg (s : State) (o : Nat) : RegVal :=
  let v := s.nvm
  if o < 0x2000 then (s.chan (o / 0x100)).reg (o % 0x100)
  else if o = 0x8000 then r32 (fld (storeCode v.mode) 28 + flag v.slotB 27 + flag v.valid 26 + flag v.chain 25)
  else if o = 0x8008 then r64 v.stepCommit
  else if o = 0x8010 then r64 (fld (v.sgen % 2 ^ 32) 32 + v.base % 2 ^ 32)
  else if o = 0x8018 then r32 v.backlog
  else if o = 0x801C then r32 (fld v.patrolDays 27 + v.snapEvery)
  else none

/-- The SEC registers, by offset from 0x060_0000 (17). -/
def Sec.reg (c : Sec) (o : Nat) : RegVal :=
  if o = 0 then r32 c.stat
  else if o = 8 then r32 c.svnReg
  else if 0x10 ≤ o ∧ o < 0x20 ∧ o % 4 = 0 then r32 (leField deviceId (o - 0x10) 4)
  else if o = 0x20 then r32 c.extReg
  else none

/-! ### Die windows (02, 07, 09, 13, 15, 16) -/

/-- CORE_STATE.RUN (R96). -/
def runCode : RunState → Nat
  | .resting => 0
  | .idle => 1
  | .running => 2
  | .held => 3
  | .faulted => 4
  | .sweeping => 5
  | .receiving => 6
  | .selfcheck => 7

/-- DIE_STATE.STATE (R96). -/
def dieCode : DieMode → Nat
  | .off => 0
  | .test => 1
  | .ready => 2
  | .running => 3
  | .computeReset => 4
  | .fenced => 5

/-- CORE_FAULT and CORE_FAULT_PC (R96). -/
def CoreFault.reg (f : CoreFault) : Nat :=
  flag f.valid 31 + flag f.multi 30 + fld (f.slot % 8) 27 + flag f.bankV 16 + fld (f.bank % 16) 12 + f.code % 4096
def CoreFault.pcReg (f : CoreFault) : Nat := flag f.paged 24 + fld (f.pageSrc % 256) 16 + f.bundle % 2048

/-- The registers of a core (R96, 09). -/
def State.coreReg (s : State) (p o : Nat) : RegVal :=
  let c := s.core p
  let l := c.stat.lcore
  if o = 0 then
    r32 (fld (runCode c.stat.run) 28 + flag c.stat.valid 27 + flag c.stat.mirror 26 + fld (c.ctl.pc / 256 % 8) 16 + l)
  else if o = 4 then r32 c.fault.reg
  else if o = 8 then r32 c.fault.pcReg
  else if o = 0x10 then r64 c.fault.tick.toNat
  else if o = 0x18 then
    r32 (fld (min 0xFF c.count.lastConflict) 16 + fld (min 0xFF c.count.lastSeif) 8 + min 0xFF c.count.lastStream)
  else if o = 0x20 then r64 (flag c.count.totalOvf 63 + c.count.total)
  else if o = 0x28 then
    r32 (flag c.count.eccOvf 31 + fld c.count.corr 16 + fld c.count.uncorr 12 + fld (c.count.lastBank % 16) 8 + flag c.count.lastImem 7)
  else if o = 0x40 then r32 0
  else if o = 0x48 then
    let d := s.wadiDrop l
    r32 (if c.stat.valid then flag d.ovf 31 + d.count else 0)
  else if o = 0x4C then
    let d := s.wadiDrop l
    r32 (if c.stat.valid then fld (d.reason % 8) 29 + fld (d.src % 2 ^ 14) 15 + d.granule % 2 ^ 15 else 0)
  else if o = 0x50 then r32 (if c.stat.valid then bitsFor 16 fun w => tmem s.win.wadi (16 * l + w) else 0)
  else none

/-- The registers of a check-value unit, by offset from 0x200 (R355). -/
def CvuRec.reg (c : CvuRec) (o : Nat) : RegVal :=
  if o = 0 then
    r32 (flag c.busy.isSome 28 + fld (c.queue.length % 16) 24 + fld (c.head % 16) 20 + c.lastSeq % 65536)
  else if o = 8 then r32 (flag c.ovf 31 + fld c.mismatch 16 + c.refused)
  else if 0x40 ≤ o ∧ o < 0x240 then
    let e := tget ({} : CvuEntry) c.ring ((o - 0x40) / 32)
    let i := o % 32
    if i = 0 then r32 (fld (e.node % 2 ^ 14) 16 + e.rseq % 65536)
    else if i = 4 then r32 (fld (e.status % 4) 28 + fld (e.mode % 4) 26 + flag e.alg 25 + e.eseq % 65536)
    else if i = 8 then r64 e.bytes
    else if i = 0x10 then r64 e.value
    else none
  else none

/-- The mesh registers of a site, by offset in its window (07). -/
def MeshDie.reg (d : MeshDie) (o : Nat) : RegVal :=
  if o = 0x100 then r32 (flag d.active 31 + flag d.loaded 30 + flag d.pending 29 + d.hold)
  else if o = 0x108 then r64 d.flipTick.toNat
  else if o = 0x110 then r32 (flag d.routesOk 31 + flag d.loadOver 30 + d.worst % 1024)
  else if o = 0x118 then r32 (flag d.errOvf 31 + fld d.corr 16 + fld d.uncorrPay 8 + d.uncorrHdr)
  else if o = 0x120 then r32 (flag d.dropOvf 31 + fld d.lost 24 + fld d.staleInc 16 + fld d.oldEpoch 8 + d.c0Refused)
  else if o = 0x128 then r32 (fld (d.delayMax % 1024) 16 + min 0xFFFF d.late)
  else if o = 0x130 then r32 (flag d.redOvf 31 + fld d.redFaults 8 + d.tagsMax % 128)
  else none

/-- CLK_DIE.STATE. -/
def clkCode : ClkSource → Nat
  | .off => 0
  | .primary => 1
  | .secondary => 2
  | .lost => 3

/-- CLK_DIE and THM_DIE (15). -/
def DieClk.reg (d : DieClk) : Nat :=
  fld (clkCode d.st) 28 + fld (d.pri % 4) 26 + fld (d.sec % 4) 24 + fld d.link.toNat 20 + fld (d.stretchW % 8) 16 + fld (d.stretchE % 8) 12
def DieClk.thmReg (d : DieClk) : Nat := fld (d.tj % 256) 24 + fld (d.fc % 256) 16 + fld (d.sensor % 16) 12

/-- DIE_BIST.STATE. -/
def bistModeCode : BistMode → Nat
  | .idle => 0
  | .running => 1
  | .pass => 2
  | .fail => 3

/-- DIE_LINK_QUAL.STATE. -/
def qualCode : QualMode → Nat
  | .untested => 0
  | .pass => 1
  | .passRetry => 2
  | .fail => 3
  | .training => 4

/-- BOOT_STAT of GW0 or GW7 (16). -/
def State.bootReg (s : State) (g : Nat) : Nat :=
  let b := tget ({} : BootStat) s.boot.boot g
  fld (b.step % 16) 28 + flag (decide (s.stew.active = some (g == 7))) 27 + flag b.full 26 + fld (b.code % 4096) 12 + min 0xFFF b.ms

/-- The bring-up registers of a site (16). -/
def State.bootRegs (s : State) (x o : Nat) : RegVal :=
  let b := tget ({} : DieBist) s.boot.bist x
  if o = 0x1C0 then r32 (fld (bistModeCode b.st) 28 + fld (b.sel % 4) 26 + fld (b.repaired % 256) 8 + b.unrepaired % 256)
  else if o = 0x1C8 then
    r64 (fld (b.kind % 16) 60 + fld (b.core % 128) 53 + fld (b.bank % 16) 49 + fld (b.word % 2 ^ 14) 35 + fld (b.bit % 128) 28)
  else if 0x1D0 ≤ o ∧ o < 0x1E0 ∧ o % 4 = 0 then
    let q := tget ({} : LinkQual) s.boot.qual (4 * x + (o - 0x1D0) / 4)
    r32 (fld (qualCode q.st) 28 + fld (min 0xFF q.retrains) 16 + min 0xFFFF q.errors)
  else if o = 0x1E0 then
    let d := tget ({} : DieBcast) s.boot.bcast x
    r32 (fld (d.result % 16) 28 + fld (d.rounds % 4) 26 + d.xfer % 65536)
  else if o = 0x1F0 ∧ (x = 13 ∨ x = 130) then r32 (s.bootReg (if x = 13 then 0 else 7))
  else none

/-- CONS_STATE.STATE. -/
def Cons.stateCode (c : Cons) : Nat :=
  match c.mode with
  | .none_ => 0
  | .member => if c.spare then 4 else 1
  | .changing => 2
  | .fenced => 3
  | .spare => 4

/-- The consensus registers, as the engine of GW0 or of GW7 shows them (13). -/
def State.consReg (s : State) (gw7 : Bool) (o : Nat) : RegVal :=
  let c := s.cons
  if o = 0x800 then
    r32 (fld c.stateCode 28 + flag (c.inGroup && c.gw7 == gw7) 27 + flag s.isCoord 26 + flag c.pair 25 + fld (c.rank % 4096) 13 +
      c.live.length % 2 ^ 13)
  else if o = 0x804 then r32 c.view
  else if o = 0x808 then r32 c.inc
  else if o = 0x80C then r32 (fld (c.lastCause % 16) 28 + fld (c.lastRank % 4096) 16 + c.lastDev % 65536)
  else if o = 0x810 then r64 s.job.closed
  else if o = 0x818 then r64 c.committed
  else if o = 0x820 then r64 c.groupStep
  else if o = 0x828 then r64 c.resume
  else if o = 0x830 then r32 (flag c.ovf 31 + flag c.paceOk 30 + fld c.suspects 20 + fld c.fencedSent 10 + c.stragglers)
  else if o = 0x834 then r32 (min 0xFFFFFFFF c.timeUs)
  else none

/-- CONS_MEMBER (13). -/
def Member.reg (m : Member) : Nat :=
  flag m.live 63 + flag m.straggler 62 + flag m.partner.isSome 60 + fld (m.partner.getD 0 % 4096) 48 + fld (m.dev % 65536) 32 +
  m.inc % 2 ^ 32

/-- The node whose incarnation UNIT_INC entry `i` holds in byte `j` (13), none past the tables. -/
def incNode (i j : Nat) : Option Nat :=
  let u := 4 * i + j
  if i < 3072 then some u
  else if 0x1000 ≤ i ∧ i < 0x1024 then some (nodeAt (u - 0x4000) 0)
  else if 0x1040 ≤ i ∧ i < 0x1044 then some (nodeOfStack (u - 0x4100))
  else if 0x1080 ≤ i ∧ i < 0x1088 then some (0x8000 + (u - 0x4200))
  else none

/-- UNIT_INC (13). -/
def State.unitIncReg (s : State) (i : Nat) : RegVal :=
  if (incNode i 0).isSome then
    r32 ((List.range 4).foldl (fun acc j => acc + fld (((incNode i j).map s.incOf).getD 0 % 256) (8 * j)) 0)
  else none

/-- The die window of a site (R95). -/
def State.dieReg (s : State) (x o : Nat) : RegVal :=
  if 0x100 ≤ o ∧ o < 0x140 then (s.meshDie x).reg o
  else if o = 0x180 then r32 (s.dieClk x).reg
  else if o = 0x184 then r32 (s.dieClk x).thmReg
  else if 0x1C0 ≤ o ∧ o < 0x200 then s.bootRegs x o
  else
    match gwAt x with
    | some g =>
      if 0x200 ≤ o ∧ o < 0x440 then (s.cvu g).reg (o - 0x200)
      else if 0x800 ≤ o ∧ o < 0x840 then if g = 0 ∨ g = 7 then s.consReg (g == 7) o else none
      else if 0x2000 ≤ o ∧ o < 0x8000 ∧ o % 4 = 0 then s.unitIncReg ((o - 0x2000) / 4)
      else if 0x8000 ≤ o ∧ o % 8 = 0 then r64 (s.member ((o - 0x8000) / 8)).reg
      else none
    | none =>
      if o = 0 then
        r32 (fld x 24 + fld (ergOf x) 20 +
          fld ((List.range 104).filter fun k => (s.core (104 * x + k)).fault.valid).length 8 + dieCode (tget .off s.panel.die x))
      else if 0x10 ≤ o ∧ o < 0x20 ∧ o % 4 = 0 then
        let i := (o - 0x10) / 4
        r32 (bitsFor 32 fun j => decide (32 * i + j < 104) && (s.core (104 * x + 32 * i + j)).fault.valid)
      else if o = 0x140 then
        let d := s.dieSweep x
        r32 (fld (d.st % 16) 28 + fld (causeCode d.cause) 24 +
          fld ((d.left.length + d.failed.length) % 128) 8 + min 0xFF d.discard)
      else if 0x1000 ≤ o ∧ o < 0x1000 + 0x200 * 104 then s.coreReg (104 * x + (o - 0x1000) / 0x200) (o % 0x200)
      else none

/-! ### Stack windows (08, 09, 16) -/

/-- PLS_STATE.STATE (R322). -/
def stackCode : StackMode → Nat
  | .off => 0
  | .ready => 1
  | .degraded => 2
  | .lost => 3
  | .test => 4

/-- PLS_SWEEP.HELD: an unscheduled access waits for a region that the sweep has not reached (R349). -/
def State.sweepHeld (s : State) (n : Nat) : Bool :=
  let r := s.stack n
  r.sweeping && s.plos.accesses.any fun e => e.2.stack == n && r.toSweep.contains (r.physRegion (e.2.off / regionSize))

/-- The window of a stack (R322). -/
def State.stackReg (s : State) (n o : Nat) : RegVal :=
  let r := s.stack n
  if o = 0 then
    r32 (fld (stackCode r.mode) 28 + flag s.plos.placed 27 + flag r.copy.isSome 26 + fld (if r.mode = .off then 0 else r.sparesFree % 16) 22 +
      fld (r.nAtt % 64) 16 + r.limit)
  else if o = 8 then r32 (flag r.refOvf 31 + fld r.refCount 18 + fld (r.refReason % 16) 14 + r.refCore % 2 ^ 14)
  else if o = 0x10 then r32 (flag r.eccOvf 31 + fld r.corr 20 + fld r.uncorr 12 + r.lastRegion % 512)
  else if o = 0x18 then r32 (flag r.saeOvf 31 + fld r.saeDone 16 + fld r.saeFaults 8 + r.saeKind % 16)
  else if 0x20 ≤ o ∧ o < 0x40 ∧ o % 4 = 0 then
    let i := (o - 0x20) / 4
    let x := tget ({} : SpareRec) r.spares i
    r32 (flag x.used 31 + flag x.retired 30 + flag (r.copying == some i) 29 + x.region % 512)
  else if o = 0x40 then r32 (flag r.sweeping 28 + flag (s.sweepHeld n) 27 + r.toSweep.length % 512)
  else if o = 0x60 then
    let b := tget ({} : StackBist) s.boot.stackBist n
    r32 (fld (bistModeCode b.st) 28 + fld (b.retired % 512) 9 + b.lastRegion % 512)
  else if o = 0x100 ∧ n = 0 then r32 (b2n s.plos.placed)
  else if 0x200 ≤ o ∧ o < 0x440 then (s.cvu (8 + n)).reg (o - 0x200)
  else none

/-! ### The whole space (R19) -/

/-- The register at an offset of the control space, none where no register begins. -/
def State.reg (s : State) (off : Nat) : RegVal :=
  if off % 4 ≠ 0 then none
  else if off < 0x100000 then s.glbReg off
  else if off < 0x200000 then s.hifReg (off - 0x100000)
  else if off < 0x300000 then s.pwrReg (off - 0x200000)
  else if off < 0x400000 then s.clkReg (off - 0x300000)
  else if off < 0x500000 then s.zfpReg (off - 0x400000)
  else if off < 0x600000 then s.nvcReg (off - 0x500000)
  else if off < 0x700000 then s.sec.reg (off - 0x600000)
  else if 0x1000000 ≤ off ∧ off < 0x1900000 then s.dieReg ((off - 0x1000000) / 0x10000) (off % 0x10000)
  else if 0x2000000 ≤ off ∧ off < 0x2400000 then s.stackReg ((off - 0x2000000) / 0x40000) (off % 0x40000)
  else none

end Sys2Proof.Machine
end

