-- ==== Sys2Proof/Machine/RegOps.lean ====
section
/-! DEFINITION. Accesses to the control space (R9 to R14, R623, R625, R626): what a write does, the latches, and who reaches what; with
the commands of management (R395) and of the host links (R439, R660) that use them. -/

namespace Sys2Proof.Machine

open Sys2Proof

/-- The state of an outcome that goes on; `s` where it does not. -/
def outState (s : State) : Out → State
  | .next t => t
  | .fault _ => s
  | .refused _ => s

/-! ### Who reaches what -/

/-- The agent number of a manager device (R625). -/
def managerAgent (dev : Nat) : Nat := 0x10000 + dev

/-- A read reaches the SEC block only from host software and the panel stewards (R602). -/
def mayRead (agent off : Nat) : Bool :=
  !(decide (0x600000 ≤ off) && decide (off < 0x700000)) || [1, 2, 0x10, 0x11].contains agent

/-- A write reaches a die or stack window only from the stewards, but for PLS_MODE (R96, R322, R287), and the SEC block from nobody
(R602). -/
def mayWrite (agent off : Nat) : Bool :=
  if 0x1000000 ≤ off then decide (0x10 ≤ agent ∧ agent < 0x10000) || off == 0x2000100
  else !(decide (0x600000 ≤ off) && decide (off < 0x700000))

/-! ### The event ring's registers (18) -/

/-- Change the event queue. -/
def State.modEvq (s : State) (f : Evq → Evq) : State := { s with evq := f s.evq }

/-- A write of EVQ_CTL (18). -/
def Evq.writeCtl (e : Evq) (v : Nat) : Evq :=
  let on := bitOf v 31
  if e.enable then { e with enable := on }
  else if v % 16 < 8 then e
  else if on then { e with enable := true, size := v % 16, head := 0, tail := 0, seq := 0 }
  else { e with size := v % 16 }

/-- A write of EVQ_HEAD. -/
def Evq.writeHead (e : Evq) (v : Nat) : Evq := { e with head := v % 32768 }

/-! ### Overflow flags (R623) -/

/-- Clear the overflow flag and the event counters of a check-value unit. -/
def State.clearCvu (s : State) (u : Nat) : State := s.modCvu u fun c => { c with ovf := false, mismatch := 0, refused := 0 }

/-- A core's registers. -/
def State.clearCore (s : State) (p o : Nat) : State :=
  let c := s.core p
  if o = 0x20 then s.setCore p { c with count := { c.count with totalOvf := false, total := 0 } }
  else if o = 0x28 then s.setCore p { c with count := { c.count with eccOvf := false, corr := 0, uncorr := 0 } }
  else if o = 0x48 ∧ c.stat.valid then s.modDrop c.stat.lcore fun d => { d with ovf := false, count := 0 }
  else s

/-- A die window. -/
def State.clearDie (s : State) (x o : Nat) : State :=
  if o = 0x118 then s.modDie x fun d => { d with errOvf := false, corr := 0, uncorrPay := 0, uncorrHdr := 0 }
  else if o = 0x120 then s.modDie x fun d => { d with dropOvf := false, lost := 0, staleInc := 0, oldEpoch := 0, c0Refused := 0 }
  else if o = 0x130 then s.modDie x fun d => { d with redOvf := false, redFaults := 0 }
  else match gwAt x with
    | some g =>
      if o = 0x208 then s.clearCvu g
      else if o = 0x830 ∧ (g = 0 ∨ g = 7) then
        s.modCons fun c => { c with ovf := false, suspects := 0, fencedSent := 0, stragglers := 0 }
      else s
    | none => if 0x1000 ≤ o ∧ o < 0x1000 + 0x200 * 104 then s.clearCore (104 * x + (o - 0x1000) / 0x200) (o % 0x200) else s

/-- A stack window. -/
def State.clearStack (s : State) (n o : Nat) : State :=
  if o = 8 then s.modStack n fun r => { r with refOvf := false, refCount := 0 }
  else if o = 0x10 then s.modStack n fun r => { r with eccOvf := false, corr := 0, uncorr := 0 }
  else if o = 0x18 then s.modStack n fun r => { r with saeOvf := false, saeDone := 0, saeFaults := 0 }
  else if o = 0x208 then s.clearCvu (8 + n)
  else s

/-- R623: a write of 1 to the OVF flag of the register at this offset clears it, with every event counter of the register. -/
def State.clearOvf (s : State) (off : Nat) : State :=
  if 0x2010 ≤ off ∧ off < 0x202C then s.modAct ((off - 0x2010) / 4) fun a => { a with ovf := false, missed := 0 }
  else if off = 0x100008 ∨ off = 0x100028 then
    s.modPort (32 + (off - 0x100000) / 0x20) fun r => { r with fecOvf := false, corr := 0, replays := 0, uncorr := 0 }
  else if off = 0x103010 then s.modEvq fun e => { e with ovf := false, lost := 0 }
  else if 0x201000 ≤ off ∧ off < 0x201400 then
    let e := (off - 0x201000) / 0x40
    if off % 0x40 = 0xC then s.modErg e fun x => { x with droopOvf := false, unhinted := 0, trips := 0 }
    else if off % 0x40 = 0x10 then s.modErg e fun x => { x with anomOvf := false, anomalies := 0 }
    else s
  else if off = 0x300010 then s.modClk fun c => { c with rotOvf := false, skips := 0 }
  else if 0x400000 ≤ off ∧ off < 0x408000 then
    let p := (off - 0x400000) / 0x400
    if off % 0x400 = 8 then s.modPort p fun r => { r with fecOvf := false, corr := 0, uncorr := 0 }
    else if off % 0x400 = 0x10 then s.modPort p fun r => { r with retryOvf := false, replays := 0, downs := 0 }
    else s
  else if off = 0x408040 then
    s.modZfp fun z => { z with dropOvf := false, noRoute := 0, staleInc := 0, refused := 0, aged := 0, oldEpoch := 0 }
  else if 0x500000 ≤ off ∧ off < 0x502000 ∧ off % 0x100 = 8 then
    s.modChan ((off - 0x500000) / 0x100) fun c => { c with ovf := false, tier1 := 0, tier2 := 0, tier3 := 0, tier4 := 0, uncorr := 0 }
  else if 0x1000000 ≤ off ∧ off < 0x1900000 then s.clearDie ((off - 0x1000000) / 0x10000) (off % 0x10000)
  else if 0x2000000 ≤ off ∧ off < 0x2400000 then s.clearStack ((off - 0x2000000) / 0x40000) (off % 0x40000)
  else s

/-! ### Circuit entries (R376, R377) -/

/-- ACTIVE is 1 within the ticks of a loaded entry. -/
def CircEntry.settled (e : CircEntry) (tick : Nat) : CircEntry :=
  { e with active := e.valid && decide (e.first ≤ tick) && (e.count == 0 || decide (tick < e.first + e.count)) }

/-- Sixteenths of an output port that entries other than `c` have. -/
def Zfp.shares (z : Zfp) (c out : Nat) : Nat :=
  ((z.circ.filter fun e => e.1 != c && e.2.valid && e.2.out == out).map fun e => e.2.share).foldl (· + ·) 0

/-- R377: the entry stays unloaded above 12 sixteenths of its output, or with a pair port for its output. -/
def Zfp.mayLoad (z : Zfp) (c out share : Nat) : Bool := decide (z.shares c out + share ≤ 12) && !z.isPair out

/-- A write of ZFP_CIRC_CTL. -/
def State.writeCirc (s : State) (c v : Nat) : State :=
  let out := bitsOf v 15 5
  let share := bitsOf v 5 4
  s.modEntry c fun e => ({ e with
    valid := bitOf v 31 && s.zfp.mayLoad c out share, circ := bitsOf v 20 10, out := out, inp := bitsOf v 9 6, share := share
    chan := bitsOf v 1 4 } : CircEntry).settled s.clock.tick.toNat

/-! ### Writes of 32-bit registers -/

/-- CORE_CTL.CMD (R96). -/
def State.coreCmd (s : State) (p : PCore) (cmd : Nat) : State :=
  if cmd = 1 then outState s (execHold p s)
  else if cmd = 2 then outState s (execResume p s)
  else if cmd = 3 then outState s (execSelfcheck p s)
  else if cmd = 4 then outState s (execSweep p s)
  else s

/-- A steward's write into a die window. -/
def State.putDie (s : State) (x o v : Nat) : State :=
  if o = 0x110 then if bitOf v 30 then s.modDie x fun d => { d with loadOver := false } else s
  else if 0x1000 ≤ o ∧ o < 0x1000 + 0x200 * 104 ∧ !isGw x then
    let p := 104 * x + (o - 0x1000) / 0x200
    if o % 0x200 = 4 then
      s.modCore p fun c => { c with fault := { c.fault with
        valid := c.fault.valid && !bitOf v 31, multi := c.fault.multi && !bitOf v 30 } }
    else if h : o % 0x200 = 0x40 ∧ p < 14976 then s.coreCmd ⟨p, h.2⟩ (v % 16)
    else s
  else s

/-- ZFP_PORT_CTL (10). -/
def State.writePortCtl (s : State) (p : Port) (v : Nat) : State :=
  let s1 := outState s (execPortEnable p (bitOf v 31) (BitVec.ofNat 2 (bitsOf v 29 2)) s)
  if v % 16 = 1 then outState s1 (execRetrain p s1) else if v % 16 = 2 then outState s1 (execDisable p s1) else s1

/-- ZFP_RT_CTL: a write that breaks R383 is ignored; CMD acts after the fields are set. -/
def State.writeRtCtl (s : State) (v : Nat) : State :=
  let hops := bitsOf v 22 6
  let drain := bitsOf v 8 14
  if drain < 17 * hops then s
  else
    let s1 := s.modZfp fun z => { z with hopsInit := hops, drain := drain }
    if v % 16 = 1 then outState s1 (execRouteCommit s1) else if v % 16 = 2 then outState s1 (execRouteFlip s1) else s1

/-- A write of a mailbox register. -/
def State.writeMbx (s : State) (agent m o v : Nat) : State :=
  if o = 0 then s.lockWrite m agent (v % 65536)
  else if o = 4 then s.dbWrite m agent (v % 65536)
  else if o = 8 then s.ackWrite m agent (v % 65536)
  else if o = 0xC then if agent = 0x10 ∨ agent = 0x11 then s.modBox m fun b => { b with receiver := v % 65536 } else s
  else if 0x40 ≤ o ∧ o < 0x80 then s.dataWrite m agent ((o - 0x40) / 4) (BitVec.ofNat 32 v)
  else s

/-- A write of the HIF, MBX and EVQ registers, by offset from 0x010_0000. -/
def State.writeHif (s : State) (agent o v : Nat) : State :=
  if 0x1000 ≤ o ∧ o < 0x1400 then
    let q := (o - 0x1000) / 16
    if o % 16 = 0 then s.writeQctl q v else if o % 16 = 4 then s.setTail q (v % 4096) else s
  else if o = 0x3008 then s.modEvq fun e => e.writeCtl v
  else if o = 0x300C then s.modEvq fun e => e.writeHead v
  else if o = 0x3010 then if bitOf v 31 then s.clearOvf 0x103010 else s
  else if 0x80000 ≤ o ∧ o < 0x82000 then s.writeMbx agent ((o - 0x80000) / 256) (o % 256) v
  else s

/-- A write of the ZFP registers of 32 bits, by offset from 0x040_0000. -/
def State.writeZfp (s : State) (o v : Nat) : State :=
  if o < 0x8000 then
    if o % 0x400 = 0 then s.writePortCtl (Fin.ofNat 32 (o / 0x400)) v
    else if o % 0x400 = 0x10 ∧ bitOf v 31 then s.clearOvf (0x400000 + o)
    else s
  else if o = 0x8000 then outState s (execDevNumWrite (BitVec.ofNat 16 v) s)
  else if o = 0x8004 then s.writeRtCtl v
  else if o = 0x8010 then s.modZfp fun z => { z with check := BitVec.ofNat 32 v }
  else if o = 0x8018 then
    outState s (execPairSet (bitOf v 31) (Fin.ofNat 32 (bitsOf v 16 5)) (Fin.ofNat 32 (bitsOf v 24 5)) (BitVec.ofNat 16 v) s)
  else if 0x8020 ≤ o ∧ o < 0x8030 then s.modZfp fun z => { z with mgr := tput z.mgr ((o - 0x8020) / 4) (bitOf v 31, v % 65536) }
  else if o = 0x8048 then if bitOf v 31 then s.modZfp fun z => { z with c0Over := false } else s
  else if 0x9000 ≤ o ∧ o < 0x9400 then
    let c := (o - 0x9000) / 16
    if o % 16 = 0 then s.writeCirc c v
    else if o % 16 = 4 then
      s.modEntry c fun e => ({ e with count := bitsOf v 16 16, dest := v % 65536 } : CircEntry).settled s.clock.tick.toNat
    else s
  else if 0x80000 ≤ o ∧ o < 0xC0000 then
    outState s (execRouteTableWrite false (Fin.ofNat 65536 ((o - 0x80000) / 4)) (BitVec.ofNat 64 v) s)
  else s

/-- CLK_ROT: INTERVAL_MS only while READY (R550), OVF at any time. -/
def State.writeRot (s : State) (v : Nat) : State :=
  let s1 := if s.panel.mode = .ready then s.modClk fun c => { c with rotMs := bitsOf v 16 16 } else s
  if bitOf v 15 then s1.clearOvf 0x300010 else s1

/-- What a 32-bit write of the 32-bit register at this offset does (R9, R10). -/
def State.put32 (s : State) (agent off v : Nat) : State :=
  if !mayWrite agent off then s
  else if off = 0x2000 then
    if s.panel.mode = .ready ∧ v % 64 ≠ 0 then { s with bg := { s.bg with spacing := v % 64 } } else s
  else if off < 0x100000 then if 0x2010 ≤ off ∧ bitOf v 31 then s.clearOvf off else s
  else if off < 0x200000 then s.writeHif agent (off - 0x100000) v
  else if off = 0x200008 then
    if 2000 ≤ v % 65536 ∧ v % 65536 ≤ 15000 then s.modPwr fun p => { p with cap := v % 65536 } else s
  else if off < 0x300000 then if bitOf v 31 then s.clearOvf off else s
  else if off = 0x300004 then outState s (execStepRequest (BitVec.ofNat 32 v) s)
  else if off = 0x300010 then s.writeRot v
  else if off < 0x400000 then s
  else if off < 0x500000 then s.writeZfp (off - 0x400000) v
  else if off = 0x50801C then
    if s.panel.mode = .ready then s.modNvm fun n => { n with patrolDays := bitsOf v 27 5, snapEvery := v % 65536 } else s
  else if off < 0x1000000 then s
  else if off < 0x1900000 then
    let s1 := s.putDie ((off - 0x1000000) / 0x10000) (off % 0x10000) v
    if bitOf v 31 then s1.clearOvf off else s1
  else if off = 0x2000100 then outState s (execPlsModeWrite (bitOf v 0) s)
  else if bitOf v 31 then s.clearOvf off
  else s

/-! ### 64-bit registers (R13, R625, R626) -/

/-- Whether the 64-bit register at this offset is RW. -/
def isRw64 (off : Nat) : Bool :=
  off == 0x103000 || off == 0x408008 || (decide (0x409000 ≤ off) && decide (off < 0x409400)) ||
  (decide (0x4C0000 ≤ off) && decide (off < 0x4C0108))

/-- What a write of the whole 64-bit register at this offset does: a value for a RW one, its OVF flag for the others. -/
def State.put64 (s : State) (agent off v : Nat) : State :=
  if !mayWrite agent off then s
  else if off = 0x103000 then s.modEvq fun e => { e with base := v / 4096 * 4096 }
  else if off = 0x408008 then s.modZfp fun z => { z with flipTick := BitVec.ofNat 64 v }
  else if 0x409000 ≤ off ∧ off < 0x409400 then
    s.modEntry ((off - 0x409000) / 16) fun e => ({ e with first := v } : CircEntry).settled s.clock.tick.toNat
  else if 0x4C0000 ≤ off ∧ off < 0x4C0108 then
    outState s (execRouteTableWrite true (Fin.ofNat 65536 ((off - 0x4C0000) / 8)) (BitVec.ofNat 64 v) s)
  else if bitOf v 63 then s.clearOvf off
  else s

/-- Which part of a register an aligned 32-bit access meets. -/
inductive RegPart where
  | absent
  | word (v : Nat)
  | low (v : Nat)
  | high (v : Nat)
  deriving DecidableEq, Repr

/-- The register that an aligned 32-bit access at this offset meets (R13, R14). -/
def State.partAt (s : State) (off : Nat) : RegPart :=
  match s.reg off with
  | some (4, v) => .word v
  | some (_, v) => .low v
  | none =>
    if off % 8 = 4 then
      match s.reg (off - 4) with
      | some (8, v) => .high v
      | _ => .absent
    else .absent

/-- Change the latches. -/
def State.modLatch (s : State) (f : Latches → Latches) : State := { s with latches := f s.latches }

/-- The mailbox whose MBX_LOCK stands at this offset. -/
def lockAt (off : Nat) : Option Nat :=
  if 0x180000 ≤ off ∧ off < 0x182000 ∧ off % 256 = 0 then some ((off - 0x180000) / 256) else none

/-- Whether this offset lies in a mailbox that the agent does not reach (R601). -/
def mbxShut (agent off : Nat) : Bool :=
  decide (0x180000 ≤ off) && decide (off < 0x180800) && !([1, 2, 0x10, 0x11].contains agent)

/-- A core's registers show it as of the present cycle. -/
def State.syncReg (s : State) (off : Nat) : State :=
  if 0x1000000 ≤ off ∧ off < 0x1900000 then
    let o := off % 0x10000
    let x := (off - 0x1000000) / 0x10000
    if 0x1000 ≤ o ∧ o < 0x1000 + 0x200 * 104 ∧ !isGw x then s.sync (104 * x + (o - 0x1000) / 0x200) else s
  else s

/-- R13, R14, R625: an aligned 32-bit read by an agent, with what it returns. -/
def State.read32 (s : State) (agent off : Nat) : State × Nat :=
  if off % 4 ≠ 0 then (s, 0)
  else match lockAt off with
    | some m => s.lockRead m agent
    | none =>
      if !mayRead agent off || mbxShut agent off then (s, 0)
      else
        let s1 := s.syncReg off
        match s1.partAt off with
        | .absent => (s1, 0)
        | .word v => (s1, v)
        | .low v => (s1.modLatch fun l => { l with latch := tput l.latch agent (off, BitVec.ofNat 32 (v / 2 ^ 32)) }, v % 2 ^ 32)
        | .high v =>
          match tfind s1.latches.latch agent with
          | some (tag, w) => (s1, if tag = off - 4 then w.toNat else v / 2 ^ 32)
          | none => (s1, v / 2 ^ 32)

/-- R13, R14, R625: an aligned 64-bit read. -/
def State.read64 (s : State) (agent off : Nat) : State × Nat :=
  if off % 8 ≠ 0 || !mayRead agent off || mbxShut agent off then (s, 0)
  else
    let s1 := s.syncReg off
    match s1.reg off with
    | some (8, v) => (s1, v)
    | _ => (s1, 0)

/-- The low word that an agent's earlier write holds for a register (R626). -/
def Latches.heldFor (l : Latches) (agent off : Nat) : Option Nat :=
  match tfind l.heldLow agent with
  | some (o, w) => if o = off then some w.toNat else none
  | none => none

/-- R9 to R14, R626: an aligned 32-bit write by an agent. -/
def State.write32 (s : State) (agent off v : Nat) : State :=
  if off % 4 ≠ 0 then s
  else match s.partAt off with
    | .absent => s
    | .word _ => s.put32 agent off v
    | .low _ =>
      let held (t : Tab (Nat × BitVec 32)) : Tab (Nat × BitVec 32) :=
        if isRw64 off && mayWrite agent off then tput t agent (off, BitVec.ofNat 32 v) else tdel t agent
      s.modLatch fun l => { l with heldLow := held l.heldLow }
    | .high cur =>
      if isRw64 (off - 4) then
        match s.latches.heldFor agent (off - 4) with
        | some low => (s.modLatch fun l => { l with heldLow := tdel l.heldLow agent }).put64 agent (off - 4) (low + v * 2 ^ 32)
        | none => s.put64 agent (off - 4) (cur % 2 ^ 32 + v * 2 ^ 32)
      else s.put64 agent (off - 4) (v * 2 ^ 32)

/-- R13, R14: an aligned 64-bit write. -/
def State.write64 (s : State) (agent off v : Nat) : State :=
  if off % 8 ≠ 0 then s
  else match s.reg off with
    | some (8, _) => s.put64 agent off v
    | _ => s

/-! ### The commands (18) -/

/-- R623. -/
def execOvfClear (a : RegAccess) (s : State) : Out := .next (if mayWrite a.agent a.off then s.clearOvf a.off else s)

/-- R625: an aligned 32-bit read of the low word of a 64-bit register. -/
def execLowWordRead (a : RegAccess) (s : State) : Out := .next (s.read32 a.agent a.off).1

/-- R626: a 32-bit write of the low word of a 64-bit register. -/
def execLowWordWrite (a : RegAccess) (value : BitVec 32) (s : State) : Out := .next (s.write32 a.agent a.off value.toNat)

/-- R626: a 32-bit write of the high word of the 64-bit register, at its own offset. -/
def execHighWordWrite (a : RegAccess) (value : BitVec 32) (s : State) : Out := .next (s.write32 a.agent a.off value.toNat)

/-- R9 to R14: an aligned 32-bit write. -/
def execRegisterWrite (a : RegAccess) (value : BitVec 32) (s : State) : Out := .next (s.write32 a.agent a.off value.toNat)

/-- A write of EVQ_CTL (18). -/
def execEvqCtlWrite (value : BitVec 32) (s : State) : Out := .next (s.modEvq fun e => e.writeCtl value.toNat)

/-- A write of EVQ_HEAD (18). -/
def execEvqHeadWrite (value : BitVec 32) (s : State) : Out := .next (s.modEvq fun e => e.writeHead value.toNat)

/-! ### Management over Zilusk (R395) -/

/-- A device named in a valid ZFP_MGMT_MGR entry. -/
def Zfp.isManager (z : Zfp) (dev : Nat) : Bool := z.mgr.any fun e => decide (e.1 < 4) && e.2.1 && e.2.2 == dev

/-- The registers that a manager device or a member may read: GLB, PWR, CLK and THM, ZFP, die and stack windows. -/
def mgmtReads (off : Nat) : Bool :=
  decide (off < 0x100000) || (decide (0x200000 ≤ off) && decide (off < 0x500000)) ||
  (decide (0x1000000 ≤ off) && decide (off < 0x1900000)) || (decide (0x2000000 ≤ off) && decide (off < 0x2400000))

/-- The registers that a manager device may write. -/
def mgmtWrites (off : Nat) : Bool :=
  (decide (0x408004 ≤ off) && decide (off < 0x408014)) || (decide (0x409000 ≤ off) && decide (off < 0x409400)) ||
  (decide (0x480000 ≤ off) && decide (off < 0x4C0108))

/-- A device with read access: a manager, or a live member of the job's step group. -/
def State.mgmtReader (s : State) (dev : Nat) : Bool := s.zfp.isManager dev || (s.memberOf dev).any fun m => m.live

/-- The access of a request: its state, the data read and the code (R395). -/
def State.mgmtAccess (s : State) (p : Packet) : State × Nat × Nat :=
  let a := p.gaddr % 2 ^ 48
  let wide := bitOf p.arg 16
  let off := a - ctlBase
  let agent := managerAgent p.srcDev
  if 0x400000000000 ≤ a ∧ a < 0x400600000000 then (s, 0, 0x095)
  else if 0x400600000000 ≤ a ∧ a < ctlBase then (s, 0, 0x096)
  else if a < ctlBase ∨ ctlBase + ctlSize ≤ a then (s, 0, 0x0A0)
  else if bitOf p.arg 17 then
    if mgmtWrites off && s.zfp.isManager p.srcDev then
      (if wide then s.write64 agent off (leField p.inl 0 8) else s.write32 agent off (leField p.inl 0 4), 0, 0)
    else (s, 0, 0x0A0)
  else if mgmtReads off && s.mgmtReader p.srcDev then
    let q := if wide then s.read64 agent off else s.read32 agent off
    (q.1, q.2, 0)
  else (s, 0, 0x0A0)

/-- R395: the active panel steward answers a request, with data that the request has read. -/
def execMgmtReq (rx : Nat) (s : State) : Out :=
  match s.rxFor rx 5 with
  | none => .next s
  | some x =>
    if s.stew.active.isNone then .next s
    else
      let s1 := s.dropRx rx
      match s1.arrivalDrop x with
      | some s2 => .next s2
      | none =>
        let q := s1.mgmtAccess x.pkt
        .next (q.1.sendPacket (plainPacket 6 x.pkt.cls (x.pkt.srcDev * 2 ^ 48 + x.pkt.srcNode) (q.1.raiser panelNode) (x.pkt.arg % 65536)
          (leBytes 8 q.2.1 ++ leBytes 2 q.2.2)))

/-! ### The queue space (R443, R446, R455) -/

/-- Device-local address and length of the queue space. -/
def queueBase : Nat := 0x7F8000000000
def queueSpan : Nat := 0x1200000

/-- A byte of the queue space, by offset: of a command, or of a status word; 0 outside the queue's depth (R446). -/
def State.queueByte (s : State) (o : Nat) : BitVec 8 :=
  if o < 0x1000000 then
    if o % 0x40000 / 64 < (s.queue (o / 0x40000)).size then Memory.read s.hif.cmds o else 0#8
  else
    let w := o - 0x1000000
    let q := w / 0x8000
    let i := w % 0x8000 / 8
    if i < (s.queue q).size then BitVec.ofNat 8 ((s.status q i).reg / 256 ^ (w % 8)) else 0#8

/-- A host write into the queue space: command bytes within the queue's depth are kept; nothing else is written (R446). -/
def State.queuePut (s : State) (o : Nat) : List (BitVec 8) → State
  | [] => s
  | b :: bs =>
    (if o < 0x1000000 ∧ o % 0x40000 / 64 < (s.queue (o / 0x40000)).size then
      s.modHif fun h => { h with cmds := Memory.write h.cmds o b } else s).queuePut (o + 1) bs

/-! ### The host links (R439, R660) -/

/-- The ranges of R439. -/
inductive HostRange where | plos | pads | hole | ctl | queues
  deriving DecidableEq, Repr

/-- The range of an address and how far it reaches, none outside every range. -/
def hostRange (a : Nat) : Option (HostRange × Nat) :=
  if a < stackRange then some (.plos, stackRange)
  else if 0x400000000000 ≤ a ∧ a < 0x400600000000 then some (.pads, 0x400600000000)
  else if 0x400600000000 ≤ a ∧ a < ctlBase then some (.hole, ctlBase)
  else if ctlBase ≤ a ∧ a < ctlBase + ctlSize then some (.ctl, ctlBase + ctlSize)
  else if queueBase ≤ a ∧ a < queueBase + queueSpan then some (.queues, queueBase + queueSpan)
  else none

/-- The range that holds all the bytes of a request. -/
def rangeOf (a n : Nat) : Option HostRange :=
  match hostRange a with
  | some (r, e) => if a + n ≤ e then some r else none
  | none => none

/-- Whether a stack that the bytes touch is lost. -/
def State.touchesLost (s : State) (a n : Nat) : Bool :=
  [a, a + n - 1].any fun x => (s.stack ((stackAddr s.plos.placed x).1 % 16)).mode == .lost

/-- A host write into scratchpads: each granule as one KIND WADI flit from the link's host interface node (R439). -/
def State.hostWadi (s : State) (link cls : Nat) (off i : Nat) : Nat → List (BitVec 8) → State
  | 0, _ => s
  | n + 1, bs =>
    let node := hifNode (link == 1)
    let site := if link = 1 then 130 else 13
    (s.sendWadi node (off / spadSize) (off % spadSize / 64) cls (posOf (13 * siteX site + 6) (8 * siteY site + 4)) (s.epochAt site) none
      (s.clock.now + 2 + i) 0 [] 1 (bs.take 64)).hostWadi link cls (off + 64) (i + 1) n (bs.drop 64)

/-- The agent number of host software through a link (R469). -/
def hostAgent (link : Nat) : Nat := 1 + link

/-- A well-formed host write, by its range (R439). -/
def State.hostWrite (s : State) (link cls tag a : Nat) (data : List (BitVec 8)) : State :=
  let n := data.length
  match rangeOf a n with
  | none => s.answer link tag 0x0C9 []
  | some .plos =>
    if cls = 0 then s.answer link tag 0x0C8 []
    else if s.touchesLost a n then s.answer link tag 0x081 []
    else s.askStack (.host link tag false 0) cls a n (some (data, []))
  | some .pads =>
    if a % 64 ≠ 0 ∨ n % 64 ≠ 0 then s.answer link tag 0x0C8 []
    else (s.hostWadi link cls (a - 0x400000000000) 0 (n / 64) data).answer link tag 0 []
  | some .hole => s.answer link tag 0x096 []
  | some .ctl =>
    let off := a - ctlBase
    (if n = 4 then s.write32 (hostAgent link) off (leNat data)
     else if n = 8 then s.write64 (hostAgent link) off (leNat data)
     else s).answer link tag 0 []
  | some .queues => (s.queuePut (a - queueBase) data).answer link tag 0 []

/-- A well-formed host read, by its range (R439). -/
def State.hostRead (s : State) (link cls tag a n : Nat) : State :=
  match rangeOf a n with
  | none => s.answer link tag 0x0C9 []
  | some .plos =>
    if cls = 0 then s.answer link tag 0x0C8 []
    else if s.touchesLost a n then s.answer link tag 0x081 []
    else s.askStack (.host link tag true (a % 8)) cls a n none
  | some .pads => s.answer link tag 0x095 []
  | some .hole => s.answer link tag 0x096 []
  | some .ctl =>
    let off := a - ctlBase
    let q := if n = 4 then s.read32 (hostAgent link) off else if n = 8 then s.read64 (hostAgent link) off else (s, 0)
    q.1.answer link tag 0 (leBytes n q.2)
  | some .queues => s.answer link tag 0 ((List.range n).map fun i => s.queueByte (a - queueBase + i))

/-- Whether a link takes a further host request: it is UP, and holds fewer than 256 that are not answered (R439). -/
def State.takesRequest (s : State) (link : Nat) : Bool :=
  (s.port (32 + link)).up && decide ((s.hif.outstanding.filter fun e => e.1 == link).length < 256)

/-- A request is held until it is answered. -/
def State.holdRequest (s : State) (link tag : Nat) : State := s.modHif fun h => { h with outstanding := h.outstanding ++ [(link, tag)] }

/-- R439, R660: a host write, or a malformed transaction. -/
def execMwr (link : HostLink) (head : HostHead) (data : List (BitVec 8)) (s : State) : Out :=
  if !s.takesRequest link then .next s
  else
    let tag := head.tag.toNat
    let s1 := s.holdRequest link tag
    if headBad head true || decide (data.length ≠ head.len.toNat) then .next (s1.answer link tag 0x0CE [])
    else .next (s1.hostWrite link (head.cls.toNat % 4) tag head.addr.toNat data)

/-- R439, R660: a host read. -/
def execMrd (link : HostLink) (head : HostHead) (s : State) : Out :=
  if !s.takesRequest link then .next s
  else
    let tag := head.tag.toNat
    let s1 := s.holdRequest link tag
    if headBad head true then .next (s1.answer link tag 0x0CE [])
    else .next (s1.hostRead link (head.cls.toNat % 4) tag head.addr.toNat head.len.toNat)

end Sys2Proof.Machine
end

