-- ==== Sys2Proof/Machine/RouteOps.lean ====
section
/-! DEFINITION. The ROUTE slot's actions (R208). -/

namespace Sys2Proof.Machine

open Sys2Proof

/-- R208 SENDV. -/
def execSendv (p : PCore) (h : Header) (g : BitVec 5) (cls : BitVec 2) (reg : BitVec 6) (target : BitVec 14) (doff : BitVec 15) (s : State) : Out :=
  .next (s.issueBundle p { hdr := h, route := .sendv, routeG := g, cls := cls, rreg := reg, target := target, doff := doff })

/-- R208 SENDQ0 to SENDQ3. -/
def execSendq (p : PCore) (h : Header) (g : BitVec 5) (cls : BitVec 2) (reg : BitVec 6) (q : BitVec 2) (target : BitVec 14) (doff : BitVec 15) (s : State) : Out :=
  .next (s.issueBundle p { hdr := h, route := .sendq q, routeG := g, cls := cls, rreg := reg, target := target, doff := doff })

/-- R208 SENDW. -/
def execSendw (p : PCore) (h : Header) (g : BitVec 5) (cls : BitVec 2) (reg : BitVec 6) (target : BitVec 14) (doff : BitVec 15) (s : State) : Out :=
  .next (s.issueBundle p { hdr := h, route := .sendw, routeG := g, cls := cls, rreg := reg, target := target, doff := doff })

/-- R211 WSENDV. -/
def execWsendv (p : PCore) (h : Header) (g : BitVec 5) (cls : BitVec 2) (reg : BitVec 6) (target : BitVec 14) (doff : BitVec 15) (s : State) : Out :=
  .next (s.issueBundle p { hdr := h, route := .wsendv, routeG := g, cls := cls, rreg := reg, target := target, doff := doff })

/-- R211 WSENDQ0 to WSENDQ3. -/
def execWsendq (p : PCore) (h : Header) (g : BitVec 5) (cls : BitVec 2) (reg : BitVec 6) (q : BitVec 2) (target : BitVec 14) (doff : BitVec 15) (s : State) : Out :=
  .next (s.issueBundle p { hdr := h, route := .wsendq q, routeG := g, cls := cls, rreg := reg, target := target, doff := doff })

/-- R276 REDV. -/
def execRedv (p : PCore) (h : Header) (g : BitVec 5) (cls : BitVec 2) (reg : BitVec 6) (target : BitVec 14) (s : State) : Out :=
  .next (s.issueBundle p { hdr := h, route := .redv, routeG := g, cls := cls, rreg := reg, target := target })

/-- R272 CIRCV. -/
def execCircv (p : PCore) (h : Header) (g : BitVec 5) (cls : BitVec 2) (reg : BitVec 6) (target : BitVec 14) (doff : BitVec 15) (s : State) : Out :=
  .next (s.issueBundle p { hdr := h, route := .circv, routeG := g, cls := cls, rreg := reg, target := target, doff := doff })

/-- R290 STRM. -/
def execStrm (p : PCore) (h : Header) (g : BitVec 5) (cls : BitVec 2) (reg : BitVec 6) (target : BitVec 14) (s : State) : Out :=
  .next (s.issueBundle p { hdr := h, route := .strm, routeG := g, cls := cls, rreg := reg, target := target })

/-- R307 SAECMD. -/
def execSaecmd (p : PCore) (h : Header) (g : BitVec 5) (cls : BitVec 2) (reg : BitVec 6) (target : BitVec 14) (s : State) : Out :=
  .next (s.issueBundle p { hdr := h, route := .saecmd, routeG := g, cls := cls, rreg := reg, target := target })

/-- R327 WOPEN. -/
def execWopen (p : PCore) (h : Header) (g : BitVec 5) (reg : BitVec 6) (target : BitVec 14) (s : State) : Out :=
  .next (s.issueBundle p { hdr := h, route := .wopen, routeG := g, rreg := reg, target := target })

/-- R212 WCLOSE. -/
def execWclose (p : PCore) (h : Header) (g : BitVec 5) (target : BitVec 14) (s : State) : Out :=
  .next (s.issueBundle p { hdr := h, route := .wclose, routeG := g, target := target })

/-- R336 RDMA. -/
def execRdma (p : PCore) (h : Header) (g : BitVec 5) (cls : BitVec 2) (reg : BitVec 6) (s : State) : Out :=
  .next (s.issueBundle p { hdr := h, route := .rdma, routeG := g, cls := cls, rreg := reg })

end Sys2Proof.Machine
end

