-- ==== Sys2Proof/Machine/Tensor.lean ====
section
/-! DEFINITION. The TENSOR slot's operation (R194). -/

namespace Sys2Proof.Machine

open Sys2Proof

/-- R194 MMA. -/
def execMma (p : PCore) (h : Header) (g : BitVec 5) (va vb : BitVec 5) (afmt bfmt : BitVec 4) (scale : BitVec 3) (agrp bgrp : BitVec 2) (accz : Bool) (s : State) : Out :=
  .next (s.issueBundle p { hdr := h, tensor := .mma va vb afmt bfmt scale agrp bgrp accz, tensorG := g })

end Sys2Proof.Machine
end

