-- ==== Sys2Proof/Machine/Upkeep.lean ====
section
/-! DEFINITION. Background activities (R616 to R621), the event queue (R627 to R632, R396), the module's management bus (R649) and its
carriers (R645). -/

namespace Sys2Proof.Machine

open Sys2Proof

/-! ### Background activities (R616 to R621) -/

/-- Scrub reads, corrects and rewrites a word of a scratchpad: a single-bit error goes (R82, R616). -/
def State.scrubWord (s : State) (p w : Nat) : State :=
  let one := tget 0 s.srams.flips (wordKey p w) == 1 && !s.wordPoison p w
  let s1 := (s.readWord p w).1
  if one then s1.modSrams fun r => { r with flips := mset 0 r.flips (wordKey p w) 0 } else s1

/-- Scrub reads, corrects and rewrites a bundle of an instruction memory (R87, R616). -/
def State.scrubBundle (s : State) (p j : Nat) : State :=
  match tget 0 s.srams.imemFlips (imKey p j) with
  | 0 => s
  | 1 => (s.countCorr p).modSrams fun r => { r with imemFlips := mset 0 r.imemFlips (imKey p j) 0 }
  | _ => s.countUncorr p none

/-- Scrub reads a granule of a core: of its scratchpad, or from 32,768 on a bundle (R616). -/
def State.scrubCore (s : State) (p granule : Nat) : State :=
  let s1 := s.sync p
  if granule < 32768 then s1.each (fun s i => s.scrubWord p (8 * granule + i)) (List.range 8)
  else s1.scrubBundle p (granule - 32768)

/-- Patrol scrub reads, corrects and rewrites a granule of a stack (R303, R305, R616). -/
def State.scrubStack (s : State) (n granule : Nat) : State :=
  let off := 64 * granule
  let one := !(s.stack n).dead off && tget 0 s.plos.flips (s.stKey n off / 64) == 1
  let s1 := s.checkGranule n off
  if one then s1.modStacks fun t => { t with flips := mset 0 t.flips (s.stKey n off / 64) 0 } else s1

/-- The copies that the management bus serves, by command code, as telemetry gathers them (R649). -/
def State.telemetry (s : State) : Tab Nat :=
  let boot := match s.stew.active with
    | some gw7 => s.bootReg (if gw7 then 7 else 0)
    | none => 0
  [(1, s.panelStateReg), (3, s.pwr.powerReg), (4, s.pwr.statReg), (5, s.clk.thmStatReg), (6, s.clk.waterReg), (7, s.clk.parkReg),
   (8, s.sec.stat), (9, boot)]

/-- What a period's last work brings: rebuilt pages (R434), fresh copies (R649). -/
def State.actDone (s : State) (act : Nat) : State :=
  if act = 5 then s.modNvm fun v => { v with stripes := tmap (fun _ x => { x with lost := [] }) v.stripes }
  else if act = 6 then { s with mc := { s.mc with mirror := s.telemetry } }
  else s

/-- The share of a period's work done, in %. -/
def BgAct.pct (a : BgAct) : Nat := if a.total = 0 then 0 else 100 * (a.total - a.work) / a.total

/-- Work served: an activity with none left is no longer urgent (R618). -/
def BgAct.serve (a : BgAct) (n : Nat) : BgAct :=
  let b := { a with work := a.work - n }
  { b with donePct := b.pct, urgent := b.urgent && decide (0 < b.work) }

/-- R616, R617. -/
def execBackgroundUnit (act : Fin 7) (served unit granule : Nat) (s : State) : Out :=
  let s1 := if act.val = 0 ∧ unit < 14976 ∧ !isGw (pSite unit) ∧ granule < 34816 then s.scrubCore unit granule
    else if act.val = 4 ∧ unit < 16 ∧ granule < 0x1800000000 / 64 then s.scrubStack unit granule
    else s
  let s2 := s1.modAct act fun a => a.serve served
  .next (if 0 < (s.bgAct act).work ∧ (s2.bgAct act).work = 0 then s2.actDone act else s2)

/-- A new period: the work left over comes first (R621). -/
def BgAct.renew (a : BgAct) (work period : Nat) : BgAct :=
  { a with work := a.work + work, total := a.work + work, left := period, urgent := false, donePct := 0 }

/-- R621. -/
def execPeriodEnd (act : Fin 7) (unit : BitVec 16) (work : Nat) (s : State) : Out :=
  let a := s.bgAct act
  let period := bgPeriod act s.nvm.patrolDays
  if a.work = 0 then .next (s.modAct act fun a => a.renew work period)
  else
    let b := bump 0xFF a.missed a.ovf
    .next ((((s.modAct act fun a => ({ a with missed := b.1, ovf := b.2.1 } : BgAct).renew work period).raise 0x0E02 panelNode act
      [(1, act.val), (2, unit.toNat)])).cntOvf b.2.2 (0x2010 + 4 * act.val) 22 panelNode)

/-! ### The event queue (R627 to R632, R396) -/

/-- The class in which an event is forwarded to manager devices (R632, Fwd), none for one that is not. -/
def forwardClass (code : Nat) : Option Nat :=
  if code = 0x0902 ∨ code = 0x0B09 then some 0
  else if [0x0103, 0x0104, 0x0307, 0x0308, 0x0404, 0x0601, 0x0603, 0x0606, 0x0702, 0x0703, 0x0706, 0x0901, 0x0904, 0x0905, 0x0906,
      0x0A01, 0x0A05, 0x0A06, 0x0A07, 0x0A08, 0x0B01, 0x0B04, 0x0B05, 0x0B06, 0x0B08, 0x0C02, 0x0E02].contains code then some 3
  else none

/-- Bytes 0x08 to 0x1F of an event's entry (R628). -/
def EventRec.tail (e : EventRec) : List (BitVec 8) :=
  (leBytes 2 e.node ++ leBytes 2 e.unit ++ e.data ++ List.replicate 20 0#8).take 24

/-- Bytes 0x04 to 0x1F of an event's entry (R628, R629). -/
def EventRec.rest (e : EventRec) : List (BitVec 8) := leBytes 4 e.tick ++ e.tail

/-- The entries of an event: two for EV_ZFP_NOTE (R628). -/
def EventRec.entries (e : EventRec) : List EventRec :=
  if e.code = 0x0605 then [{ e with unit := 0, data := e.data.take 20 }, { e with unit := 1, data := e.data.drop 20 }] else [e]

/-- Whether this is the second entry of an EV_ZFP_NOTE, which follows its first at once (R628). -/
def EventRec.second (e : EventRec) : Bool := e.code == 0x0605 && e.unit == 1

/-- Manager devices (R395). -/
def Zfp.managers (z : Zfp) : List Nat := ((z.mgr.filter fun e => decide (e.1 < 4) && e.2.1).map fun e => e.2.2)

/-- R396: a note of a forwarded event to every manager device. -/
def State.forwardEvent (s : State) (e : EventRec) : State :=
  match forwardClass e.code with
  | none => s
  | some cls => s.zfp.managers.foldl (fun s dev => s.sendPacket (plainPacket 7 cls (dev * 2 ^ 48) (s.raiser panelNode) 0
      (leBytes 2 e.code ++ leBytes 2 s.zfp.devNum ++ leBytes 4 s.tick32 ++ e.tail))) s

/-- Count events that the full buffer drops (R631). -/
def State.countLostEvents (s : State) (n : Nat) : State :=
  let b := bumpN 0x7FF s.evq.lost n s.evq.ovf
  (s.modEvq fun e => { e with lost := b.1, ovf := b.2.1, lostSince := e.lostSince + n }).cntOvf b.2.2 0x103010 15 panelNode

/-- R631, R632: the oldest EVENT flit on its way reaches the active panel steward, which buffers the event or drops it, and forwards
it. -/
def execEventFlit (s : State) : Out :=
  match s.evq.travelling, s.stew.active with
  | e :: r, some _ =>
    let s1 := s.modEvq fun q => { q with travelling := r }
    let s2 := if s.evq.buffer.length + e.entries.length ≤ 1024 then s1.modEvq fun q => { q with buffer := q.buffer ++ e.entries }
      else s1.countLostEvents e.entries.length
    .next (s2.forwardEvent e)
  | _, _ => .next s

/-- Whether an entry can be written: the ring is enabled and has room, a link is UP, and the panel has started (R627, R631). -/
def State.mayWriteEvent (s : State) : Bool :=
  let q := s.evq
  q.enable && decide ((q.tail + 1) % 2 ^ q.size ≠ q.head) && ((s.port 32).up || (s.port 33).up) && s.panel.mode != .starting

/-- R629: bytes 0x04 to 0x1F of entry TAIL, and then bytes 0x00 to 0x03. -/
def State.putEntry (s : State) (e : EventRec) : State :=
  let a := s.evq.base + 32 * s.evq.tail
  let s1 := (s.hostXfer s.stewardGw7 .event (a + 4) 28 (some e.rest)).hostXfer s.stewardGw7 .event a 4
    (some (leBytes 2 e.code ++ leBytes 2 s.evq.seq))
  s1.modEvq fun q => { q with tail := (q.tail + 1) % 2 ^ q.size, seq := (q.seq + 1) % 65536 }

/-- EV_EVQ_LOST, with the number lost since the last one (R631). -/
def State.lostEvent (s : State) : EventRec :=
  ⟨0x0E04, s.tick32, s.raiser panelNode, noUnit, leBytes 2 (min 0x7FF s.evq.lostSince)⟩

/-- R627 to R631: the active panel steward writes its next entry, EV_EVQ_LOST before any other when events have been lost. -/
def execEventWrite (s : State) : Out :=
  if !s.mayWriteEvent || s.stew.active.isNone then .next s
  else
    let inNote : Bool := match s.evq.buffer with
      | e :: _ => e.second
      | [] => false
    if 0 < s.evq.lostSince && !inNote then .next ((s.putEntry s.lostEvent).modEvq fun q => { q with lostSince := 0 })
    else match s.evq.buffer with
      | e :: r => .next ((s.putEntry e).modEvq fun q => { q with buffer := r })
      | [] => .next s

/-! ### The module (19) -/

/-- The module's 7-bit address on the management bus (R649). -/
def McRec.address (m : McRec) : Nat := 0x58 + m.straps % 4

/-- A copied register before its first refresh: its reset value (R649). -/
def State.mirrorReset (s : State) (code : Nat) : Nat :=
  if code = 8 then ({ s.sec with debug := false, scan := false, rootA := false, rootB := false } : Sec).stat else 0

/-- What a command code reads, none for a code that R649 does not list. -/
def State.smbusReg (s : State) (code : Nat) : Option Nat :=
  if code = 0 then some panelIdReg
  else if code = 2 then some s.pwr.inReg
  else if code ≤ 9 then some (tget (s.mirrorReset code) s.mc.mirror code)
  else none

/-- Whether the module answers on the bus: at its own address, while the input is not below 54 V (R648, R649). -/
def State.onBus (s : State) (addr : Nat) : Bool := decide (5400 ≤ s.pwr.vin) && addr == s.mc.address

/-- R649. -/
def execSmbusBlockRead (addr : BitVec 7) (code : BitVec 8) (s : State) : Out :=
  let reply := if s.onBus addr.toNat then
      some (match s.smbusReg code.toNat with
        | some v => 4#8 :: leBytes 4 v
        | none => [0#8])
    else none
  .next { s with mc := { s.mc with reply := reply } }

/-- R649: every write is NAKed. -/
def execSmbusWrite (_addr : BitVec 7) (_code : BitVec 8) (_bytes : List (BitVec 8)) (s : State) : Out :=
  .next { s with mc := { s.mc with reply := none } }

/-- R645: every channel of the bay leaves service at once. -/
def execCarrierRemoved (bay : Fin 8) (s : State) : Out :=
  let s1 : State := { s with mc := { s.mc with removed := bay.val :: s.mc.removed.filter (· ≠ bay.val) } }
  .next (s1.each (fun s c => s.channelOut c none) [4 * bay.val, 4 * bay.val + 1, 4 * bay.val + 2, 4 * bay.val + 3])

/-- R645: ignored until the next cold start. -/
def execCarrierInserted (_bay : Fin 8) (s : State) : Out := .next s

end Sys2Proof.Machine
end

