-- ==== Sys2Proof/Machine/Vector.lean ====
section
/-! DEFINITION. The VECTOR slot's operations (R197). -/

namespace Sys2Proof.Machine

open Sys2Proof

/-- R197 FADD. -/
def execFadd (p : PCore) (h : Header) (g : BitVec 5) (vd va vb : BitVec 6) (rm : BitVec 2) (s : State) : Out :=
  .next (s.issueBundle p { hdr := h, vec := .fadd, vecG := g, vargs := { vd := vd, va := va, vb := vb, rm := rm } })

/-- R197 FSUB. -/
def execFsub (p : PCore) (h : Header) (g : BitVec 5) (vd va vb : BitVec 6) (rm : BitVec 2) (s : State) : Out :=
  .next (s.issueBundle p { hdr := h, vec := .fsub, vecG := g, vargs := { vd := vd, va := va, vb := vb, rm := rm } })

/-- R197 FMUL. -/
def execFmul (p : PCore) (h : Header) (g : BitVec 5) (vd va vb : BitVec 6) (rm : BitVec 2) (s : State) : Out :=
  .next (s.issueBundle p { hdr := h, vec := .fmul, vecG := g, vargs := { vd := vd, va := va, vb := vb, rm := rm } })

/-- R197 FMA. -/
def execFma (p : PCore) (h : Header) (g : BitVec 5) (vd va vb vc : BitVec 6) (rm : BitVec 2) (s : State) : Out :=
  .next (s.issueBundle p { hdr := h, vec := .fma, vecG := g, vargs := { vd := vd, va := va, vb := vb, vc := vc, rm := rm } })

/-- R197 FMS. -/
def execFms (p : PCore) (h : Header) (g : BitVec 5) (vd va vb vc : BitVec 6) (rm : BitVec 2) (s : State) : Out :=
  .next (s.issueBundle p { hdr := h, vec := .fms, vecG := g, vargs := { vd := vd, va := va, vb := vb, vc := vc, rm := rm } })

/-- R197 FNMA. -/
def execFnma (p : PCore) (h : Header) (g : BitVec 5) (vd va vb vc : BitVec 6) (rm : BitVec 2) (s : State) : Out :=
  .next (s.issueBundle p { hdr := h, vec := .fnma, vecG := g, vargs := { vd := vd, va := va, vb := vb, vc := vc, rm := rm } })

/-- R197 FMIN, R200. -/
def execFmin (p : PCore) (h : Header) (g : BitVec 5) (vd va vb : BitVec 6) (s : State) : Out :=
  .next (s.issueBundle p { hdr := h, vec := .fmin, vecG := g, vargs := { vd := vd, va := va, vb := vb } })

/-- R197 FMAX, R200. -/
def execFmax (p : PCore) (h : Header) (g : BitVec 5) (vd va vb : BitVec 6) (s : State) : Out :=
  .next (s.issueBundle p { hdr := h, vec := .fmax, vecG := g, vargs := { vd := vd, va := va, vb := vb } })

/-- R197 FABS. -/
def execFabs (p : PCore) (h : Header) (g : BitVec 5) (vd va : BitVec 6) (s : State) : Out :=
  .next (s.issueBundle p { hdr := h, vec := .fabs, vecG := g, vargs := { vd := vd, va := va } })

/-- R197 FNEG. -/
def execFneg (p : PCore) (h : Header) (g : BitVec 5) (vd va : BitVec 6) (s : State) : Out :=
  .next (s.issueBundle p { hdr := h, vec := .fneg, vecG := g, vargs := { vd := vd, va := va } })

/-- R197 FEQ. -/
def execFeq (p : PCore) (h : Header) (g : BitVec 5) (vd va vb : BitVec 6) (s : State) : Out :=
  .next (s.issueBundle p { hdr := h, vec := .feq, vecG := g, vargs := { vd := vd, va := va, vb := vb } })

/-- R197 FLT. -/
def execFlt (p : PCore) (h : Header) (g : BitVec 5) (vd va vb : BitVec 6) (s : State) : Out :=
  .next (s.issueBundle p { hdr := h, vec := .flt, vecG := g, vargs := { vd := vd, va := va, vb := vb } })

/-- R197 FLE. -/
def execFle (p : PCore) (h : Header) (g : BitVec 5) (vd va vb : BitVec 6) (s : State) : Out :=
  .next (s.issueBundle p { hdr := h, vec := .fle, vecG := g, vargs := { vd := vd, va := va, vb := vb } })

/-- R197 FUNORD. -/
def execFunord (p : PCore) (h : Header) (g : BitVec 5) (vd va vb : BitVec 6) (s : State) : Out :=
  .next (s.issueBundle p { hdr := h, vec := .funord, vecG := g, vargs := { vd := vd, va := va, vb := vb } })

/-- R197 FNONFIN. -/
def execFnonfin (p : PCore) (h : Header) (g : BitVec 5) (vd va : BitVec 6) (s : State) : Out :=
  .next (s.issueBundle p { hdr := h, vec := .fnonfin, vecG := g, vargs := { vd := vd, va := va } })

/-- R197 IEQ. -/
def execIeq (p : PCore) (h : Header) (g : BitVec 5) (vd va vb : BitVec 6) (s : State) : Out :=
  .next (s.issueBundle p { hdr := h, vec := .ieq, vecG := g, vargs := { vd := vd, va := va, vb := vb } })

/-- R197 ILT. -/
def execIlt (p : PCore) (h : Header) (g : BitVec 5) (vd va vb : BitVec 6) (s : State) : Out :=
  .next (s.issueBundle p { hdr := h, vec := .ilt, vecG := g, vargs := { vd := vd, va := va, vb := vb } })

/-- R197 ILTU. -/
def execIltu (p : PCore) (h : Header) (g : BitVec 5) (vd va vb : BitVec 6) (s : State) : Out :=
  .next (s.issueBundle p { hdr := h, vec := .iltu, vecG := g, vargs := { vd := vd, va := va, vb := vb } })

/-- R197 IADD. -/
def execIadd (p : PCore) (h : Header) (g : BitVec 5) (vd va vb : BitVec 6) (s : State) : Out :=
  .next (s.issueBundle p { hdr := h, vec := .iadd, vecG := g, vargs := { vd := vd, va := va, vb := vb } })

/-- R197 ISUB. -/
def execIsub (p : PCore) (h : Header) (g : BitVec 5) (vd va vb : BitVec 6) (s : State) : Out :=
  .next (s.issueBundle p { hdr := h, vec := .isub, vecG := g, vargs := { vd := vd, va := va, vb := vb } })

/-- R197 IMUL. -/
def execImul (p : PCore) (h : Header) (g : BitVec 5) (vd va vb : BitVec 6) (s : State) : Out :=
  .next (s.issueBundle p { hdr := h, vec := .imul, vecG := g, vargs := { vd := vd, va := va, vb := vb } })

/-- R197 AND. -/
def execVand (p : PCore) (h : Header) (g : BitVec 5) (vd va vb : BitVec 6) (s : State) : Out :=
  .next (s.issueBundle p { hdr := h, vec := .and, vecG := g, vargs := { vd := vd, va := va, vb := vb } })

/-- R197 OR. -/
def execVor (p : PCore) (h : Header) (g : BitVec 5) (vd va vb : BitVec 6) (s : State) : Out :=
  .next (s.issueBundle p { hdr := h, vec := .or, vecG := g, vargs := { vd := vd, va := va, vb := vb } })

/-- R197 XOR. -/
def execVxor (p : PCore) (h : Header) (g : BitVec 5) (vd va vb : BitVec 6) (s : State) : Out :=
  .next (s.issueBundle p { hdr := h, vec := .xor, vecG := g, vargs := { vd := vd, va := va, vb := vb } })

/-- R197 SHL. -/
def execVshl (p : PCore) (h : Header) (g : BitVec 5) (vd va vb : BitVec 6) (s : State) : Out :=
  .next (s.issueBundle p { hdr := h, vec := .shl, vecG := g, vargs := { vd := vd, va := va, vb := vb } })

/-- R197 SHR. -/
def execVshr (p : PCore) (h : Header) (g : BitVec 5) (vd va vb : BitVec 6) (s : State) : Out :=
  .next (s.issueBundle p { hdr := h, vec := .shr, vecG := g, vargs := { vd := vd, va := va, vb := vb } })

/-- R197 SRA. -/
def execVsra (p : PCore) (h : Header) (g : BitVec 5) (vd va vb : BitVec 6) (s : State) : Out :=
  .next (s.issueBundle p { hdr := h, vec := .sra, vecG := g, vargs := { vd := vd, va := va, vb := vb } })

/-- R197 IMIN. -/
def execImin (p : PCore) (h : Header) (g : BitVec 5) (vd va vb : BitVec 6) (s : State) : Out :=
  .next (s.issueBundle p { hdr := h, vec := .imin, vecG := g, vargs := { vd := vd, va := va, vb := vb } })

/-- R197 IMAX. -/
def execImax (p : PCore) (h : Header) (g : BitVec 5) (vd va vb : BitVec 6) (s : State) : Out :=
  .next (s.issueBundle p { hdr := h, vec := .imax, vecG := g, vargs := { vd := vd, va := va, vb := vb } })

/-- R197 MOV. -/
def execVmov (p : PCore) (h : Header) (g : BitVec 5) (vd va : BitVec 6) (s : State) : Out :=
  .next (s.issueBundle p { hdr := h, vec := .mov, vecG := g, vargs := { vd := vd, va := va } })

/-- R197 SEL. -/
def execSel (p : PCore) (h : Header) (g : BitVec 5) (vd va vb vc : BitVec 6) (s : State) : Out :=
  .next (s.issueBundle p { hdr := h, vec := .sel, vecG := g, vargs := { vd := vd, va := va, vb := vb, vc := vc } })

/-- R197 SPLAT. -/
def execSplat (p : PCore) (h : Header) (g : BitVec 5) (vd va : BitVec 6) (s : State) : Out :=
  .next (s.issueBundle p { hdr := h, vec := .splat, vecG := g, vargs := { vd := vd, va := va } })

/-- R197 EXTR. -/
def execExtr (p : PCore) (h : Header) (g : BitVec 5) (vd va vb : BitVec 6) (s : State) : Out :=
  .next (s.issueBundle p { hdr := h, vec := .extr, vecG := g, vargs := { vd := vd, va := va, vb := vb } })

/-- R197 PERM. -/
def execPerm (p : PCore) (h : Header) (g : BitVec 5) (vd va vb : BitVec 6) (s : State) : Out :=
  .next (s.issueBundle p { hdr := h, vec := .perm, vecG := g, vargs := { vd := vd, va := va, vb := vb } })

/-- R197 IOTA. -/
def execIota (p : PCore) (h : Header) (g : BitVec 5) (vd : BitVec 6) (s : State) : Out :=
  .next (s.issueBundle p { hdr := h, vec := .iota, vecG := g, vargs := { vd := vd } })

/-- R197 INS8. -/
def execIns8 (p : PCore) (h : Header) (g : BitVec 5) (vd va : BitVec 6) (part : BitVec 3) (s : State) : Out :=
  .next (s.issueBundle p { hdr := h, vec := .ins8, vecG := g, vargs := { vd := vd, va := va, part := part } })

/-- R197 EXT8. -/
def execExt8 (p : PCore) (h : Header) (g : BitVec 5) (vd va : BitVec 6) (part : BitVec 3) (s : State) : Out :=
  .next (s.issueBundle p { hdr := h, vec := .ext8, vecG := g, vargs := { vd := vd, va := va, part := part } })

/-- R197 FSUMR. -/
def execFsumr (p : PCore) (h : Header) (g : BitVec 5) (vd va : BitVec 6) (s : State) : Out :=
  .next (s.issueBundle p { hdr := h, vec := .fsumr, vecG := g, vargs := { vd := vd, va := va } })

/-- R197 FMAXR. -/
def execFmaxr (p : PCore) (h : Header) (g : BitVec 5) (vd va : BitVec 6) (s : State) : Out :=
  .next (s.issueBundle p { hdr := h, vec := .fmaxr, vecG := g, vargs := { vd := vd, va := va } })

/-- R197 RCP. -/
def execRcp (p : PCore) (h : Header) (g : BitVec 5) (vd va : BitVec 6) (s : State) : Out :=
  .next (s.issueBundle p { hdr := h, vec := .rcp, vecG := g, vargs := { vd := vd, va := va } })

/-- R197 RSQRT. -/
def execRsqrt (p : PCore) (h : Header) (g : BitVec 5) (vd va : BitVec 6) (s : State) : Out :=
  .next (s.issueBundle p { hdr := h, vec := .rsqrt, vecG := g, vargs := { vd := vd, va := va } })

/-- R197 EXP2. -/
def execExp2 (p : PCore) (h : Header) (g : BitVec 5) (vd va : BitVec 6) (s : State) : Out :=
  .next (s.issueBundle p { hdr := h, vec := .exp2, vecG := g, vargs := { vd := vd, va := va } })

/-- R197 EXP. -/
def execExp (p : PCore) (h : Header) (g : BitVec 5) (vd va : BitVec 6) (s : State) : Out :=
  .next (s.issueBundle p { hdr := h, vec := .exp, vecG := g, vargs := { vd := vd, va := va } })

/-- R197 LOG2. -/
def execLog2 (p : PCore) (h : Header) (g : BitVec 5) (vd va : BitVec 6) (s : State) : Out :=
  .next (s.issueBundle p { hdr := h, vec := .log2, vecG := g, vargs := { vd := vd, va := va } })

/-- R197 LOG. -/
def execLog (p : PCore) (h : Header) (g : BitVec 5) (vd va : BitVec 6) (s : State) : Out :=
  .next (s.issueBundle p { hdr := h, vec := .log, vecG := g, vargs := { vd := vd, va := va } })

/-- R197 EXPO. -/
def execExpo (p : PCore) (h : Header) (g : BitVec 5) (vd va : BitVec 6) (s : State) : Out :=
  .next (s.issueBundle p { hdr := h, vec := .expo, vecG := g, vargs := { vd := vd, va := va } })

/-- R197 SCALB. -/
def execScalb (p : PCore) (h : Header) (g : BitVec 5) (vd va vb : BitVec 6) (rm : BitVec 2) (s : State) : Out :=
  .next (s.issueBundle p { hdr := h, vec := .scalb, vecG := g, vargs := { vd := vd, va := va, vb := vb, rm := rm } })

/-- R201 CVT. -/
def execCvt (p : PCore) (h : Header) (g : BitVec 5) (vd va : BitVec 6) (rm : BitVec 2) (sr nsat : Bool) (fmt : BitVec 4) (part : BitVec 3) (s : State) : Out :=
  .next (s.issueBundle p { hdr := h, vec := .cvt, vecG := g, vargs := { vd := vd, va := va, rm := rm, sr := sr, nsat := nsat, fmt := fmt, part := part } })

/-- R201 CVTU. -/
def execCvtu (p : PCore) (h : Header) (g : BitVec 5) (vd va : BitVec 6) (rm : BitVec 2) (fmt : BitVec 4) (part : BitVec 3) (s : State) : Out :=
  .next (s.issueBundle p { hdr := h, vec := .cvtu, vecG := g, vargs := { vd := vd, va := va, rm := rm, fmt := fmt, part := part } })

/-- R202 QNT. -/
def execQnt (p : PCore) (h : Header) (g : BitVec 5) (vd va vb : BitVec 6) (rm : BitVec 2) (fmt : BitVec 4) (part : BitVec 3) (s : State) : Out :=
  .next (s.issueBundle p { hdr := h, vec := .qnt, vecG := g, vargs := { vd := vd, va := va, vb := vb, rm := rm, fmt := fmt, part := part } })

/-- R203 BCVT. -/
def execBcvt (p : PCore) (h : Header) (g : BitVec 5) (vd va : BitVec 6) (fmt : BitVec 4) (part : BitVec 3) (s : State) : Out :=
  .next (s.issueBundle p { hdr := h, vec := .bcvt, vecG := g, vargs := { vd := vd, va := va, fmt := fmt, part := part } })

/-- R203 BSCL. -/
def execBscl (p : PCore) (h : Header) (g : BitVec 5) (vd va vb : BitVec 6) (fmt : BitVec 4) (s : State) : Out :=
  .next (s.issueBundle p { hdr := h, vec := .bscl, vecG := g, vargs := { vd := vd, va := va, vb := vb, fmt := fmt } })

/-- R203 BUNP. -/
def execBunp (p : PCore) (h : Header) (g : BitVec 5) (vd va vb vc : BitVec 6) (fmt : BitVec 4) (part : BitVec 3) (s : State) : Out :=
  .next (s.issueBundle p { hdr := h, vec := .bunp, vecG := g, vargs := { vd := vd, va := va, vb := vb, vc := vc, fmt := fmt, part := part } })

end Sys2Proof.Machine
end

