-- ==== Sys2Proof/Machine/Dispatch.lean ====
section
/-! DEFINITION. The one dispatch from a command to its meaning, one arm per row of the table, in its order. -/

namespace Sys2Proof.Machine

open Sys2Proof

/-- A command's effect on everything but the queue. -/
def exec (i : Instr) (s : State) : Host.Outcome State Fault Refusal :=
  match i with
  | .mapCommit readbackOk => Sys2Proof.Machine.execMapCommit readbackOk s
  | .fitTestComplete pass added => Sys2Proof.Machine.execFitTestComplete pass added s
  | .gatewayRouterFail g fitPass added => Sys2Proof.Machine.execGatewayRouterFail g fitPass added s
  | .restingSelfcheckDone site row pass => Sys2Proof.Machine.execRestingSelfcheckDone site row pass s
  | .bulkCopyDone site row => Sys2Proof.Machine.execBulkCopyDone site row s
  | .handover site row => Sys2Proof.Machine.execHandover site row s
  | .heldBundleIssue p => Sys2Proof.Machine.execHeldBundleIssue p s
  | .holdExpiry p => Sys2Proof.Machine.execHoldExpiry p s
  | .stop p hold => Sys2Proof.Machine.execStop p hold s
  | .pageMark p hold => Sys2Proof.Machine.execPageMark p hold s
  | .tsyncArrival p => Sys2Proof.Machine.execTsyncArrival p s
  | .scheduledDelivery flit => Sys2Proof.Machine.execScheduledDelivery flit s
  | .coreHwCheck p => Sys2Proof.Machine.execCoreHwCheck p s
  | .coreFaultReport p selfcheckOk => Sys2Proof.Machine.execCoreFaultReport p selfcheckOk s
  | .hold p => Sys2Proof.Machine.execHold p s
  | .resume p => Sys2Proof.Machine.execResume p s
  | .selfcheck p => Sys2Proof.Machine.execSelfcheck p s
  | .selfcheckDone p pass => Sys2Proof.Machine.execSelfcheckDone p pass s
  | .sweep p => Sys2Proof.Machine.execSweep p s
  | .pageinComplete p => Sys2Proof.Machine.execPageinComplete p s
  | .nop p h g => Sys2Proof.Machine.execNop p h g s
  | .movi p h g dst imm => Sys2Proof.Machine.execMovi p h g dst imm s
  | .movhi p h g dst imm => Sys2Proof.Machine.execMovhi p h g dst imm s
  | .addi p h g dst imm => Sys2Proof.Machine.execAddi p h g dst imm s
  | .aluAdd p h g dst s1 s2 => Sys2Proof.Machine.execAluAdd p h g dst s1 s2 s
  | .aluSub p h g dst s1 s2 => Sys2Proof.Machine.execAluSub p h g dst s1 s2 s
  | .aluMul p h g dst s1 s2 => Sys2Proof.Machine.execAluMul p h g dst s1 s2 s
  | .aluAnd p h g dst s1 s2 => Sys2Proof.Machine.execAluAnd p h g dst s1 s2 s
  | .aluOr p h g dst s1 s2 => Sys2Proof.Machine.execAluOr p h g dst s1 s2 s
  | .aluXor p h g dst s1 s2 => Sys2Proof.Machine.execAluXor p h g dst s1 s2 s
  | .aluShl p h g dst s1 s2 => Sys2Proof.Machine.execAluShl p h g dst s1 s2 s
  | .aluShr p h g dst s1 s2 => Sys2Proof.Machine.execAluShr p h g dst s1 s2 s
  | .aluSra p h g dst s1 s2 => Sys2Proof.Machine.execAluSra p h g dst s1 s2 s
  | .aluMin p h g dst s1 s2 => Sys2Proof.Machine.execAluMin p h g dst s1 s2 s
  | .aluMax p h g dst s1 s2 => Sys2Proof.Machine.execAluMax p h g dst s1 s2 s
  | .aluMinu p h g dst s1 s2 => Sys2Proof.Machine.execAluMinu p h g dst s1 s2 s
  | .aluMaxu p h g dst s1 s2 => Sys2Proof.Machine.execAluMaxu p h g dst s1 s2 s
  | .aluFadd p h g dst s1 s2 => Sys2Proof.Machine.execAluFadd p h g dst s1 s2 s
  | .aluFsub p h g dst s1 s2 => Sys2Proof.Machine.execAluFsub p h g dst s1 s2 s
  | .aluFmul p h g dst s1 s2 => Sys2Proof.Machine.execAluFmul p h g dst s1 s2 s
  | .aluFmin p h g dst s1 s2 => Sys2Proof.Machine.execAluFmin p h g dst s1 s2 s
  | .aluFmax p h g dst s1 s2 => Sys2Proof.Machine.execAluFmax p h g dst s1 s2 s
  | .cmpEq p h g dst s1 s2 => Sys2Proof.Machine.execCmpEq p h g dst s1 s2 s
  | .cmpNe p h g dst s1 s2 => Sys2Proof.Machine.execCmpNe p h g dst s1 s2 s
  | .cmpLt p h g dst s1 s2 => Sys2Proof.Machine.execCmpLt p h g dst s1 s2 s
  | .cmpLe p h g dst s1 s2 => Sys2Proof.Machine.execCmpLe p h g dst s1 s2 s
  | .cmpLtu p h g dst s1 s2 => Sys2Proof.Machine.execCmpLtu p h g dst s1 s2 s
  | .cmpLeu p h g dst s1 s2 => Sys2Proof.Machine.execCmpLeu p h g dst s1 s2 s
  | .cmpFeq p h g dst s1 s2 => Sys2Proof.Machine.execCmpFeq p h g dst s1 s2 s
  | .cmpFlt p h g dst s1 s2 => Sys2Proof.Machine.execCmpFlt p h g dst s1 s2 s
  | .cmpFle p h g dst s1 s2 => Sys2Proof.Machine.execCmpFle p h g dst s1 s2 s
  | .cmpNan p h g dst s1 s2 => Sys2Proof.Machine.execCmpNan p h g dst s1 s2 s
  | .plogAnd p h g dst s1 s2 => Sys2Proof.Machine.execPlogAnd p h g dst s1 s2 s
  | .plogOr p h g dst s1 s2 => Sys2Proof.Machine.execPlogOr p h g dst s1 s2 s
  | .plogXor p h g dst s1 s2 => Sys2Proof.Machine.execPlogXor p h g dst s1 s2 s
  | .plogAndn p h g dst s1 s2 => Sys2Proof.Machine.execPlogAndn p h g dst s1 s2 s
  | .plogNot p h g dst s1 => Sys2Proof.Machine.execPlogNot p h g dst s1 s
  | .plogMov p h g dst s1 => Sys2Proof.Machine.execPlogMov p h g dst s1 s
  | .plogSetall p h g dst => Sys2Proof.Machine.execPlogSetall p h g dst s
  | .plogClrall p h g dst => Sys2Proof.Machine.execPlogClrall p h g dst s
  | .plogAny p h g dst s1 => Sys2Proof.Machine.execPlogAny p h g dst s1 s
  | .plogAll p h g dst s1 => Sys2Proof.Machine.execPlogAll p h g dst s1 s
  | .jmp p h g imm => Sys2Proof.Machine.execJmp p h g imm s
  | .jmpr p h g s1 => Sys2Proof.Machine.execJmpr p h g s1 s
  | .loop p h g dst imm => Sys2Proof.Machine.execLoop p h g dst imm s
  | .tsync p h g imm => Sys2Proof.Machine.execTsync p h g imm s
  | .accswap p h g => Sys2Proof.Machine.execAccswap p h g s
  | .pagein p h g imm => Sys2Proof.Machine.execPagein p h g imm s
  | .loadhint p h g imm => Sys2Proof.Machine.execLoadhint p h g imm s
  | .srseed p h g s1 s2 => Sys2Proof.Machine.execSrseed p h g s1 s2 s
  | .waitstr p h g dst s1 fn => Sys2Proof.Machine.execWaitstr p h g dst s1 fn s
  | .waitstrRelease p => Sys2Proof.Machine.execWaitstrRelease p s
  | .strcnt p h g dst fn => Sys2Proof.Machine.execStrcnt p h g dst fn s
  | .csrrdLcore p h g dst => Sys2Proof.Machine.execCsrrdLcore p h g dst s
  | .csrrdTickLo p h g dst => Sys2Proof.Machine.execCsrrdTickLo p h g dst s
  | .csrrdTickHi p h g dst => Sys2Proof.Machine.execCsrrdTickHi p h g dst s
  | .csrrdCycle p h g dst => Sys2Proof.Machine.execCsrrdCycle p h g dst s
  | .csrrdMapGen p h g dst => Sys2Proof.Machine.execCsrrdMapGen p h g dst s
  | .csrrdTickLen p h g dst => Sys2Proof.Machine.execCsrrdTickLen p h g dst s
  | .mma p h g va vb afmt bfmt scale agrp bgrp accz => Sys2Proof.Machine.execMma p h g va vb afmt bfmt scale agrp bgrp accz s
  | .fadd p h g vd va vb rm => Sys2Proof.Machine.execFadd p h g vd va vb rm s
  | .fsub p h g vd va vb rm => Sys2Proof.Machine.execFsub p h g vd va vb rm s
  | .fmul p h g vd va vb rm => Sys2Proof.Machine.execFmul p h g vd va vb rm s
  | .fma p h g vd va vb vc rm => Sys2Proof.Machine.execFma p h g vd va vb vc rm s
  | .fms p h g vd va vb vc rm => Sys2Proof.Machine.execFms p h g vd va vb vc rm s
  | .fnma p h g vd va vb vc rm => Sys2Proof.Machine.execFnma p h g vd va vb vc rm s
  | .fmin p h g vd va vb => Sys2Proof.Machine.execFmin p h g vd va vb s
  | .fmax p h g vd va vb => Sys2Proof.Machine.execFmax p h g vd va vb s
  | .fabs p h g vd va => Sys2Proof.Machine.execFabs p h g vd va s
  | .fneg p h g vd va => Sys2Proof.Machine.execFneg p h g vd va s
  | .feq p h g vd va vb => Sys2Proof.Machine.execFeq p h g vd va vb s
  | .flt p h g vd va vb => Sys2Proof.Machine.execFlt p h g vd va vb s
  | .fle p h g vd va vb => Sys2Proof.Machine.execFle p h g vd va vb s
  | .funord p h g vd va vb => Sys2Proof.Machine.execFunord p h g vd va vb s
  | .fnonfin p h g vd va => Sys2Proof.Machine.execFnonfin p h g vd va s
  | .ieq p h g vd va vb => Sys2Proof.Machine.execIeq p h g vd va vb s
  | .ilt p h g vd va vb => Sys2Proof.Machine.execIlt p h g vd va vb s
  | .iltu p h g vd va vb => Sys2Proof.Machine.execIltu p h g vd va vb s
  | .iadd p h g vd va vb => Sys2Proof.Machine.execIadd p h g vd va vb s
  | .isub p h g vd va vb => Sys2Proof.Machine.execIsub p h g vd va vb s
  | .imul p h g vd va vb => Sys2Proof.Machine.execImul p h g vd va vb s
  | .vand p h g vd va vb => Sys2Proof.Machine.execVand p h g vd va vb s
  | .vor p h g vd va vb => Sys2Proof.Machine.execVor p h g vd va vb s
  | .vxor p h g vd va vb => Sys2Proof.Machine.execVxor p h g vd va vb s
  | .vshl p h g vd va vb => Sys2Proof.Machine.execVshl p h g vd va vb s
  | .vshr p h g vd va vb => Sys2Proof.Machine.execVshr p h g vd va vb s
  | .vsra p h g vd va vb => Sys2Proof.Machine.execVsra p h g vd va vb s
  | .imin p h g vd va vb => Sys2Proof.Machine.execImin p h g vd va vb s
  | .imax p h g vd va vb => Sys2Proof.Machine.execImax p h g vd va vb s
  | .vmov p h g vd va => Sys2Proof.Machine.execVmov p h g vd va s
  | .sel p h g vd va vb vc => Sys2Proof.Machine.execSel p h g vd va vb vc s
  | .splat p h g vd va => Sys2Proof.Machine.execSplat p h g vd va s
  | .extr p h g vd va vb => Sys2Proof.Machine.execExtr p h g vd va vb s
  | .perm p h g vd va vb => Sys2Proof.Machine.execPerm p h g vd va vb s
  | .iota p h g vd => Sys2Proof.Machine.execIota p h g vd s
  | .ins8 p h g vd va part => Sys2Proof.Machine.execIns8 p h g vd va part s
  | .ext8 p h g vd va part => Sys2Proof.Machine.execExt8 p h g vd va part s
  | .fsumr p h g vd va => Sys2Proof.Machine.execFsumr p h g vd va s
  | .fmaxr p h g vd va => Sys2Proof.Machine.execFmaxr p h g vd va s
  | .rcp p h g vd va => Sys2Proof.Machine.execRcp p h g vd va s
  | .rsqrt p h g vd va => Sys2Proof.Machine.execRsqrt p h g vd va s
  | .exp2 p h g vd va => Sys2Proof.Machine.execExp2 p h g vd va s
  | .exp p h g vd va => Sys2Proof.Machine.execExp p h g vd va s
  | .log2 p h g vd va => Sys2Proof.Machine.execLog2 p h g vd va s
  | .log p h g vd va => Sys2Proof.Machine.execLog p h g vd va s
  | .expo p h g vd va => Sys2Proof.Machine.execExpo p h g vd va s
  | .scalb p h g vd va vb rm => Sys2Proof.Machine.execScalb p h g vd va vb rm s
  | .cvt p h g vd va rm sr nsat fmt part => Sys2Proof.Machine.execCvt p h g vd va rm sr nsat fmt part s
  | .cvtu p h g vd va rm fmt part => Sys2Proof.Machine.execCvtu p h g vd va rm fmt part s
  | .qnt p h g vd va vb rm fmt part => Sys2Proof.Machine.execQnt p h g vd va vb rm fmt part s
  | .bcvt p h g vd va fmt part => Sys2Proof.Machine.execBcvt p h g vd va fmt part s
  | .bscl p h g vd va vb fmt => Sys2Proof.Machine.execBscl p h g vd va vb fmt s
  | .bunp p h g vd va vb vc fmt part => Sys2Proof.Machine.execBunp p h g vd va vb vc fmt part s
  | .ldw p h g ls1 reg base off => Sys2Proof.Machine.execLdw p h g ls1 reg base off s
  | .ldd p h g ls1 reg base off => Sys2Proof.Machine.execLdd p h g ls1 reg base off s
  | .ldq p h g ls1 q reg base off => Sys2Proof.Machine.execLdq p h g ls1 q reg base off s
  | .ldh p h g ls1 hi reg base off => Sys2Proof.Machine.execLdh p h g ls1 hi reg base off s
  | .ldv p h g ls1 reg base off => Sys2Proof.Machine.execLdv p h g ls1 reg base off s
  | .ldsc64 p h g ls1 reg base off => Sys2Proof.Machine.execLdsc64 p h g ls1 reg base off s
  | .ldsc256 p h g ls1 reg base off => Sys2Proof.Machine.execLdsc256 p h g ls1 reg base off s
  | .stw p h g reg base off => Sys2Proof.Machine.execStw p h g reg base off s
  | .std p h g reg base off => Sys2Proof.Machine.execStd p h g reg base off s
  | .stq p h g q reg base off => Sys2Proof.Machine.execStq p h g q reg base off s
  | .sth p h g hi reg base off => Sys2Proof.Machine.execSth p h g hi reg base off s
  | .stv p h g reg base off => Sys2Proof.Machine.execStv p h g reg base off s
  | .sendv p h g cls reg target doff => Sys2Proof.Machine.execSendv p h g cls reg target doff s
  | .sendq p h g cls reg q target doff => Sys2Proof.Machine.execSendq p h g cls reg q target doff s
  | .sendw p h g cls reg target doff => Sys2Proof.Machine.execSendw p h g cls reg target doff s
  | .wsendv p h g cls reg target doff => Sys2Proof.Machine.execWsendv p h g cls reg target doff s
  | .wsendq p h g cls reg q target doff => Sys2Proof.Machine.execWsendq p h g cls reg q target doff s
  | .redv p h g cls reg target => Sys2Proof.Machine.execRedv p h g cls reg target s
  | .circv p h g cls reg target doff => Sys2Proof.Machine.execCircv p h g cls reg target doff s
  | .strm p h g cls reg target => Sys2Proof.Machine.execStrm p h g cls reg target s
  | .saecmd p h g cls reg target => Sys2Proof.Machine.execSaecmd p h g cls reg target s
  | .wopen p h g reg target => Sys2Proof.Machine.execWopen p h g reg target s
  | .wclose p h g target => Sys2Proof.Machine.execWclose p h g target s
  | .rdma p h g cls reg => Sys2Proof.Machine.execRdma p h g cls reg s
  | .tickBoundary => Sys2Proof.Machine.execTickBoundary s
  | .quietWindowStart => Sys2Proof.Machine.execQuietWindowStart s
  | .lateDecision => Sys2Proof.Machine.execLateDecision s
  | .stretchCheck => Sys2Proof.Machine.execStretchCheck s
  | .marginFault p => Sys2Proof.Machine.execMarginFault p s
  | .arbitration flit => Sys2Proof.Machine.execArbitration flit s
  | .flitLapDrop flit => Sys2Proof.Machine.execFlitLapDrop flit s
  | .meshFlitError flit site kind => Sys2Proof.Machine.execMeshFlitError flit site kind s
  | .routeVersionLoad v => Sys2Proof.Machine.execRouteVersionLoad v s
  | .tableLoadCheck site ok => Sys2Proof.Machine.execTableLoadCheck site ok s
  | .flipNotice flipTick => Sys2Proof.Machine.execFlipNotice flipTick s
  | .epochFlip => Sys2Proof.Machine.execEpochFlip s
  | .oldEpochHoldEnd => Sys2Proof.Machine.execOldEpochHoldEnd s
  | .circuitWindowOpen circ => Sys2Proof.Machine.execCircuitWindowOpen circ s
  | .circuitWindowClose circ => Sys2Proof.Machine.execCircuitWindowClose circ s
  | .redFlitArrival flit => Sys2Proof.Machine.execRedFlitArrival flit s
  | .streamDescriptor flit => Sys2Proof.Machine.execStreamDescriptor flit s
  | .refusalNotice notice => Sys2Proof.Machine.execRefusalNotice notice s
  | .streamGranuleLand stream => Sys2Proof.Machine.execStreamGranuleLand stream s
  | .writeGranuleReadout stream => Sys2Proof.Machine.execWriteGranuleReadout stream s
  | .writeGranuleAccept stream => Sys2Proof.Machine.execWriteGranuleAccept stream s
  | .attachLoss stack => Sys2Proof.Machine.execAttachLoss stack s
  | .unscheduledStackAccess cls addr len data => Sys2Proof.Machine.execUnscheduledStackAccess cls addr len data s
  | .unscheduledAccessServe stack => Sys2Proof.Machine.execUnscheduledAccessServe stack s
  | .stackRefresh stack => Sys2Proof.Machine.execStackRefresh stack s
  | .regionCopyDone stack spareOk => Sys2Proof.Machine.execRegionCopyDone stack spareOk s
  | .stackLost stack => Sys2Proof.Machine.execStackLost stack s
  | .saeCommand flit => Sys2Proof.Machine.execSaeCommand flit s
  | .saeStart cmd => Sys2Proof.Machine.execSaeStart cmd s
  | .saeResult cmd => Sys2Proof.Machine.execSaeResult cmd s
  | .saeDone cmd => Sys2Proof.Machine.execSaeDone cmd s
  | .plsModeWrite placed => Sys2Proof.Machine.execPlsModeWrite placed s
  | .wadiFlitArrival flit => Sys2Proof.Machine.execWadiFlitArrival flit s
  | .wadiFlitLand p => Sys2Proof.Machine.execWadiFlitLand p s
  | .wadiExpiry => Sys2Proof.Machine.execWadiExpiry s
  | .rdmaReport l slot => Sys2Proof.Machine.execRdmaReport l slot s
  | .rdmaTimeout l slot => Sys2Proof.Machine.execRdmaTimeout l slot s
  | .sweepComplete site k => Sys2Proof.Machine.execSweepComplete site k s
  | .sweepTimeout p => Sys2Proof.Machine.execSweepTimeout p s
  | .stackSweepDone stack => Sys2Proof.Machine.execStackSweepDone stack s
  | .cvuRequest unit node rseq mode crc64 expect => Sys2Proof.Machine.execCvuRequest unit node rseq mode crc64 expect s
  | .cvuStreamEnd unit bytes abandoned => Sys2Proof.Machine.execCvuStreamEnd unit bytes abandoned s
  | .portEnable port enable medium => Sys2Proof.Machine.execPortEnable port enable medium s
  | .retrain port => Sys2Proof.Machine.execRetrain port s
  | .disable port => Sys2Proof.Machine.execDisable port s
  | .trainingComplete link pass lanesOk peer => Sys2Proof.Machine.execTrainingComplete link pass lanesOk peer s
  | .laneFailure link lanesOk => Sys2Proof.Machine.execLaneFailure link lanesOk s
  | .dataFrame link corr uncorr seq ack crclass credits cls body => Sys2Proof.Machine.execDataFrame link corr uncorr seq ack crclass credits cls body s
  | .ackFrame link corr uncorr frame => Sys2Proof.Machine.execAckFrame link corr uncorr frame s
  | .nakFrame link frame => Sys2Proof.Machine.execNakFrame link frame s
  | .portDown link => Sys2Proof.Machine.execPortDown link s
  | .transitPacket rx => Sys2Proof.Machine.execTransitPacket rx s
  | .packetAged held => Sys2Proof.Machine.execPacketAged held s
  | .transitReassembly flit => Sys2Proof.Machine.execTransitReassembly flit s
  | .transitGapTimeout ingress egress => Sys2Proof.Machine.execTransitGapTimeout ingress egress s
  | .writePacket rx => Sys2Proof.Machine.execWritePacket rx s
  | .redPacket rx => Sys2Proof.Machine.execRedPacket rx s
  | .reportPacket rx => Sys2Proof.Machine.execReportPacket rx s
  | .mgmtReq rx => Sys2Proof.Machine.execMgmtReq rx s
  | .mgmtResp rx => Sys2Proof.Machine.execMgmtResp rx s
  | .mgmtNote rx => Sys2Proof.Machine.execMgmtNote rx s
  | .devNumWrite dev => Sys2Proof.Machine.execDevNumWrite dev s
  | .routeTableWrite bcast index value => Sys2Proof.Machine.execRouteTableWrite bcast index value s
  | .routeCommit => Sys2Proof.Machine.execRouteCommit s
  | .routeFlip => Sys2Proof.Machine.execRouteFlip s
  | .zfpFlip => Sys2Proof.Machine.execZfpFlip s
  | .drainExpiry dev cls chan => Sys2Proof.Machine.execDrainExpiry dev cls chan s
  | .circEntryActivate entry => Sys2Proof.Machine.execCircEntryActivate entry s
  | .pairSet enable portA portB partner => Sys2Proof.Machine.execPairSet enable portA portB partner s
  | .linkLoss port => Sys2Proof.Machine.execLinkLoss port s
  | .codewordRead chan block tier stripe => Sys2Proof.Machine.execCodewordRead chan block tier stripe s
  | .patrolRead chan block tier stripe => Sys2Proof.Machine.execPatrolRead chan block tier stripe s
  | .blockRefresh chan block work => Sys2Proof.Machine.execBlockRefresh chan block work s
  | .wearMove chan lun => Sys2Proof.Machine.execWearMove chan lun s
  | .programComplete chan block ok stripe granules => Sys2Proof.Machine.execProgramComplete chan block ok stripe granules s
  | .eraseComplete chan block ok => Sys2Proof.Machine.execEraseComplete chan block ok s
  | .systemAreaCopy sideB => Sys2Proof.Machine.execSystemAreaCopy sideB s
  | .stepMark => Sys2Proof.Machine.execStepMark s
  | .stepClose => Sys2Proof.Machine.execStepClose s
  | .stagingDrain stack n => Sys2Proof.Machine.execStagingDrain stack n s
  | .deltaCommit => Sys2Proof.Machine.execDeltaCommit s
  | .snapshotCommit => Sys2Proof.Machine.execSnapshotCommit s
  | .restoreDone uncorr check => Sys2Proof.Machine.execRestoreDone uncorr check s
  | .imageCommit => Sys2Proof.Machine.execImageCommit s
  | .channelOut chan target => Sys2Proof.Machine.execChannelOut chan target s
  | .mwr link head data => Sys2Proof.Machine.execMwr link head data s
  | .mrd link head => Sys2Proof.Machine.execMrd link head s
  | .hostCpl link head data => Sys2Proof.Machine.execHostCpl link head data s
  | .doorbell q tail => Sys2Proof.Machine.execDoorbell q tail s
  | .slotTake q => Sys2Proof.Machine.execSlotTake q s
  | .hifQctlWrite q value => Sys2Proof.Machine.execHifQctlWrite q value s
  | .queueNop q => Sys2Proof.Machine.execQueueNop q s
  | .start q desc image fitPass left => Sys2Proof.Machine.execStart q desc image fitPass left s
  | .startBegin desc image fitPass left => Sys2Proof.Machine.execStartBegin desc image fitPass left s
  | .abort q => Sys2Proof.Machine.execAbort q s
  | .copy q => Sys2Proof.Machine.execCopy q s
  | .snapshot q => Sys2Proof.Machine.execSnapshot q s
  | .imageWrite q image extents => Sys2Proof.Machine.execImageWrite q image extents s
  | .jobDrain => Sys2Proof.Machine.execJobDrain s
  | .resultCopyDone => Sys2Proof.Machine.execResultCopyDone s
  | .abortSweepDeadline => Sys2Proof.Machine.execAbortSweepDeadline s
  | .queueTakeover gw7 => Sys2Proof.Machine.execQueueTakeover gw7 s
  | .hostLinkWaitTimeout tag => Sys2Proof.Machine.execHostLinkWaitTimeout tag s
  | .mbxLockRead m agent => Sys2Proof.Machine.execMbxLockRead m agent s
  | .mbxLockWrite m agent value => Sys2Proof.Machine.execMbxLockWrite m agent value s
  | .mbxDbWrite m agent service => Sys2Proof.Machine.execMbxDbWrite m agent service s
  | .mbxAckWrite m agent rcode => Sys2Proof.Machine.execMbxAckWrite m agent rcode s
  | .mbxDataWrite m agent w value => Sys2Proof.Machine.execMbxDataWrite m agent w value s
  | .mbxForced agent => Sys2Proof.Machine.execMbxForced agent s
  | .echo m => Sys2Proof.Machine.execEcho m s
  | .version m => Sys2Proof.Machine.execVersion m s
  | .overrun m => Sys2Proof.Machine.execOverrun m s
  | .groupSet m desc => Sys2Proof.Machine.execGroupSet m desc s
  | .groupLeave m => Sys2Proof.Machine.execGroupLeave m s
  | .selftest m found => Sys2Proof.Machine.execSelftest m found s
  | .dietest m => Sys2Proof.Machine.execDietest m s
  | .dieTestEnd found linksOk => Sys2Proof.Machine.execDieTestEnd found linksOk s
  | .ident m => Sys2Proof.Machine.execIdent m s
  | .attest m => Sys2Proof.Machine.execAttest m s
  | .fwUpdate m header whole digest keyOk sigOk => Sys2Proof.Machine.execFwUpdate m header whole digest keyOk sigOk s
  | .extLoad m header whole digest keyOk sigOk => Sys2Proof.Machine.execExtLoad m header whole digest keyOk sigOk s
  | .extUnload m => Sys2Proof.Machine.execExtUnload m s
  | .ownerEnroll m => Sys2Proof.Machine.execOwnerEnroll m s
  | .debugChallenge m => Sys2Proof.Machine.execDebugChallenge m s
  | .debugUnlock m token keyOk sigOk => Sys2Proof.Machine.execDebugUnlock m token keyOk sigOk s
  | .extFault slot => Sys2Proof.Machine.execExtFault slot s
  | .stewardWdt agent => Sys2Proof.Machine.execStewardWdt agent s
  | .panelStewardSilence => Sys2Proof.Machine.execPanelStewardSilence s
  | .beaconPeriod => Sys2Proof.Machine.execBeaconPeriod s
  | .beacon rx => Sys2Proof.Machine.execBeacon rx s
  | .beaconSilence rank => Sys2Proof.Machine.execBeaconSilence rank s
  | .suspect rx => Sys2Proof.Machine.execSuspect rx s
  | .propose rx => Sys2Proof.Machine.execPropose rx s
  | .ack rx => Sys2Proof.Machine.execAck rx s
  | .commit rx => Sys2Proof.Machine.execCommit rx s
  | .fenced rx => Sys2Proof.Machine.execFenced rx s
  | .join rx => Sys2Proof.Machine.execJoin rx s
  | .leave rx => Sys2Proof.Machine.execLeave rx s
  | .rewind rx => Sys2Proof.Machine.execRewind rx s
  | .gstep rx => Sys2Proof.Machine.execGstep rx s
  | .stepLog rx => Sys2Proof.Machine.execStepLog rx s
  | .apply rx => Sys2Proof.Machine.execApply rx s
  | .proposeTimeout => Sys2Proof.Machine.execProposeTimeout s
  | .suspectRetry => Sys2Proof.Machine.execSuspectRetry s
  | .suspectTimeout => Sys2Proof.Machine.execSuspectTimeout s
  | .stragglerCheck rank => Sys2Proof.Machine.execStragglerCheck rank s
  | .c0RequestTimeout n => Sys2Proof.Machine.execC0RequestTimeout n s
  | .inputVoltageEvent volts => Sys2Proof.Machine.execInputVoltageEvent volts s
  | .stage1Stop => Sys2Proof.Machine.execStage1Stop s
  | .inputRecovery => Sys2Proof.Machine.execInputRecovery s
  | .powerSample avg1s avg10ms max10ms iin mj => Sys2Proof.Machine.execPowerSample avg1s avg10ms max10ms iin mj s
  | .droopTrip site sensor => Sys2Proof.Machine.execDroopTrip site sensor s
  | .forecastWindow erg current vmin vbus iin droops => Sys2Proof.Machine.execForecastWindow erg current vmin vbus iin droops s
  | .controllerFail erg ctrl => Sys2Proof.Machine.execControllerFail erg ctrl s
  | .deratedMigration => Sys2Proof.Machine.execDeratedMigration s
  | .ergShort erg => Sys2Proof.Machine.execErgShort erg s
  | .refclkLoss b => Sys2Proof.Machine.execRefclkLoss b s
  | .refclkReturn b => Sys2Proof.Machine.execRefclkReturn b s
  | .pllLockLoss g => Sys2Proof.Machine.execPllLockLoss g s
  | .primaryClockLoss site secGood links => Sys2Proof.Machine.execPrimaryClockLoss site secGood links s
  | .clockPlanRelay plan => Sys2Proof.Machine.execClockPlanRelay plan s
  | .clockReturn site links => Sys2Proof.Machine.execClockReturn site links s
  | .stepRequest value => Sys2Proof.Machine.execStepRequest value s
  | .stepChangeRequest => Sys2Proof.Machine.execStepChangeRequest s
  | .stepChange => Sys2Proof.Machine.execStepChange s
  | .thermalForecast junctions => Sys2Proof.Machine.execThermalForecast junctions s
  | .thermalTrip unit tj => Sys2Proof.Machine.execThermalTrip unit tj s
  | .ergUnpark erg => Sys2Proof.Machine.execErgUnpark erg s
  | .rotationInterval => Sys2Proof.Machine.execRotationInterval s
  | .waterSample inlet outlet => Sys2Proof.Machine.execWaterSample inlet outlet s
  | .coldStart facts => Sys2Proof.Machine.execColdStart facts s
  | .settingsWrite entries => Sys2Proof.Machine.execSettingsWrite entries s
  | .retrainDone link pass fullPass lanesOk peer => Sys2Proof.Machine.execRetrainDone link pass fullPass lanesOk peer s
  | .d2dRetrain site dir pass errors => Sys2Proof.Machine.execD2dRetrain site dir pass errors s
  | .computeResetDone site imageOk bistOk => Sys2Proof.Machine.execComputeResetDone site imageOk bistOk s
  | .computeResetTimeout site => Sys2Proof.Machine.execComputeResetTimeout site s
  | .bcastAnnounce g obj image object sites plos heard => Sys2Proof.Machine.execBcastAnnounce g obj image object sites plos heard s
  | .bcastData g unit num bytes => Sys2Proof.Machine.execBcastData g unit num bytes s
  | .bcastEnd g unit => Sys2Proof.Machine.execBcastEnd g unit s
  | .bcastReport g unit => Sys2Proof.Machine.execBcastReport g unit s
  | .reportWaitExpiry g => Sys2Proof.Machine.execReportWaitExpiry g s
  | .backgroundUnit act served unit granule => Sys2Proof.Machine.execBackgroundUnit act served unit granule s
  | .periodEnd act unit work => Sys2Proof.Machine.execPeriodEnd act unit work s
  | .ovfClear a => Sys2Proof.Machine.execOvfClear a s
  | .lowWordRead a => Sys2Proof.Machine.execLowWordRead a s
  | .lowWordWrite a value => Sys2Proof.Machine.execLowWordWrite a value s
  | .highWordWrite a value => Sys2Proof.Machine.execHighWordWrite a value s
  | .eventFlit => Sys2Proof.Machine.execEventFlit s
  | .eventWrite => Sys2Proof.Machine.execEventWrite s
  | .evqCtlWrite value => Sys2Proof.Machine.execEvqCtlWrite value s
  | .evqHeadWrite value => Sys2Proof.Machine.execEvqHeadWrite value s
  | .registerWrite a value => Sys2Proof.Machine.execRegisterWrite a value s
  | .smbusBlockRead addr code => Sys2Proof.Machine.execSmbusBlockRead addr code s
  | .smbusWrite addr code bytes => Sys2Proof.Machine.execSmbusWrite addr code bytes s
  | .carrierRemoved bay => Sys2Proof.Machine.execCarrierRemoved bay s
  | .carrierInserted bay => Sys2Proof.Machine.execCarrierInserted bay s
  | .pllRelock g => Sys2Proof.Machine.execPllRelock g s
  | .stewardRestartDone agent bad => Sys2Proof.Machine.execStewardRestartDone agent bad s

end Sys2Proof.Machine
end

