-- ==== Sys2Proof/Machine/Step.lean ====
section
/-! DEFINITION. One step: the command at the front of the queue, or with an empty queue one cycle of the panel's clock (log entry 1). -/

namespace Sys2Proof.Machine

open Sys2Proof

/-- Nothing is commanded: a cycle passes. -/
def State.idle (s : State) : State := s.advance (s.clock.now + 1)

/-- Take the command at the front of the queue and run it with the queue's rest. -/
def step (s : State) : Host.Outcome State Fault Refusal :=
  match s.pending with
  | i :: rest => exec i { s with pending := rest }
  | [] => .next s.idle

/-- `s` with the command that a word spells put in front; no word spells one. -/
def State.withFetchWord (s : State) (nbits w : Nat) : State :=
  match decodeTableWord nbits w with
  | some i => { s with pending := i :: s.pending }
  | none => s

end Sys2Proof.Machine
end

