-- ==== Sys2Proof/Safety.lean ====
section
/-! DEFINITION. What statements are made in: a command's next state, the state in which a core meets its next bundle and what
the core becomes when that bundle issues, the canonical form of memory, and the registers whose values stay in range. -/

namespace Sys2Proof.Machine

open Sys2Proof

/-- The command answers the next state `t`. -/
abbrev Goes (i : Instr) (s t : State) : Prop := exec i s = .next t

/-- The byte memories are in their canonical form. -/
def State.memWf (s : State) : Bool :=
  Memory.wf s.srams.spad && Memory.wf s.plos.mem && Memory.wf s.hif.cmds

/-! ### A core and its next bundle (R134 to R136, R155) -/

/-- `u` is the state in which core `p` of `s` meets its next bundle: the earliest issue cycle is reached, what fell due until then is
done, the core still runs, and the bundle's page and check bits are good. -/
def Meets (s : State) (p : Nat) (u : State) : Prop :=
  ∃ r, (s.core p).canIssue = some r ∧ u = s.meetAt p r ∧ (u.core p).stat.run = .running ∧
    (u.core p).ctl.pageValid.getLsbD ((u.core p).ctl.pc / 256) = true ∧
    tget 0 u.srams.imemFlips (imKey p (u.core p).ctl.pc) = 0

/-- The bundle index after one that does not branch (R134, R160). -/
def nextPc (h : Header) (pc : Nat) : Nat := if h.pgm then (pc / 256 + 1) % 8 * 256 else (pc + 1) % 2048

/-- What a core becomes when a bundle with header `h` issues in cycle `t` and the bundle index after it is `pc`, with `fl` as
its results in flight: the STOP, TSM and HOLD marks take effect, and nothing else changes. -/
def CoreRec.passed (c : CoreRec) (h : Header) (t pc : Nat) (fl : List Flight) : CoreRec :=
  { c with
    stat := { c.stat with run := if c.pipe.holdReq then .held else c.stat.run }
    ctl :=
      if h.stop then { c.ctl with stopped := true, readyAt := none }
      else { c.ctl with pc := pc, readyAt := if h.tsm then none else some (t + 1 + h.hold.toNat) }
    pipe := { c.pipe with
      flights := fl, held := none, holdReq := false
      arriveAt := if h.tsm && !h.stop then some (t + 1 + h.hold.toNat) else c.pipe.arriveAt
      stopAt := if h.stop then some (t + 1 + h.hold.toNat) else c.pipe.stopAt } }

/-- The state `u` after core `p` has issued a bundle that writes `ws` `lat` cycles later and goes on at `pc`. -/
def State.issued (u : State) (p : Nat) (h : Header) (pc lat : Nat) (ws : List (Loc × Pending)) : State :=
  u.setCore p ((u.core p).passed h u.clock.now pc ((u.core p).pipe.fly u.clock.now lat ws).flights)

/-- The state `u` after accesses of core `p` have taken the banks `bs` in the present cycle (R75 ranks 4 and 5). -/
def State.tookBanks (u : State) (p : Nat) (bs : List Nat) : State := u.modPipe p fun k => k.useBanks u.clock.now bs

/-- The state `u` after core `p` has issued a bundle whose CTRL operation writes the value `b`, poison or not, to the register
that `d` names; a CTRL result is written one cycle after issue (R172). -/
def State.ctrlWrote (u : State) (p : Nat) (h : Header) (d : BitVec 5) (b : BitVec 32) (bad : Bool) : State :=
  u.issued p h (nextPc h (u.core p).ctl.pc) 1 [(ctrlLoc d, .put ⟨b, bad⟩)]

/-- The same, with a whole predicate written. -/
def State.predWrote (u : State) (p : Nat) (h : Header) (d : BitVec 5) (b : BitVec 64) : State :=
  u.issued p h (nextPc h (u.core p).ctl.pc) 1 (predWrites d.toNat b)

/-- The state `u` after core `p` has issued a bundle with a VECTOR operation that writes `ws`. -/
def State.vecWrote (u : State) (p : Nat) (h : Header) (op : VecOp) (ws : List (Loc × Pending)) : State :=
  (u.issued p h (nextPc h (u.core p).ctl.pc) (vecLatency op) ws).modPipe p fun k =>
    { k with vectorFree := u.clock.now + vecOccupancy op }

/-- The four bytes of core `p`'s scratchpad from offset `o` on, low byte first, with the poison of the word they stand in. -/
def State.spadLane (u : State) (p o : Nat) : Lane :=
  let b (i : Nat) := Memory.read u.srams.spad (spKey p (o + i))
  ⟨b 3 ++ b 2 ++ b 1 ++ b 0, u.wordPoison p (o / 8)⟩

/-- No bit error stands undiscovered in the `n` bytes from offset `o` on. -/
def State.clean (u : State) (p o n : Nat) : Prop := ∀ i < n, tget 0 u.srams.flips (wordKey p ((o + i) / 8)) = 0

/-- An access of `n` bytes at offset `o` is aligned (R73) and finds its banks free in the present cycle (R75). -/
def State.granted (u : State) (p o n : Nat) : Prop := o % n = 0 ∧ meet (banksOf o n) (u.rankBanks p) = false

/-- The entries that stand in the seif beside a core of column 6 or 7, in the direction of its crossing (R245). -/
def State.seifBeside (u : State) (p : Nat) : Nat :=
  (seifAt (tget [] u.mesh.seif (seifKey (pSite p) (pRow p) (decide (pCol p = 6)))) u.clock.now).length

/-- No full seif stands beside the core (R245). -/
def State.seifRoom (u : State) (p : Nat) : Prop := pCol p = 6 ∨ pCol p = 7 → u.seifBeside p < 8

/-- A core record `k` in which a bundle with header `h` has issued with no result in flight: registers, fault and counts stand,
and the core goes on. -/
def CoreRec.goesOn (c k : CoreRec) (h : Header) : Prop :=
  k.regs = c.regs ∧ k.fault = c.fault ∧ k.count = c.count ∧ k.pipe.held = none ∧ k.pipe.flights = c.pipe.flights ∧
    k.ctl.pc = if h.stop then c.ctl.pc else nextPc h c.ctl.pc

/-- The bytes that lanes `lo` to `lo + n - 1` of a REG field's register hold (R143). -/
def CoreRegs.regBytes (r : CoreRegs) (reg : BitVec 6) (lo n : Nat) : List (BitVec 8) := (r.lanesOf reg lo n).flatMap laneBytes

/-- No lane among them is poison. -/
def CoreRegs.goodLanes (r : CoreRegs) (reg : BitVec 6) (lo n : Nat) : Prop := ∀ l ∈ r.lanesOf reg lo n, l.poison = false

/-- The registers that host software writes hold values of their ranges: PWR_CAP (R513), BG_CTL.SPACING (R619), EVQ_CTL.SIZE (R627) and
CLK_STEP.REQ (R543). -/
def State.inRange (s : State) : Prop :=
  (2000 ≤ s.pwr.cap ∧ s.pwr.cap ≤ 15000) ∧ (1 ≤ s.bg.spacing ∧ s.bg.spacing ≤ 63) ∧ (8 ≤ s.evq.size ∧ s.evq.size ≤ 15) ∧ s.clk.req ≤ 5

/-- The commands that may change TICK: a boundary raises it, a cold start makes the common start, and a stop of every stage 1 leaves
the reset state (R217, R218, R511). -/
def movesTick : Instr → Bool
  | .tickBoundary => true
  | .coldStart _ => true
  | .inputVoltageEvent _ => true
  | .stage1Stop => true
  | _ => false

end Sys2Proof.Machine
end

