-- ==== Sys2Proof/Certificates/Slice0/Obligations.lean ====
section
/-! DEFINITION. The statements about the device. -/

open Sys2Proof Sys2Proof.Machine

/-! ### The sliver core: CTRL -/

/-- R173, R174, R175: each ALU function, MOVI, MOVHI and ADDI, in a bundle of its own whose guard lets it act,
writes its result one cycle after issue to the register that DST names, poison when a source is, and changes nothing
else but the bundle index and the marks' effects; the FP32 functions round to nearest, ties to even. -/
def Obligations.ScalarOperationsWriteTheirResult : Prop :=
  ∀ (s u : State) (p : PCore) (h : Header) (g d a b : BitVec 5) (imm : BitVec 16), Meets s p u → guardOk g = true →
    (u.core p).regs.guard0 g = true →
    let x := (u.core p).regs.ctrl a
    let y := (u.core p).regs.ctrl b
    let o := (u.core p).regs.ctrl d
    let bad := x.poison || y.poison
    Goes (.movi p h g d imm) s (u.ctrlWrote p h d (imm.signExtend 32) false) ∧
    (¬ (o.poison = true ∧ 16 ≤ d.toNat) →
      Goes (.movhi p h g d imm) s (u.ctrlWrote p h d (imm ++ o.bits.setWidth 16) o.poison) ∧
      Goes (.addi p h g d imm) s (u.ctrlWrote p h d (BitVec.ofInt 32 (o.bits.toInt + imm.toInt)) o.poison)) ∧
    (¬ (bad = true ∧ 16 ≤ d.toNat) →
      Goes (.aluAdd p h g d a b) s (u.ctrlWrote p h d (BitVec.ofNat 32 (x.bits.toNat + y.bits.toNat)) bad) ∧
      Goes (.aluSub p h g d a b) s (u.ctrlWrote p h d (BitVec.ofInt 32 (x.bits.toInt - y.bits.toInt)) bad) ∧
      Goes (.aluMul p h g d a b) s (u.ctrlWrote p h d (BitVec.ofNat 32 (x.bits.toNat * y.bits.toNat)) bad) ∧
      Goes (.aluAnd p h g d a b) s (u.ctrlWrote p h d (x.bits &&& y.bits) bad) ∧
      Goes (.aluOr p h g d a b) s (u.ctrlWrote p h d (x.bits ||| y.bits) bad) ∧
      Goes (.aluXor p h g d a b) s (u.ctrlWrote p h d (x.bits ^^^ y.bits) bad) ∧
      Goes (.aluShl p h g d a b) s (u.ctrlWrote p h d (x.bits <<< (y.bits.toNat % 32)) bad) ∧
      Goes (.aluShr p h g d a b) s (u.ctrlWrote p h d (x.bits >>> (y.bits.toNat % 32)) bad) ∧
      Goes (.aluSra p h g d a b) s (u.ctrlWrote p h d (BitVec.ofInt 32 (x.bits.toInt / 2 ^ (y.bits.toNat % 32))) bad) ∧
      Goes (.aluMin p h g d a b) s (u.ctrlWrote p h d (BitVec.ofInt 32 (min x.bits.toInt y.bits.toInt)) bad) ∧
      Goes (.aluMax p h g d a b) s (u.ctrlWrote p h d (BitVec.ofInt 32 (max x.bits.toInt y.bits.toInt)) bad) ∧
      Goes (.aluMinu p h g d a b) s (u.ctrlWrote p h d (BitVec.ofNat 32 (min x.bits.toNat y.bits.toNat)) bad) ∧
      Goes (.aluMaxu p h g d a b) s (u.ctrlWrote p h d (BitVec.ofNat 32 (max x.bits.toNat y.bits.toNat)) bad) ∧
      Goes (.aluFadd p h g d a b) s (u.ctrlWrote p h d (fadd32 .rne x.bits y.bits) bad) ∧
      Goes (.aluFsub p h g d a b) s (u.ctrlWrote p h d (fsub32 .rne x.bits y.bits) bad) ∧
      Goes (.aluFmul p h g d a b) s (u.ctrlWrote p h d (fmul32 .rne x.bits y.bits) bad) ∧
      Goes (.aluFmin p h g d a b) s (u.ctrlWrote p h d (fmin32 x.bits y.bits) bad) ∧
      Goes (.aluFmax p h g d a b) s (u.ctrlWrote p h d (fmax32 x.bits y.bits) bad))

/-- R176, R177: CMP writes the whole predicate with its condition on good sources; PLOG writes the whole predicate with its
function of predicates. -/
def Obligations.ComparisonsAndPredicateLogicWriteWholePredicates : Prop :=
  ∀ (s u : State) (p : PCore) (h : Header) (g d a b : BitVec 5), Meets s p u → guardOk g = true →
    (u.core p).regs.guard0 g = true → d.toNat < 8 →
    let x := ((u.core p).regs.ctrl a).bits
    let y := ((u.core p).regs.ctrl b).bits
    let all (c : Prop) [Decidable c] : BitVec 64 := if c then BitVec.allOnes 64 else 0#64
    (((u.core p).regs.ctrl a).poison = false → ((u.core p).regs.ctrl b).poison = false →
      Goes (.cmpEq p h g d a b) s (u.predWrote p h d (all (x = y))) ∧
      Goes (.cmpNe p h g d a b) s (u.predWrote p h d (all (x ≠ y))) ∧
      Goes (.cmpLt p h g d a b) s (u.predWrote p h d (all (x.toInt < y.toInt))) ∧
      Goes (.cmpLe p h g d a b) s (u.predWrote p h d (all (x.toInt ≤ y.toInt))) ∧
      Goes (.cmpLtu p h g d a b) s (u.predWrote p h d (all (x.toNat < y.toNat))) ∧
      Goes (.cmpLeu p h g d a b) s (u.predWrote p h d (all (x.toNat ≤ y.toNat))) ∧
      Goes (.cmpFeq p h g d a b) s (u.predWrote p h d (all (feq32 x y = true))) ∧
      Goes (.cmpFlt p h g d a b) s (u.predWrote p h d (all (flt32 x y = true))) ∧
      Goes (.cmpFle p h g d a b) s (u.predWrote p h d (all (fle32 x y = true))) ∧
      Goes (.cmpNan p h g d a b) s (u.predWrote p h d (all (isNan32 x = true ∨ isNan32 y = true)))) ∧
    (a.toNat < 8 → b.toNat < 8 →
      let m := (u.core p).regs.pred a.toNat
      let n := (u.core p).regs.pred b.toNat
      Goes (.plogAnd p h g d a b) s (u.predWrote p h d (m &&& n)) ∧
      Goes (.plogOr p h g d a b) s (u.predWrote p h d (m ||| n)) ∧
      Goes (.plogXor p h g d a b) s (u.predWrote p h d (m ^^^ n)) ∧
      Goes (.plogAndn p h g d a b) s (u.predWrote p h d (m &&& ~~~n)) ∧
      Goes (.plogNot p h g d a) s (u.predWrote p h d (~~~m)) ∧
      Goes (.plogMov p h g d a) s (u.predWrote p h d m) ∧
      Goes (.plogSetall p h g d) s (u.predWrote p h d (BitVec.allOnes 64)) ∧
      Goes (.plogClrall p h g d) s (u.predWrote p h d 0#64) ∧
      Goes (.plogAny p h g d a) s (u.predWrote p h d (all (∃ i : Fin 64, m.getLsbD i = true))) ∧
      Goes (.plogAll p h g d a) s (u.predWrote p h d (all (∀ i : Fin 64, m.getLsbD i = true))))

/-- R134, R138, R173, R178 to R183, R192: a NOP bundle goes on to the next one; a transfer goes on at the bundle that it
names (TSYNC in a TSM bundle only, LOOP while its decremented register is not zero); ACCSWAP swaps the accumulator
buffers; SRSEED seeds the generator; PAGEIN opens a copy into a page that then holds no program yet; LOADHINT sends the
hint. The model's choice of log entry 2 stands in it. -/
def Obligations.TransfersAndControlOperationsTakeEffect : Prop :=
  ∀ (s u : State) (p : PCore) (h : Header) (g d a b : BitVec 5) (imm16 : BitVec 16) (imm : BitVec 21), Meets s p u →
    let c := u.core p
    let next := nextPc h c.ctl.pc
    Goes (.nop p h 0#5) s (u.issued p h next 1 []) ∧
    (guardOk g = true → c.regs.guard0 g = true →
      Goes (.accswap p h g) s
        ((u.setCore p { c with ctl := { c.ctl with accAct := !c.ctl.accAct } }).issued p h next 1 []) ∧
      ((c.regs.ctrl a).poison = false → Goes (.jmpr p h g a) s (u.issued p h ((c.regs.ctrl a).bits.toNat % 2048) 1 [])) ∧
      ((c.regs.ctrl a).poison = false → (c.regs.ctrl b).poison = false →
        Goes (.srseed p h g a b) s ((u.setCore p { c with ctl := { c.ctl with
          srState := (c.regs.ctrl b).bits ++ (c.regs.ctrl a).bits } }).issued p h next 1 [])) ∧
      (imm.toNat < 2048 →
        Goes (.jmp p h g imm) s (u.issued p h imm.toNat 1 []) ∧
        Goes (.tsync p h g imm) s (u.issued p h (if h.tsm then imm.toNat else next) 1 [])) ∧
      (imm16.toNat < 2048 → (c.regs.ctrl d).poison = false →
        let v := (c.regs.ctrl d).bits - 1#32
        Goes (.loop p h g d imm16) s (u.issued p h (if v = 0#32 then next else imm16.toNat) 1
          [(ctrlLoc d, .put ⟨v, false⟩)])) ∧
      (imm.toNat < 2048 → imm.toNat / 256 ≠ c.ctl.pc / 256 → c.ctl.pagein = none →
        ∃ k, Goes (.pagein p h g imm) s (u.setCore p k) ∧
          k.ctl.pagein = some ⟨imm.toNat / 256, imm.toNat % 256, 0, u.clock.now + 2⟩ ∧
          k.ctl.pageValid.getLsbD (imm.toNat / 256) = false ∧ k.regs = c.regs ∧ k.fault = c.fault ∧
          k.pipe.flights = c.pipe.flights) ∧
      (imm.toNat % 2 ^ 14 = 0 →
        Goes (.loadhint p h g imm) s { u.issued p h next 1 [] with
          hints := u.hints ++ [(c.stat.lcore, u.clock.now + 64 * (imm.toNat / 2 ^ 18 + 1), imm.toNat / 2 ^ 14 % 16)] }))

/-- R187, R188, R191, R193: STRCNT and CSRRD write the count or the status value as it stands in the issue cycle; WAITSTR writes
whether the count is reached, and while it is not and the context is ACTIVE the core holds the bundle and nothing takes
effect; once the count is reached, or its context has left ACTIVE, the held bundle issues, and the cycles it was held count as
stream stall cycles. -/
def Obligations.StatusReadsAndStreamWaits : Prop :=
  (∀ (s u : State) (p : PCore) (h : Header) (g d a : BitVec 5) (n : BitVec 6), Meets s p u → guardOk g = true →
    (u.core p).regs.guard0 g = true → n.toNat < 8 →
    let c := u.core p
    let x := u.getCtx (8 * c.stat.lcore + n.toNat)
    Goes (.strcnt p h g d n) s (u.ctrlWrote p h d (BitVec.ofNat 32 x.count) false) ∧
    Goes (.csrrdLcore p h g d) s (u.ctrlWrote p h d (BitVec.ofNat 32 c.stat.lcore) false) ∧
    Goes (.csrrdTickLo p h g d) s (u.ctrlWrote p h d (u.clock.tick.extractLsb' 0 32) false) ∧
    Goes (.csrrdTickHi p h g d) s (u.ctrlWrote p h d (u.clock.tick.extractLsb' 32 32) false) ∧
    Goes (.csrrdCycle p h g d) s (u.ctrlWrote p h d (BitVec.ofNat 32 (u.clock.now - u.clock.start)) false) ∧
    Goes (.csrrdMapGen p h g d) s (u.ctrlWrote p h d (BitVec.ofNat 32 u.clock.hdr.mapGen) false) ∧
    Goes (.csrrdTickLen p h g d) s (u.ctrlWrote p h d (BitVec.ofNat 32 u.clock.hdr.len) false) ∧
    (d.toNat < 8 → (c.regs.ctrl a).poison = false →
      ((c.regs.ctrl a).bits.toNat ≤ x.count →
        Goes (.waitstr p h g d a n) s (u.predWrote p h d (BitVec.allOnes 64))) ∧
      (x.count < (c.regs.ctrl a).bits.toNat → x.st ≠ .active →
        Goes (.waitstr p h g d a n) s (u.predWrote p h d 0#64)) ∧
      (x.count < (c.regs.ctrl a).bits.toNat → x.st = .active →
        ∃ w, Goes (.waitstr p h g d a n) s (u.modPipe p fun k => { k with held := some w }) ∧ w.wait = true))) ∧
  (∀ (s u : State) (p : PCore) (w : HeldBundle), u = (s.sync p).syncCtx → (u.core p).pipe.held = some w → w.wait = true →
    w.since ≤ u.clock.now → u.waits p w.bundle = false →
    ∃ k, Goes (.waitstrRelease p) s ((u.setCore p k).firstRequest p w.bundle) ∧ k.pipe.held = none ∧ k.regs = (u.core p).regs ∧
      k.ctl.tickStream = max (u.core p).ctl.tickStream (min 255 ((u.core p).ctl.tickStream + (u.clock.now - w.since))) ∧
      k.ctl.tickConflict = (u.core p).ctl.tickConflict)

/-- R140, R190: under a guard that keeps it from acting, each CTRL operation named here neither
writes nor transfers nor waits: the
bundle passes as an empty one does. The model's choice of log entry 2 stands in it. -/
def Obligations.GuardedOffControlOperationsDoNothing : Prop :=
  ∀ (s u : State) (p : PCore) (h : Header) (g d a b : BitVec 5) (imm16 : BitVec 16) (imm : BitVec 21) (n : BitVec 6),
    Meets s p u → guardOk g = true → (u.core p).regs.guard0 g = false →
    let off (i : Instr) : Prop := Goes i s (u.issued p h (nextPc h (u.core p).ctl.pc) 1 [])
    off (.movi p h g d imm16) ∧ off (.movhi p h g d imm16) ∧ off (.addi p h g d imm16) ∧
    off (.aluAdd p h g d a b) ∧ off (.aluSub p h g d a b) ∧ off (.aluMul p h g d a b) ∧ off (.aluFadd p h g d a b) ∧
    (d.toNat < 8 → off (.cmpEq p h g d a b) ∧ off (.cmpFlt p h g d a b) ∧ off (.plogSetall p h g d)) ∧
    off (.jmpr p h g a) ∧ (imm.toNat < 2048 → off (.jmp p h g imm) ∧ off (.tsync p h g imm) ∧ off (.pagein p h g imm)) ∧
    (imm16.toNat < 2048 → off (.loop p h g d imm16)) ∧ off (.accswap p h g) ∧ off (.srseed p h g a b) ∧
    (n.toNat < 8 → d.toNat < 8 → off (.waitstr p h g d a n)) ∧ (n.toNat < 8 → off (.strcnt p h g d n)) ∧
    off (.csrrdTickLo p h g d)
/-! ### The sliver core: VECTOR and TENSOR -/

/-- R115, R116, R141, R142, R197, R204: in a bundle of its own on a free vector unit, each FP32 operation writes, 4
cycles after issue, its result in the lanes that the guard selects, rounded once in the mode that its RM names; a lane
is poison when a source lane is. The reductions write one result of all 64 lanes to every selected lane. The model's
choices of log entries 2 and 241 stand in it. -/
def Obligations.VectorFloatOperationsWriteSelectedLanes : Prop :=
  ∀ (s u : State) (p : PCore) (h : Header) (g : BitVec 5) (vd va vb vc : BitVec 6) (rm : BitVec 2), Meets s p u →
    guardOk g = true → (u.core p).pipe.vectorFree ≤ u.clock.now →
    let c := u.core p
    let n := c.ctl.inactive
    let a (i : Nat) := c.regs.vec n va i
    let b (i : Nat) := c.regs.vec n vb i
    let e (i : Nat) := c.regs.vec n vc i
    let m := Rm.ofCode rm
    let writes (op : VecOp) (f : Nat → Lane) := u.vecWrote p h op
      (((List.range 64).filter fun i => c.regs.guardLane g i).map fun i => (vecLoc n vd i, Pending.put (f i)))
    let all : List Lane := (List.range 64).map a
    Goes (.fadd p h g vd va vb rm) s
      (writes .fadd fun i => ⟨fadd32 m (a i).bits (b i).bits, (a i).poison || (b i).poison⟩) ∧
    Goes (.fsub p h g vd va vb rm) s
      (writes .fsub fun i => ⟨fsub32 m (a i).bits (b i).bits, (a i).poison || (b i).poison⟩) ∧
    Goes (.fmul p h g vd va vb rm) s
      (writes .fmul fun i => ⟨fmul32 m (a i).bits (b i).bits, (a i).poison || (b i).poison⟩) ∧
    Goes (.fma p h g vd va vb vc rm) s (writes .fma fun i =>
      ⟨fma32 m (f32Val (a i).bits) (f32Val (b i).bits) (f32Val (e i).bits), (a i).poison || (b i).poison || (e i).poison⟩) ∧
    Goes (.fms p h g vd va vb vc rm) s (writes .fms fun i =>
      ⟨fma32 m (f32Val (a i).bits) (f32Val (b i).bits) (f32Val (e i).bits).neg,
        (a i).poison || (b i).poison || (e i).poison⟩) ∧
    Goes (.fnma p h g vd va vb vc rm) s (writes .fnma fun i =>
      ⟨fma32 m (f32Val (a i).bits).neg (f32Val (b i).bits) (f32Val (e i).bits),
        (a i).poison || (b i).poison || (e i).poison⟩) ∧
    Goes (.fmin p h g vd va vb) s
      (writes .fmin fun i => ⟨fmin32 (a i).bits (b i).bits, (a i).poison || (b i).poison⟩) ∧
    Goes (.fmax p h g vd va vb) s
      (writes .fmax fun i => ⟨fmax32 (a i).bits (b i).bits, (a i).poison || (b i).poison⟩) ∧
    Goes (.fabs p h g vd va) s (writes .fabs fun i => ⟨(a i).bits &&& 0x7FFFFFFF#32, (a i).poison⟩) ∧
    Goes (.fneg p h g vd va) s (writes .fneg fun i => ⟨(a i).bits ^^^ 0x80000000#32, (a i).poison⟩) ∧
    Goes (.scalb p h g vd va vb rm) s (writes .scalb fun i =>
      ⟨toF32 m ((f32Val (a i).bits).scale (b i).bits.toInt), (a i).poison || (b i).poison⟩) ∧
    Goes (.fsumr p h g vd va) s (writes .fsumr fun _ =>
      ⟨reduceLanes (fadd32 .rne) (all.map (·.bits)), all.any (·.poison)⟩) ∧
    Goes (.fmaxr p h g vd va) s (writes .fmaxr fun _ => ⟨reduceLanes fmax32 (all.map (·.bits)), all.any (·.poison)⟩)

/-- R197 to R199: the integer operations and the moves write the lanes that the guard selects; EXTR writes the scalar or
address register that VD names, under bit 0 of its guard's predicate. The model's choice of log entry 2 stands in it. -/
def Obligations.VectorIntegerOperationsAndMovesWriteSelectedLanes : Prop :=
  ∀ (s u : State) (p : PCore) (h : Header) (g : BitVec 5) (vd va vb vc : BitVec 6) (part : BitVec 3), Meets s p u →
    guardOk g = true → (u.core p).pipe.vectorFree ≤ u.clock.now →
    let c := u.core p
    let n := c.ctl.inactive
    let a (i : Nat) := c.regs.vec n va i
    let b (i : Nat) := c.regs.vec n vb i
    let d (i : Nat) := c.regs.vec n vd i
    let bad (i : Nat) := (a i).poison || (b i).poison
    let writes (op : VecOp) (f : Nat → Lane) := u.vecWrote p h op
      (((List.range 64).filter fun i => c.regs.guardLane g i).map fun i => (vecLoc n vd i, Pending.put (f i)))
    Goes (.iadd p h g vd va vb) s (writes .iadd fun i => ⟨(a i).bits + (b i).bits, bad i⟩) ∧
    Goes (.isub p h g vd va vb) s (writes .isub fun i => ⟨(a i).bits - (b i).bits, bad i⟩) ∧
    Goes (.imul p h g vd va vb) s (writes .imul fun i => ⟨(a i).bits * (b i).bits, bad i⟩) ∧
    Goes (.vand p h g vd va vb) s (writes .and fun i => ⟨(a i).bits &&& (b i).bits, bad i⟩) ∧
    Goes (.vor p h g vd va vb) s (writes .or fun i => ⟨(a i).bits ||| (b i).bits, bad i⟩) ∧
    Goes (.vxor p h g vd va vb) s (writes .xor fun i => ⟨(a i).bits ^^^ (b i).bits, bad i⟩) ∧
    Goes (.vshl p h g vd va vb) s (writes .shl fun i => ⟨(a i).bits <<< ((b i).bits.toNat % 32), bad i⟩) ∧
    Goes (.vshr p h g vd va vb) s (writes .shr fun i => ⟨(a i).bits >>> ((b i).bits.toNat % 32), bad i⟩) ∧
    Goes (.vsra p h g vd va vb) s (writes .sra fun i => ⟨(a i).bits.sshiftRight ((b i).bits.toNat % 32), bad i⟩) ∧
    Goes (.imin p h g vd va vb) s
      (writes .imin fun i => ⟨BitVec.ofInt 32 (min (a i).bits.toInt (b i).bits.toInt), bad i⟩) ∧
    Goes (.imax p h g vd va vb) s
      (writes .imax fun i => ⟨BitVec.ofInt 32 (max (a i).bits.toInt (b i).bits.toInt), bad i⟩) ∧
    Goes (.vmov p h g vd va) s (writes .mov a) ∧
    (vc.toNat < 8 → Goes (.sel p h g vd va vb vc) s
      (writes .sel fun i => if (c.regs.pred vc.toNat).getLsbD i then a i else b i)) ∧
    (va.toNat < 32 → Goes (.splat p h g vd va) s (writes .splat fun _ => c.regs.ctrl (va.setWidth 5))) ∧
    Goes (.perm p h g vd va vb) s (writes .perm fun i =>
      ⟨(a ((b i).bits.toNat % 64)).bits, (a ((b i).bits.toNat % 64)).poison || (b i).poison⟩) ∧
    Goes (.iota p h g vd) s (writes .iota fun i => ⟨BitVec.ofNat 32 i, false⟩) ∧
    (part.toNat < 4 →
      Goes (.ins8 p h g vd va part) s (writes .ins8 fun i =>
        ⟨insBits (d i).bits (8 * part.toNat) 8 ((a i).bits.toNat % 256), (a i).poison || (d i).poison⟩) ∧
      Goes (.ext8 p h g vd va part) s (writes .ext8 fun i =>
        ⟨((a i).bits >>> (8 * part.toNat)) &&& 0xFF#32, (a i).poison⟩)) ∧
    (vd.toNat < 32 → c.regs.guard0 g = true → ¬ ((a vb.toNat).poison = true ∧ 16 ≤ vd.toNat) →
      Goes (.extr p h g vd va vb) s (u.vecWrote p h .extr [(ctrlLoc (vd.setWidth 5), .put (a vb.toNat))]))

/-- R118, R119, R121, R122, R200 to R203: the special functions, EXPO and the conversions write the lanes that the guard
selects; a stochastically rounding CVT advances the generator. The special functions' results stand as free values
where the spec only bounds them. The model's choices of log entries 2, 10 and 90 stand in it. -/
def Obligations.SpecialFunctionsAndConversionsWriteSelectedLanes : Prop :=
  ∀ (s u : State) (p : PCore) (h : Header) (g : BitVec 5) (vd va vb vc : BitVec 6) (rm : BitVec 2) (sr nsat : Bool)
    (fmt : BitVec 4) (part : BitVec 3), Meets s p u → guardOk g = true → (u.core p).pipe.vectorFree ≤ u.clock.now →
    let c := u.core p
    let n := c.ctl.inactive
    let a (i : Nat) := c.regs.vec n va i
    let b (i : Nat) := c.regs.vec n vb i
    let d (i : Nat) := c.regs.vec n vd i
    let on := (List.range 64).filter fun i => c.regs.guardLane g i
    let writes (op : VecOp) (f : Nat → Lane) := u.vecWrote p h op (on.map fun i => (vecLoc n vd i, Pending.put (f i)))
    let all : List Lane := (List.range 64).map a
    let w := partBits fmt.toNat
    Goes (.rcp p h g vd va) s (writes .rcp fun i => ⟨specialFn 0x40 (a i).bits, (a i).poison⟩) ∧
    Goes (.rsqrt p h g vd va) s (writes .rsqrt fun i => ⟨specialFn 0x41 (a i).bits, (a i).poison⟩) ∧
    Goes (.exp2 p h g vd va) s (writes .exp2 fun i => ⟨specialFn 0x42 (a i).bits, (a i).poison⟩) ∧
    Goes (.exp p h g vd va) s (writes .exp fun i => ⟨specialFn 0x43 (a i).bits, (a i).poison⟩) ∧
    Goes (.log2 p h g vd va) s (writes .log2 fun i => ⟨specialFn 0x44 (a i).bits, (a i).poison⟩) ∧
    Goes (.log p h g vd va) s (writes .log fun i => ⟨specialFn 0x45 (a i).bits, (a i).poison⟩) ∧
    Goes (.expo p h g vd va) s (writes .expo fun i => ⟨expo32 (a i).bits, (a i).poison⟩) ∧
    (vecOk .cvt { vd := vd, va := va, rm := rm, sr := sr, nsat := nsat, fmt := fmt, part := part } = true →
      Goes (.cvt p h g vd va rm sr nsat fmt part) s
        ((writes .cvt fun i =>
          ⟨insBits (d i).bits (w * part.toNat) w
              (if sr then srToBf16 (a i).bits (srDraw c.ctl.srState i)
               else narrow fmt.toNat (Rm.ofCode rm) nsat (f32Val (a i).bits)),
            (a i).poison || (decide (w ≠ 32) && (d i).poison)⟩).modCtl p fun k =>
          { k with srState := if sr then c.ctl.srState + 64#64 * srG else c.ctl.srState })) ∧
    (vecOk .cvtu { vd := vd, va := va, rm := rm, fmt := fmt, part := part } = true →
      Goes (.cvtu p h g vd va rm fmt part) s (writes .cvtu fun i =>
        ⟨toF32 (Rm.ofCode rm) (elemVal fmt.toNat (bitsOf (a i).bits.toNat (w * part.toNat) (elemBits fmt.toNat))),
          (a i).poison⟩)) ∧
    (vecOk .qnt { vd := vd, va := va, vb := vb, rm := rm, fmt := fmt, part := part } = true →
      Goes (.qnt p h g vd va vb rm fmt part) s (writes .qnt fun i =>
        ⟨insBits (d i).bits (w * part.toNat) w
            (quantise fmt.toNat (Rm.ofCode rm) (f32Val (a i).bits) (b i).bits.toInt),
          (a i).poison || (b i).poison || (d i).poison⟩)) ∧
    (vecOk .bcvt { vd := vd, va := va, fmt := fmt, part := part } = true →
      Goes (.bcvt p h g vd va fmt part) s (u.vecWrote p h .bcvt
        (((bcvtLanes { vd := vd, va := va, fmt := fmt, part := part } all).filter fun x => c.regs.guardLane g x.1).map
          fun x => (vecLoc n vd x.1, Pending.put x.2)))) ∧
    (vecOk .bscl { vd := vd, va := va, vb := vb, fmt := fmt } = true → c.regs.guardLane g (vb.toNat / 2) = true →
      Goes (.bscl p h g vd va vb fmt) s (u.vecWrote p h .bscl
        [(vecLoc n vd (vb.toNat / 2),
          Pending.put (bsclLane { vd := vd, va := va, vb := vb, fmt := fmt } all (d (vb.toNat / 2))))])) ∧
    (vecOk .bunp { vd := vd, va := va, vb := vb, vc := vc, fmt := fmt, part := part } = true →
      Goes (.bunp p h g vd va vb vc fmt part) s (writes .bunp fun i =>
        bunpLane { vd := vd, va := va, vb := vb, vc := vc, fmt := fmt, part := part } all (b (vc.toNat / 2)) i))

/-- R197, R199: a predicate-writing operation on good lanes writes bit i for the selected lanes alone. The model's
choice of log entry 2 stands in it. -/
def Obligations.VectorComparisonsWriteSelectedPredicateBits : Prop :=
  ∀ (s u : State) (p : PCore) (h : Header) (g : BitVec 5) (vd va vb : BitVec 6), Meets s p u → guardOk g = true →
    (u.core p).pipe.vectorFree ≤ u.clock.now → vd.toNat < 8 →
    let c := u.core p
    let a (i : Nat) := c.regs.vec c.ctl.inactive va i
    let b (i : Nat) := c.regs.vec c.ctl.inactive vb i
    let on := (List.range 64).filter fun i => c.regs.guardLane g i
    let bit (x : Bool) : Lane := ⟨if x then 1#32 else 0#32, false⟩
    let writes (op : VecOp) (f : Nat → Bool) :=
      u.vecWrote p h op (on.map fun i => (Loc.p vd.toNat i, Pending.put (bit (f i))))
    (∀ i, c.regs.guardLane g i = true → (a i).poison = false) →
    Goes (.fnonfin p h g vd va) s (writes .fnonfin fun i => fnonfin32 (a i).bits) ∧
    ((∀ i, c.regs.guardLane g i = true → (b i).poison = false) →
      Goes (.feq p h g vd va vb) s (writes .feq fun i => feq32 (a i).bits (b i).bits) ∧
      Goes (.flt p h g vd va vb) s (writes .flt fun i => flt32 (a i).bits (b i).bits) ∧
      Goes (.fle p h g vd va vb) s (writes .fle fun i => fle32 (a i).bits (b i).bits) ∧
      Goes (.funord p h g vd va vb) s (writes .funord fun i => isNan32 (a i).bits || isNan32 (b i).bits) ∧
      Goes (.ieq p h g vd va vb) s (writes .ieq fun i => decide ((a i).bits = (b i).bits)) ∧
      Goes (.ilt p h g vd va vb) s (writes .ilt fun i => decide ((a i).bits.toInt < (b i).bits.toInt)) ∧
      Goes (.iltu p h g vd va vb) s (writes .iltu fun i => decide ((a i).bits.toNat < (b i).bits.toNat)))

/-- R68, R112, R154, R159, R194, R196: an MMA on a free tensor unit adds its term to every element of the active
accumulator buffer (to +0 under ACCZ), from the registers and scales as they stand in its issue cycle, 14 cycles after
issue, or 18 when an operand is BF16; the unit is taken for 4 or 8 cycles. The model's choice of log entry 2 stands in
it. -/
def Obligations.MatrixMultiplyAddsIntoTheActiveBuffer : Prop :=
  ∀ (s u : State) (p : PCore) (h : Header) (g va vb : BitVec 5) (af bf : BitVec 4) (sc : BitVec 3) (ag bg : BitVec 2)
    (z : Bool), Meets s p u → guardOk g = true → (u.core p).pipe.tensorFree ≤ u.clock.now →
    (u.core p).regs.guard0 g = true → tensorOk (.mma va vb af bf sc ag bg z) = true →
    let c := u.core p
    let wide := af = 1#4 ∨ bf = 1#4
    let lat := if wide then 18 else 14
    ∃ ws, Goes (.mma p h g va vb af bf sc ag bg z) s
        ((u.issued p h (nextPc h c.ctl.pc) lat ws).modPipe p fun k =>
          { k with tensorFree := u.clock.now + if wide then 8 else 4 }) ∧
      ∀ i j, i < 64 → j < 32 →
        (Loc.acc c.ctl.active i j,
          Pending.add z ((c.regs.lane va.toNat i).poison || (c.regs.lane vb.toNat j).poison)
            (mmaTerm af.toNat bf.toNat (mmaDepth af.toNat bf.toNat) (c.regs.lane va.toNat i).bits
              (c.regs.lane vb.toNat j).bits (c.regs.scaleA af.toNat sc.toNat ag.toNat i)
              (c.regs.scaleB bf.toNat sc.toNat bg.toNat j))) ∈ ws
/-! ### The sliver core: LD0, LS1 and ROUTE -/

/-- R73 to R77, R143, R155, R205 to R207: a load whose guard lets it act and whose banks are free writes, 5 cycles after
issue, the scratchpad's bytes at its offset: to one register's lanes, to an address or scalar register, or to the scale
file. It changes nothing else. The model's choice of log entry 2 stands in it. -/
def Obligations.LoadsWriteTheScratchpadsBytes : Prop :=
  ∀ (s u : State) (p : PCore) (h : Header) (g : BitVec 5) (ls1 : Bool) (q : BitVec 2) (hi : Bool) (reg : BitVec 6)
    (base : BitVec 4) (off : BitVec 16), Meets s p u → guardOk g = true → (u.core p).regs.guard0 g = true →
    let c := u.core p
    let at_ (op : MemOp) := accessOff c.regs op base off
    let fit (op : MemOp) := u.granted p (at_ op) (memSize op) ∧ u.clean p (at_ op) (memSize op)
    let good (op : MemOp) := ∀ i < memSize op, u.wordPoison p ((at_ op + i) / 8) = false
    let loads (op : MemOp) (ws : List (Loc × Pending)) :=
      (u.tookBanks p (banksOf (at_ op) (memSize op))).issued p h (nextPc h c.ctl.pc) 5 ws
    let lanes (op : MemOp) (n : Nat) := (List.range n).map fun i =>
      (Loc.v reg.toNat (memLane0 op + i), Pending.put (u.spadLane p (at_ op + 4 * i)))
    let byte (op : MemOp) (i : Nat) : Lane :=
      ⟨(Memory.read u.srams.spad (spKey p (at_ op + i))).setWidth 32, false⟩
    (fit .ldw →
      (reg.toNat < 32 → Goes (.ldw p h g ls1 reg base off) s
        (loads .ldw ((List.range 64).map fun i => (Loc.v reg.toNat i, Pending.put (u.spadLane p (at_ .ldw)))))) ∧
      (32 ≤ reg.toNat → reg.toNat < 48 → good .ldw → Goes (.ldw p h g ls1 reg base off) s
        (loads .ldw [(Loc.a (reg.toNat - 32), Pending.put (u.spadLane p (at_ .ldw)))])) ∧
      (48 ≤ reg.toNat → Goes (.ldw p h g ls1 reg base off) s
        (loads .ldw [(Loc.s (reg.toNat - 48), Pending.put (u.spadLane p (at_ .ldw)))]))) ∧
    (reg.toNat < 32 →
      (fit .ldd → Goes (.ldd p h g ls1 reg base off) s
        (loads .ldd ((List.range 64).map fun i => (Loc.v reg.toNat i, Pending.put (u.spadLane p (at_ .ldd + 4 * (i % 2))))))) ∧
      (fit (.ldq q) → Goes (.ldq p h g ls1 q reg base off) s (loads (.ldq q) (lanes (.ldq q) 16))) ∧
      (fit (.ldh hi) → Goes (.ldh p h g ls1 hi reg base off) s (loads (.ldh hi) (lanes (.ldh hi) 32))) ∧
      (fit .ldv → Goes (.ldv p h g ls1 reg base off) s (loads .ldv (lanes .ldv 64))) ∧
      (fit .ldsc64 → good .ldsc64 → Goes (.ldsc64 p h g ls1 reg base off) s
        (loads .ldsc64 ((List.range 64).map fun i =>
          (Loc.scale (reg.toNat % 8) (64 * (reg.toNat / 8) + i), Pending.put (byte .ldsc64 i)))))) ∧
    (reg.toNat < 8 → fit .ldsc256 → good .ldsc256 → Goes (.ldsc256 p h g ls1 reg base off) s
      (loads .ldsc256 ((List.range 256).map fun i => (Loc.scale reg.toNat i, Pending.put (byte .ldsc256 i)))))

/-- R90, R143, R205, R245, R657: a store whose guard lets it act and whose banks are free puts the bytes of its register at its
offset, one register's lanes from the first it names on; while the core is the source of a move, the same bytes go to the same
offset of the core that receives the move. Every other byte of every scratchpad reads as before, and nothing else changes but,
where the row shift bus carries the write across the seif, what the seif holds. A full seif in that way holds the bundle instead, a
seam stall cycle. The model's choices of log entries 2 and 232 stand in it. -/
def Obligations.StoresWriteTheirBytesAndNoOthers : Prop :=
  ∀ (s u : State) (p : PCore) (h : Header) (g : BitVec 5) (q : BitVec 2) (hi : Bool) (reg : BitVec 6) (base : BitVec 4)
    (off : BitVec 16), Meets s p u → guardOk g = true → (u.core p).regs.guard0 g = true →
    Memory.wf u.srams.spad = true →
    let c := u.core p
    let into (m : Nat) := m = p.val ∨ u.mirrorOf p = some m
    let stores (i : Instr) (op : MemOp) (lo n : Nat) :=
      let o := accessOff c.regs op base off
      u.granted p o (4 * n) → (∀ m, into m → u.clean m o (4 * n)) →
      ((u.shiftCrosses p = true → u.seifBeside p < 8) →
        ∃ r e, Goes i s { (u.tookBanks p (banksOf o (4 * n))).issued p h (nextPc h c.ctl.pc) 1 [] with
            srams := r, mesh := { u.mesh with seif := e } } ∧
          r.imem = u.srams.imem ∧ r.imemFlips = u.srams.imemFlips ∧ (u.shiftCrosses p = false → e = u.mesh.seif) ∧
          (∀ m, into m → ∀ j < 4 * n, Memory.read r.spad (spKey m (o + j)) = byteAt (c.regs.regBytes reg lo n) j) ∧
          (∀ x, (∀ m, into m → ∀ j < 4 * n, x ≠ spKey m (o + j)) → Memory.read r.spad x = Memory.read u.srams.spad x)) ∧
      (u.shiftCrosses p = true → 8 ≤ u.seifBeside p →
        ∃ k, Goes i s (u.setCore p k) ∧ k.regs = c.regs ∧ k.ctl.pc = c.ctl.pc ∧ k.pipe.held.isSome = true ∧
          k.ctl.tickSeif = satAdd 0xFF c.ctl.tickSeif 1 ∧ k.ctl.stallSum = satAdd 0xFFFF c.ctl.stallSum 1)
    stores (.stw p h g reg base off) .stw 0 1 ∧
    (reg.toNat < 32 →
      stores (.std p h g reg base off) .std 0 2 ∧
      stores (.stq p h g q reg base off) (.stq q) (16 * q.toNat) 16 ∧
      stores (.sth p h g hi reg base off) (.sth hi) (if hi then 32 else 0) 32 ∧
      stores (.stv p h g reg base off) .stv 0 64)

/-- R208 to R211, R251, R256, R272, R276: a send whose register holds no poison puts its flits on the mesh, 64 bytes in
each, and changes nothing else: to the core that its target names, to a reduction tag whose entry expects the core, or
to the destination of a circuit in its window. An action of class C0 that C0 does not carry, one past the fourth C0
action of the tick, or one that finds the send buffer full sends nothing, and the bundle still goes on (R214). A core beside
a full seif is held instead, a seam stall cycle (R245). The model's choices of log entries 2 and 97 stand in it. -/
def Obligations.SendsPutTheirFlitsOnTheMesh : Prop :=
  (∀ (s u : State) (p : PCore) (h : Header) (g : BitVec 5) (cls q : BitVec 2) (reg : BitVec 6) (target : BitVec 14)
    (doff : BitVec 15), Meets s p u → guardOk g = true → (u.core p).regs.guard0 g = true →
    let c := u.core p
    let free := cls ≠ 0#2 ∨ c.ctl.c0Sent < 4
    let sends (i : Instr) (kind dest arg doff_ n lo m : Nat) :=
      c.regs.goodLanes reg lo m → ∃ k x, Goes i s ({ u with mesh := x }.setCore p k) ∧ c.goesOn k h ∧
        x.nextFlit = u.mesh.nextFlit + n ∧
        ∀ j < n, ∃ f, tfind x.flits (u.mesh.nextFlit + j) = some f ∧ f.kind = kind ∧ f.cls = cls.toNat ∧ f.dest = dest ∧
          f.arg = arg ∧ f.doff = doff_ ∧ f.idx = j ∧ f.src = c.stat.lcore ∧
          f.bytes = c.regs.regBytes reg (lo + 16 * j) (min 16 m)
    (target.toNat < 12288 →
      (u.seifRoom p → free → sends (.sendw p h g cls reg target doff) 0 target.toNat doff.toNat 0 1 0 1) ∧
      (reg.toNat < 32 →
        (u.seifRoom p → free → sends (.sendq p h g cls reg q target doff) 0 target.toNat doff.toNat 0 1 (16 * q.toNat) 16) ∧
        (u.seifRoom p → cls ≠ 0#2 → sends (.sendv p h g cls reg target doff) 0 target.toNat doff.toNat 0 4 0 64) ∧
        (c.pipe.sendBuf < 8 →
          (free → sends (.wsendq p h g cls reg q target doff) 3 target.toNat doff.toNat 0 1 (16 * q.toNat) 16) ∧
          (cls ≠ 0#2 → sends (.wsendv p h g cls reg target doff) 3 target.toNat doff.toNat 0 4 0 64)))) ∧
    (reg.toNat < 32 → cls ≠ 0#2 →
      (∀ e, tagEntryAt (u.mesh.version (u.epochAt (pSite p))) (posOfPcore p) target.toNat = some e → e.expLocal = true →
        sends (.redv p h g cls reg target) 1 0 target.toNat 0 4 0 64) ∧
      (∀ w, target.toNat < 256 → tfind (u.mesh.version (u.epochAt (pSite p))).circuits target.toNat = some w →
        u.seifRoom p → w.src = c.stat.lcore → target.toNat ∈ u.mesh.windows → w.start ≤ u.cycle → u.cycle < w.start + w.len →
        sends (.circv p h g cls reg target doff) 2 w.dest target.toNat doff.toNat 4 0 64))) ∧
  (∀ (s u : State) (p : PCore) (h : Header) (g : BitVec 5) (cls q : BitVec 2) (reg : BitVec 6) (target : BitVec 14)
    (doff : BitVec 15), Meets s p u → guardOk g = true → (u.core p).regs.guard0 g = true → reg.toNat < 32 →
    target.toNat < 12288 → (u.core p).regs.goodLanes reg 0 64 →
    let c := u.core p
    (∃ k x e, Goes (.sendv p h g 0#2 reg target doff) s ({ u with mesh := x, evq := e }.setCore p k) ∧ c.goesOn k h ∧
      x.flits = u.mesh.flits ∧ k.pipe.c0Refused = true) ∧
    (4 ≤ c.ctl.c0Sent →
      ∃ k, Goes (.sendq p h g 0#2 reg q target doff) s (u.setCore p k) ∧ c.goesOn k h ∧
        k.pipe.dropCount = c.pipe.dropCount + 1) ∧
    (cls ≠ 0#2 → 8 ≤ c.pipe.sendBuf →
      ∃ k, Goes (.wsendv p h g cls reg target doff) s (u.setCore p k) ∧ c.goesOn k h ∧
        k.pipe.dropCount = c.pipe.dropCount + 1) ∧
    (∀ pos, cls ≠ 0#2 → 8 ≤ u.seifBeside p → u.nodePos (u.mesh.version (u.epochAt (pSite p))) target.toNat (posOfPcore p) = some pos →
      (pCol p = 6 ∧ nextDir (u.mesh.version (u.epochAt (pSite p))) (posOfPcore p) pos = some .east ∨
        pCol p = 7 ∧ nextDir (u.mesh.version (u.epochAt (pSite p))) (posOfPcore p) pos = some .west) →
      ∃ k, Goes (.sendv p h g cls reg target doff) s (u.setCore p k) ∧ k.regs = c.regs ∧ k.ctl.pc = c.ctl.pc ∧
        k.pipe.held.isSome = true ∧ k.ctl.tickSeif = satAdd 0xFF c.ctl.tickSeif 1 ∧
        k.ctl.stallSum = satAdd 0xFFFF c.ctl.stallSum 1))

/-- R187, R290, R307: STRM and SAECMD make an inactive context ACTIVE with count 0 and send the descriptor, with its
issue stamp, to the base dies; on an ACTIVE context they put it in ERROR, and nothing is sent. The model's choices of
log entries 2, 86 and 242 stand in it. -/
def Obligations.StreamActionsOpenTheirContext : Prop :=
  ∀ (s u : State) (p : PCore) (h : Header) (g : BitVec 5) (cls : BitVec 2) (reg : BitVec 6) (target : BitVec 14),
    Meets s p u → guardOk g = true → (u.core p).regs.guard0 g = true → reg.toNat < 32 → cls ≠ 0#2 → u.seifRoom p →
    (u.core p).regs.goodLanes reg 0 16 →
    let c := u.core p
    let bs := c.regs.regBytes reg 0 16
    let opens (i : Instr) (n total : Nat) (dies : List Nat) :=
      let key := 8 * c.stat.lcore + n
      ((u.getCtx key).st ≠ .active →
        ∃ k x y, Goes i s ({ u with mesh := x, ctx := y }.setCore p k) ∧ c.goesOn k h ∧ tget {} y key = ⟨.active, 0, total⟩ ∧
          (∀ j, j ≠ key → tget {} y j = u.getCtx j) ∧ x.nextFlit = u.mesh.nextFlit + dies.length ∧
          ∀ j < dies.length, ∃ f, tfind x.flits (u.mesh.nextFlit + j) = some f ∧ f.kind = 4 ∧
            f.dest = nodeOfStack (dies.getD j 0) ∧ f.bytes = u.stamp bs) ∧
      ((u.getCtx key).st = .active →
        ∃ k y, Goes i s ({ u with ctx := y }.setCore p k) ∧ c.goesOn k h ∧
          tget {} y key = { u.getCtx key with st := .error } ∧ ∀ j, j ≠ key → tget {} y j = u.getCtx j)
    (target.toNat < 8 → inCtl (leField bs 8 8) 64 = false →
      opens (.strm p h g cls reg target) target.toNat (leField bs 4 4)
        (if u.plos.placed then [(stackAddr true (leField bs 8 8)).1 % 16] else List.range 16)) ∧
    (target.toNat < 16 →
      opens (.saecmd p h g cls reg target) (leField bs 1 1 % 8) 0 [target.toNat])

/-- R212, R327, R328, R336 to R338: WOPEN with a valid descriptor opens the wadi that it describes, and one with a
defect leaves it closed; WCLOSE closes it; RDMA with a valid descriptor that reads a stack takes the lowest free slot
until its report or its deadline, and with no slot free its record that says so asks for its bank. The model's choices of log
entries 2 and 89 stand in it. -/
def Obligations.WindowActionsOpenCloseAndTakeSlots : Prop :=
  ∀ (s u : State) (p : PCore) (h : Header) (g : BitVec 5) (cls : BitVec 2) (reg : BitVec 6) (target : BitVec 14),
    Meets s p u → guardOk g = true → (u.core p).regs.guard0 g = true →
    let c := u.core p
    let l := c.stat.lcore
    (target.toNat < 16 →
      (∃ k, Goes (.wclose p h g target) s ((u.closeWadi l target.toNat).setCore p k) ∧ c.goesOn k h) ∧
      (reg.toNat < 32 → c.regs.goodLanes reg 0 8 →
        (∀ w, parseWadi (c.regs.regBytes reg 0 8) u.clock.tick.toNat = some w →
          ∃ k x, Goes (.wopen p h g reg target) s ({ u with win := x }.setCore p k) ∧ c.goesOn k h ∧
            tfind x.wadi (16 * l + target.toNat) = some w ∧ x.rdma = u.win.rdma ∧ x.drop = u.win.drop) ∧
        (parseWadi (c.regs.regBytes reg 0 8) u.clock.tick.toNat = none →
          ∃ k x e, Goes (.wopen p h g reg target) s ({ u with win := x, evq := e }.setCore p k) ∧ c.goesOn k h ∧
            x.wadi = tdel u.win.wadi (16 * l + target.toNat) ∧ x.rdma = u.win.rdma))) ∧
    (reg.toNat < 32 → cls ≠ 0#2 → c.regs.goodLanes reg 0 16 →
      let bs := c.regs.regBytes reg 0 16
      rdmaCtl bs = false → rdmaBad bs u.zfp.devNum = false → leField bs 1 1 = 1 →
      (∀ i, u.freeRdma l = some i →
        ∃ t r, Goes (.rdma p h g cls reg) s t ∧ tfind t.win.rdma (4 * l + i) = some r ∧ r.dest = leField bs 16 8 ∧
          r.seq = leField bs 0x1C 4 ∧ r.granules = leField bs 4 4 / 64 ∧ r.landed = 0 ∧ r.deadline = u.clock.now + 2 ^ 25 ∧
          c.goesOn (t.core p) h) ∧
      (u.freeRdma l = none → u.pcoreOf l = some p.val →
        ∃ k, Goes (.rdma p h g cls reg) s (u.setCore p k) ∧ c.goesOn k h ∧
          k.pipe.lowBuf = c.pipe.lowBuf ++ (if leField bs 0x18 4 = 0xFFFFFFFF then [] else
            [(u.clock.now, leField bs 0x18 4, recordBytes (leField bs 0x1C 4) 0x092 0)])))
/-- R73, R83, R86, R97, R139, R162: a bundle that faults issues no slot: the core stops as FAULTED with the code, slot, bundle
index and tick recorded, and its registers and results in flight stand. So do a CTRL operation with a field out of range, a
guard of the reserved mode, a misaligned access, poison at an address register or a branch, and a page-in of the page that
runs or behind two others. R87, R162: a core whose program counter stands in an invalid page, or at a bundle with an uncorrectable error, faults before
any slot issues, whichever slot its bundle fills. A core that does not run, that holds a bundle, or that waits at TSYNC issues nothing:
the command leaves the machine as it is. -/
def Obligations.FaultingAndUnusableBundlesRecordTheirCause : Prop :=
  (∀ (s u : State) (p : PCore) (h : Header) (g d a b : BitVec 5) (imm : BitVec 21) (reg : BitVec 6) (base : BitVec 4)
    (off : BitVec 16) (ls1 : Bool), Meets s p u → (u.core p).fault.valid = false →
    let c := u.core p
    let faults (i : Instr) (slot code : Nat) :=
      ∃ k, Goes i s (u.setCore p k) ∧ k.stat.run = .faulted ∧ k.fault.valid = true ∧ k.fault.multi = false ∧
        k.fault.slot = slot ∧ k.fault.code = code ∧ k.fault.bundle = c.ctl.pc ∧ k.fault.tick = u.clock.tick ∧
        k.ctl.readyAt = none ∧ k.regs = c.regs ∧ k.count = c.count ∧ k.pipe.flights = c.pipe.flights
    (24 ≤ g.toNat → faults (.aluAdd p h g d a b) 1 ST_CORE_ILLEGAL) ∧
    (8 ≤ d.toNat → faults (.cmpEq p h g d a b) 1 ST_CORE_ILLEGAL) ∧
    (2048 ≤ imm.toNat → faults (.jmp p h g imm) 1 ST_CORE_ILLEGAL ∧ faults (.pagein p h g imm) 1 ST_CORE_ILLEGAL) ∧
    (guardOk g = true → c.regs.guard0 g = true →
      (reg.toNat < 32 → accessOff c.regs .ldv base off % 256 ≠ 0 →
        faults (.ldv p h g ls1 reg base off) (if ls1 then 5 else 4) ST_CORE_ALIGN ∧
        faults (.stv p h g reg base off) 5 ST_CORE_ALIGN) ∧
      ((c.regs.ctrl a).poison = true →
        faults (.jmpr p h g a) 1 ST_CORE_POISON ∧
        (16 ≤ d.toNat → faults (.aluAdd p h g d a b) 1 ST_CORE_POISON) ∧
        (d.toNat < 8 → faults (.cmpEq p h g d a b) 1 ST_CORE_POISON)) ∧
      (imm.toNat < 2048 →
        (imm.toNat / 256 = c.ctl.pc / 256 → (c.ctl.pagein = none ∨ c.ctl.pageinQ = none) →
          faults (.pagein p h g imm) 1 ST_CORE_PAGE_LIVE) ∧
        (imm.toNat / 256 = c.ctl.pc / 256 → c.ctl.pagein ≠ none → c.ctl.pageinQ ≠ none →
          ∃ k, Goes (.pagein p h g imm) s (u.setCore p k) ∧ k.stat.run = .faulted ∧ k.fault.multi = true ∧
            k.fault.code = ST_CORE_PAGE_LIVE ∧ k.regs = c.regs) ∧
        (imm.toNat / 256 ≠ c.ctl.pc / 256 → c.ctl.pagein.isSome = true → c.ctl.pageinQ.isSome = true →
          faults (.pagein p h g imm) 1 ST_CORE_PAGE_BUSY)))) ∧
  ((∀ (s u : State) (p : PCore) (h : Header) (r : Nat) (g d a b : BitVec 5) (imm : BitVec 16) (reg : BitVec 6) (base : BitVec 4)
    (i : Instr), (i = .nop p h 0#5 ∨ i = .movi p h g d imm ∨ i = .aluAdd p h g d a b ∨ i = .jmpr p h g a ∨ i = .vmov p h g reg reg ∨
      i = .ldv p h g true reg base imm ∨ i = .stv p h g reg base imm) →
    (s.core p).canIssue = some r → u = s.meetAt p r → (u.core p).stat.run = .running →
    (u.core p).fault.valid = false →
    let c := u.core p
    (c.ctl.pageValid.getLsbD (c.ctl.pc / 256) = false →
      ∃ k, Goes i s (u.setCore p k) ∧ k.stat.run = .faulted ∧ k.fault.code = ST_CORE_PAGE_LATE ∧
        k.fault.slot = 0 ∧ k.fault.bundle = c.ctl.pc ∧ k.regs = c.regs ∧ k.pipe.flights = c.pipe.flights) ∧
    (c.ctl.pageValid.getLsbD (c.ctl.pc / 256) = true → 2 ≤ tget 0 u.srams.imemFlips (imKey p c.ctl.pc) →
      ∃ k e, Goes i s ({ u with evq := e }.setCore p k) ∧ k.stat.run = .faulted ∧
        k.fault.code = ST_CORE_IMEM_ECC ∧ k.fault.bundle = c.ctl.pc ∧ k.regs = c.regs ∧
        k.count.uncorr = if c.count.uncorr < 15 then c.count.uncorr + 1 else c.count.uncorr)) ∧
  (∀ (s : State) (p : PCore) (h : Header) (g d : BitVec 5) (imm : BitVec 16) (reg : BitVec 6) (base : BitVec 4),
    ((s.core p).stat.run ≠ .running ∨ (s.core p).pipe.held ≠ none ∨ (s.core p).ctl.readyAt = none) →
    Goes (.movi p h g d imm) s s ∧ Goes (.stv p h g reg base imm) s s ∧ Goes (.vmov p h g reg reg) s s))



/-! ### Cores between their bundles, and the panel map -/

/-- R96: CORE_CTL. HOLD stops a running core at its next bundle boundary; RESUME lets a held core run on, its next bundle not before
the present cycle; SELFCHECK is taken from RESTING or IDLE alone and its end, passed, gives the core back its state; SWEEP
begins on a core on which no program runs. R25, R33: an id of a gateway site names no core, so that neither begins there. -/
def Obligations.CoreControlCommandsChangeRun : Prop :=
  ∀ (s u : State) (p : PCore), u = s.sync p →
    let c := u.core p
    (c.stat.run = .running → c.pipe.held = none →
      Goes (.hold p) s (u.setCore p { c with stat := { c.stat with run := .held } })) ∧
    (c.stat.run = .running → c.pipe.held ≠ none →
      Goes (.hold p) s (u.setCore p { c with pipe := { c.pipe with holdReq := true } })) ∧
    (c.stat.run = .held →
      Goes (.resume p) s (u.setCore p { c with
        stat := { c.stat with run := .running }
        ctl := { c.ctl with readyAt := c.ctl.readyAt.map fun t => max t u.clock.now }
        pipe := { c.pipe with holdReq := false } })) ∧
    (isGw (pSite p) = false → c.stat.run = .resting ∨ c.stat.run = .idle →
      ∃ k, Goes (.selfcheck p) s (u.setCore p k) ∧ k.stat = { c.stat with run := .selfcheck } ∧
        k.regs = c.regs ∧ k.ctl = c.ctl) ∧
    (isGw (pSite p) = false → c.stat.run = .running → Goes (.selfcheck p) s u) ∧
    (isGw (pSite p) = true → Goes (.selfcheck p) s s ∧ Goes (.sweep p) s s) ∧
    ((s.core p).stat.run = .selfcheck → s.moveAt p = none →
      Goes (.selfcheckDone p true) s (s.setCore p { s.core p with
        stat := { (s.core p).stat with run := (s.core p).pipe.beforeCheck } })) ∧
    (isGw (pSite p) = false → (s.core p).stat.run ≠ .running → (s.core p).stat.run ≠ .held → s.onJob p = false →
      ∃ t, Goes (.sweep p) s t ∧ (t.core p).stat.run = .sweeping ∧ (t.core p).regs = {} ∧ (t.core p).ctl = {} ∧
        (∀ q, q ≠ p → t.core q = s.core q) ∧ t.srams = s.srams ∧ pIdx p ∈ (t.dieSweep (pSite p)).left)

/-- R134 to R136, R160: the marks. A STOP bundle makes its core IDLE in cycle t + 1 + HOLD; a PGM bundle goes on at the
first bundle of the next page; a core whose TSM bundle has issued arrives at TSYNC in the cycle that its mark gave. R76,
R77, R132, R134: the next bundle is fetched at the program counter, and a held bundle whose last access is granted in
the next cycle issues in it, its held cycles counted as conflict stall cycles. A page-in that nothing delays reads its
remaining granules one a cycle, and completes: its page is valid (R85, R161). All of it where the core's half-die is not
stretched (R244). The model's choice of log entry 100 stands
in it. -/
def Obligations.MarksAndHeldBundlesAndPageInsTakeEffect : Prop :=
  (∀ (s u : State) (p : PCore) (hold : BitVec 5),
    (Meets s p u →
      Goes (.pageMark p hold) s
        (u.issued p ⟨false, false, true, hold⟩ (((u.core p).ctl.pc / 256 + 1) % 8 * 256) 1 []) ∧
      ((u.core p).bankWork = false → (u.core p).pipe.holdReq = false → u.swallows p = 0 →
        ∃ t, Goes (.stop p hold) s t ∧ (t.core p).stat.run = .idle ∧ (t.core p).ctl.stopped = true ∧
          (t.core p).ctl.readyAt = none ∧ t.clock.now = u.clock.now + 1 + hold.toNat ∧ t.srams = u.srams)) ∧
    (∀ t, (s.core p).pipe.arriveAt = some t → (s.core p).bankWork = false → s.swallows p = 0 →
      ∃ v, Goes (.tsyncArrival p) s v ∧ (v.core p).ctl.atTsync = true ∧ (v.core p).pipe.arriveAt = none ∧
        v.clock.now = max s.clock.now t ∧ (v.core p).pipe.arrived = some (t - s.clock.start) ∧ v.srams = s.srams ∧
        ∀ q, q ≠ p.val → v.core q = s.core q)) ∧
  ((∀ (s u : State) (p : PCore),
    (Meets s p u → (s.core p).ctl.pc = (u.core p).ctl.pc → tget 0#256 s.srams.imem (imKey p (s.core p).ctl.pc) = 0#256 →
      Goes (.holdExpiry p) s
        (u.issued p ⟨false, false, false, 0#5⟩ (((u.core p).ctl.pc + 1) % 2048) 1 [])) ∧
    (∀ w, (s.core p).pipe.held = some w → w.wait = false → s.swallows p = 0 → u = ((s.advance (s.clock.now + 1)).sync p).syncCtx →
      let q := u.serveCycle p w.ld0 w.ls1
      q.2.1.served = true → q.2.2.served = true → u.shiftHeld p w.ld0 w.ls1 = false → q.1.seamHeld p w.bundle = false →
      w.since ≤ u.clock.now →
      ∃ t, Goes (.heldBundleIssue p) s t ∧ (t.core p).pipe.held = none ∧
        (t.core p).ctl.tickConflict =
          max (u.core p).ctl.tickConflict (min 255 ((u.core p).ctl.tickConflict + (u.clock.now - w.since))))) ∧
  (∀ (s : State) (p : PCore) (g : PageIn),
    let c := s.core p
    s.swallows p = 0 → c.ctl.pagein = some g → c.ctl.pageinQ = none → g.next < 128 → g.page < 8 → g.cycle ≤ s.clock.now →
    c.pipe.synced = s.clock.now → c.pipe.claimCycle < s.clock.now → c.pipe.meshBuf = [] → c.pipe.streamBuf = [] →
    c.pipe.ramp = [] →
    ∃ t, Goes (.pageinComplete p) s t ∧ (t.core p).ctl.pagein = none ∧ (t.core p).ctl.pageValid.getLsbD g.page = true ∧
      t.clock.now = s.clock.now + (128 - g.next)))




/-- R75, R79, R209, R210: a scheduled flit lands in its cycle at the granule that it names, when the core takes it and no other
delivery waits there: its 64 bytes stand in the scratchpad, and every other byte reads as before; a half-die that is stretched
may take it a cycle or more later (R244). R98 to R100, R658: a check outside any bundle records ST_CORE_HW with slot 0 and stops the core. The report of a fault that a program
raised goes to the panel steward with the logical core and the code, and with no job on the core changes nothing else. -/
def Obligations.ScheduledFlitsLandAndHardwareChecksFault : Prop :=
  (∀ (s : State) (n : Nat) (f : Flit) (pos due : Nat) (dir : Dir), s.flit n = some f → f.pos = .land pos due dir →
    f.sched = true → f.kind ≤ 2 → f.bytes.length = 64 → f.delay ≤ s.clock.hdr.budget + s.clock.hdr.margin →
    let p := pcoreOfPos pos
    let c := s.core p
    let o := ((if f.kind = 2 then f.doff else f.arg) + f.idx) % 32768 * 64
    s.swallows p = 0 → s.coreShut p = false → s.mirrorOf p = none → c.bankWork = false → c.pipe.claimCycle < s.clock.now →
    c.pipe.meshAt ≤ s.clock.now → c.pipe.meshIn ≤ s.clock.now → Memory.wf s.srams.spad = true →
    ∃ t, Goes (.scheduledDelivery n) s t ∧ t.mesh.flits = tdel s.mesh.flits n ∧
      (∀ j < 64, Memory.read t.srams.spad (spKey p (o + j)) = byteAt f.bytes j) ∧
      (∀ x, (∀ j < 64, x ≠ spKey p (o + j)) → Memory.read t.srams.spad x = Memory.read s.srams.spad x) ∧
      (∀ q, q ≠ p → t.core q = s.core q)) ∧
  (∀ (s u : State) (p : PCore) (ok : Bool),
    (isGw (pSite p) = true → Goes (.coreHwCheck p) s s ∧ Goes (.coreFaultReport p ok) s s) ∧
    (isGw (pSite p) = false → u = s.sync p → (u.core p).fault.valid = false →
      ∃ k, Goes (.coreHwCheck p) s (u.setCore p k) ∧ k.stat.run = .faulted ∧ k.fault.code = 0x040 ∧ k.fault.slot = 0 ∧
        k.fault.tick = u.clock.tick ∧ k.regs = (u.core p).regs) ∧
    (isGw (pSite p) = false → (s.core p).fault.valid = true → (s.wdt (0x100 + pSite p)).restarting = false → s.moveAt p = none → s.onJob p = false →
      faultKind (s.core p).fault.code = .program → (s.core p).stat.valid = true →
      Goes (.coreFaultReport p ok) s ((s.setCore p { s.core p with
          fault := { (s.core p).fault with told := true } }).raise 0x0201 (nodeAt (pSite p) 0) (s.core p).stat.lcore
        [(2, (s.core p).stat.lcore), (2, (s.core p).fault.code)])))




/-- R90 to R93, R240: a barchan move goes through its phases: a passed self-check, bulk copy of the source's memories into the
resting core, and the handover in a quiet window that is long enough, of a tick in which the source core arrived in time while a job
runs; it waits where one of these fails. A failed self-check ends the move and pins the row at its resting column, in a commit. In a phase that
is not its own each of the three does nothing. R40, R41: a commit that reads back puts the next
generation in force in the other copy and raises EV_MAP_CHANGED, and a bound program takes the generation; after one that does not read back that
copy holds no record and the record in force stays.
The model's choices of log entries 101 and 140 stand in it. -/
def Obligations.RowMovesAndMapCommitsTakeEffect : Prop :=
  (∀ (s : State) (site : Site) (row : Row) (pass : Bool) (m : Move), tfind s.panel.moves (8 * site + row) = some m →
    (m.phase = .checking →
      (∃ x, Goes (.restingSelfcheckDone site row true) s { s with panel := { s.panel with moves := x } } ∧
        tfind x (8 * site + row) = some { m with phase := .checked }) ∧
      (∃ t, Goes (.restingSelfcheckDone site row false) s t ∧ tfind t.panel.moves (8 * site + row) = none ∧
        tfind t.panel.rowFault (8 * site + row) = some m.rest ∧ t.panel.mapGen = s.panel.mapGen + 1#32 ∧
        (t.core (pcoreAt site row m.src)).stat.mirror = false ∧ t.srams = s.srams)) ∧
    (m.phase = .copying → Memory.wf s.srams.spad = true →
      let src := pcoreAt site row m.src
      let dst := pcoreAt site row m.rest
      ∃ t, Goes (.bulkCopyDone site row) s t ∧ tfind t.panel.moves (8 * site + row) = some { m with phase := .copied } ∧
        t.srams.imem = copyKeys 2048 src dst s.srams.imem ∧
        (∀ o < spadSize, Memory.read t.srams.spad (spKey dst o) = Memory.read s.srams.spad (spKey src o)) ∧
        t.job = s.job ∧ t.clock = s.clock ∧ t.panel.rest = s.panel.rest) ∧
    (m.phase = .ready → 112 ≤ s.clock.hdr.quiet →
      let u := (s.advance (s.clock.start + s.clock.hdr.d + s.clock.ins)).syncAll
      ((u.job.running = false ∨ u.arrivedByD (pcoreAt site row m.src) = true) →
        ∃ x, Goes (.handover site row) s { u with panel := { u.panel with moves := x } } ∧
          tfind x (8 * site + row) = some { m with phase := .passing }) ∧
      (u.job.running = true → u.arrivedByD (pcoreAt site row m.src) = false → Goes (.handover site row) s u)) ∧
    (m.phase = .ready → s.clock.hdr.quiet < 112 → Goes (.handover site row) s s) ∧
    (m.phase ≠ .checking → Goes (.restingSelfcheckDone site row pass) s s) ∧
    (m.phase ≠ .copying → Goes (.bulkCopyDone site row) s s) ∧
    (m.phase ≠ .ready → Goes (.handover site row) s s)) ∧
  (∀ (s : State), Goes (.mapCommit false) s { s with panel := { s.panel with
      copyA := if s.panel.inForceB then none else s.panel.copyA, copyB := if s.panel.inForceB then s.panel.copyB else none } } ∧
    (∃ t r, Goes (.mapCommit true) s t ∧ t.panel.mapGen = s.panel.mapGen + 1#32 ∧ t.panel.inForceB = !s.panel.inForceB ∧
      (if s.panel.inForceB then t.panel.copyA else t.panel.copyB) = some r ∧ r.gen = s.panel.mapGen + 1#32 ∧
      r.ldSite = s.panel.ldSite ∧ r.role = s.panel.role ∧
      (if s.panel.inForceB then t.panel.copyB = s.panel.copyB else t.panel.copyA = s.panel.copyA) ∧
      t.evq.travelling.length = s.evq.travelling.length + 1 ∧ t.cores = s.cores ∧ t.srams = s.srams ∧
      (s.job.live = false → t.job = s.job ∧ t.clock = s.clock) ∧
      (s.job.live = true → s.job.phase ≠ .loading → t.job.hdr.mapGen = (s.panel.mapGen + 1#32).toNat ∧ t.job.phase = s.job.phase)))
/-! ### The tick -/

/-- R217, R221, R233, R234, R237: a tick boundary adds 1 to the tick counter; the new tick begins in the cycle that the old one's length and its
inserted cycles give, with no cycle inserted and nothing late, held, decided or reported; a tick that is open makes its check first, and none
ends while it is held open. R221, R231 to R234, R237, R238: at cycle D the panel decides once a tick: it lets the tick be when nothing runs; with every core arrived it
inserts only the urgent slice that is due; under STRETCH a late core opens the tick by STRETCH_LEN; a held core opens it by one unit. The
quiet window begins after the inserted cycles, and a partial that still waits then ends the job (R278). R230, R234, R236: a core still late at the end of the stretch, a core late
without STRETCH, and a core whose stalls exceed B + M while no core is held, in a tick not held open, end the job with their codes; a core that has
arrived by the stretch's end only reports the overrun, once a tick; a tick held open grows by one unit until no core is held and every core has arrived. -/
def Obligations.BoundariesAdvanceTheTickAndLateDecisionsInsert : Prop :=
  (∀ (s u : State), u = (if s.clock.lateOpen || s.clock.heldOpen then s.stretchCheck else s) →
    (u.clock.heldOpen = false → ∃ t, Goes .tickBoundary s t ∧ t.clock.tick = u.clock.tick + 1#64 ∧
      t.clock.start = u.clock.start + u.clock.hdr.len + u.clock.ins ∧ t.clock.now = max u.clock.now t.clock.start ∧
      t.clock.ins = 0 ∧ t.clock.quietIns = 0 ∧ t.clock.late = [] ∧ t.clock.lateOpen = false ∧ t.clock.heldOpen = false ∧
      t.clock.decided = false ∧ t.clock.overrunSent = false ∧ t.mesh.windows = []) ∧
    (u.clock.heldOpen = true → Goes .tickBoundary s u)) ∧
  ((∀ (s v u : State), v = (s.advance (s.clock.start + (s.clock.hdr.len - s.clock.hdr.quiet))).syncAll →
    u = { v with clock := { v.clock with decided := true } } →
    (s.clock.decided = true → Goes .lateDecision s s) ∧
    (s.clock.decided = false →
      (u.job.running = false → Goes .lateDecision s u) ∧
      (u.job.running = true → u.heldCores = [] → u.lateCores = [] →
        ∃ t, Goes .lateDecision s t ∧ t.clock.ins = u.clock.ins + u.sliceLen ∧ t.clock.quietIns = u.clock.quietIns + u.sliceLen ∧
          t.cores = u.cores ∧ t.job = u.job ∧ t.evq = u.evq) ∧
      (u.job.running = true → u.heldCores = [] → u.lateCores ≠ [] → u.clock.stretch = true →
        ∃ t, Goes .lateDecision s t ∧ t.clock.ins = u.clock.ins + u.clock.stretchLen + u.sliceLen ∧ t.clock.lateOpen = true ∧
          t.clock.late = u.lateCores ∧ t.cores = u.cores ∧ t.job = u.job) ∧
      (u.job.running = true → u.heldCores ≠ [] →
        ∃ t, Goes .lateDecision s t ∧
          t.clock.ins = u.clock.ins + (if u.clock.stretch then u.clock.stretchLen else 512) + u.sliceLen ∧
          t.clock.heldOpen = true ∧ t.clock.heldTick = true ∧ t.clock.heldJob = true ∧ t.cores = u.cores ∧ t.job = u.job))) ∧
  (∀ (s u : State), u = (s.advance (s.clock.start + (s.clock.hdr.len - s.clock.hdr.quiet) + s.clock.ins)).syncAll →
    (s.mesh.partials.filter (fun e => !e.2.sent) = [] → Goes .quietWindowStart s u) ∧
    (s.mesh.partials.filter (fun e => !e.2.sent) ≠ [] → s.job.live = true →
      ∃ t, Goes .quietWindowStart s t ∧ t.job.endCode = some 0x072 ∧ t.job.running = false)) ∧
  (∀ (s u : State), u = (s.advance (s.clock.start + (s.clock.hdr.len - s.clock.hdr.quiet) + (s.clock.ins - s.clock.quietIns))).syncAll →
    (u.clock.heldOpen = false → u.clock.lateOpen = true → u.lateCores ≠ [] → s.job.live = true →
      ∃ t, Goes .stretchCheck s t ∧ t.job.endCode = some 0x062 ∧ t.job.running = false) ∧
    (u.clock.heldOpen = false → u.clock.lateOpen = true → u.lateCores = [] → u.clock.overrunSent = false →
      ∃ t, Goes .stretchCheck s t ∧ t.clock.lateOpen = false ∧ t.clock.overrunSent = true ∧ t.job = u.job ∧
        t.evq.travelling.length = u.evq.travelling.length + 1) ∧
    (u.clock.heldOpen = true → u.heldCores = [] → u.lateCores = [] →
      Goes .stretchCheck s { u with clock := { u.clock with heldOpen := false } }) ∧
    (u.clock.heldOpen = true → (u.heldCores ≠ [] ∨ u.lateCores ≠ []) →
      Goes .stretchCheck s { u with clock := { u.clock with
        ins := u.clock.ins + if u.clock.stretch then u.clock.stretchLen else 512 } }) ∧
    (u.clock.heldOpen = false → u.clock.lateOpen = false → Goes .stretchCheck s u)) ∧
  (∀ (s : State), s.job.live = true →
    (∀ u, u = (s.advance (s.clock.start + (s.clock.hdr.len - s.clock.hdr.quiet))).syncAll → s.clock.decided = false → u.job.running = true →
      u.heldCores = [] → u.lateCores ≠ [] → u.clock.stretch = false →
      ∃ t, Goes .lateDecision s t ∧ t.job.endCode = some 0x062 ∧ t.job.running = false) ∧
    (∀ u (p : PCore), u = s.syncAll → u.job.running = true → u.heldCores = [] → u.clock.heldTick = false → (u.core p).inJob = true →
      u.clock.hdr.budget + u.clock.hdr.margin < u.stallNow p →
      ∃ t, Goes (.marginFault p) s t ∧ t.job.endCode = some 0x061 ∧ t.job.running = false)))
/-! ### The mesh -/

/-- R250 to R253, R259, R261, R263, R265, R267: a flit that no check drops, and before which its point takes no other for the slot, leaves its
position for its own landing when it is there, and otherwise takes the first cycle whose slot is open to it and empty over its ride, to
where it lands or turns, over a turnaround or not: the slot is used on every stretch, the clock reaches
that cycle, and the flit comes to where its channel leads, a scheduled one with the open slots that passed it taken
added to its DELAY; a message leaves the send buffer with its last flit (R211); a seif adds nothing to its 2 cycles while no half-die is stretched
(R241). A scheduled flit goes before an unscheduled one for the same slot (R261). A flit without a route, and one that comes to a position out of service, is dropped and counted lost
(R659, R262). R257, R262: errors of flits are counted in the registers of their site; a
payload error marks the flit's words poison, a header error drops the flit and ends the job; an unscheduled flit past
its seventh lap is dropped, a granule of a remote DMA reported to its account (R340). R253: a flit's header holds its
fields where the spec lays them, and none is lost. The model's choices of log entries 12 and 97 stand in it. -/
def Obligations.ArbitrationGivesSlotsAndErrorsAreCounted : Prop :=
  (∀ (s : State) (n : Nat) (f : Flit) (pos ready : Nat), s.flit n = some f → f.pos = .ramp pos ready → f.kind ≠ 1 →
    s.dropCheck (siteOfPos pos) f = none → s.rival n f = none →
    let v := s.mesh.version f.epoch
    let up (mx v : Nat) := if v < mx then v + 1 else v
    let lostAt (x : Nat) := f.kind ≠ 3 ∨ f.tag = none →
      ∃ t, Goes (.arbitration n) s t ∧ t.mesh.flits = tdel s.mesh.flits n ∧
        (t.meshDie (siteOfPos x)).lost = up 0x7F (s.meshDie (siteOfPos x)).lost
    (s.nodePos v f.dest pos = none → lostAt pos) ∧
    (∀ dst, s.nodePos v f.dest pos = some dst →
      (pos = dst → Goes (.arbitration n) s
        { s with mesh := { s.mesh with
          flits := tput s.mesh.flits n { f with pos := .land pos (max ready s.clock.now + 2) .local } } }) ∧
      (∀ d stop edge c lost, nextDir v pos dst = some d → s.ride v d (some dst) none (pos % 156) (pos / 156) = (stop, edge) →
        let rs := stretches d (pos % 156) (pos / 156) stop.pos edge
        s.findSlot v f rs 4096 (max ready s.clock.now) 0 = some (c, lost) →
        let dIn := if edge = none then d else dirBack d
        (∀ x, stop = .land x ∨ stop = .turn x →
          ∃ t f' w, Goes (.arbitration n) s t ∧ tfind t.mesh.flits n = some f' ∧
            ((∀ y east, s.halfSwallows y east = 0) → w = 0) ∧
            f'.pos = (if stop = .land x then .land x (c + rideTime rs + w + s.shiftAt x + 2) dIn
              else .ramp x (c + rideTime rs + w + 2 + s.shiftAt x)) ∧
            f'.bytes = f.bytes ∧ f'.dest = f.dest ∧ f'.poison = f.poison ∧
            f'.delay = (if f.sched then min 1023 (f.delay + lost) else f.delay) ∧ t.clock.now = max s.clock.now c ∧
            (edge = none → rideTime rs = distOn d (x % 156) (x / 156) - distOn d (pos % 156) (pos / 156) ∧
              t.mesh.slots = ⟨chanOf d (pos % 156) (pos / 156), (c : Int) - distOn d (pos % 156) (pos / 156),
                distOn d (pos % 156) (pos / 156), distOn d (x % 156) (x / 156), f.c0Kind⟩ :: s.mesh.slots) ∧
            (∀ r ∈ rs, ⟨r.chan, (c : Int) - distOn d (pos % 156) (pos / 156) + r.off, r.lo, r.hi, f.c0Kind⟩ ∈ t.mesh.slots) ∧
            t.srams = s.srams ∧ (f.fromBuf = false → t.cores = s.cores) ∧
            (∀ p, f.fromBuf = true → f.last = true → s.pcoreOf f.src = some p →
              t.core p = { s.core p with pipe := { (s.core p).pipe with sendBuf := (s.core p).pipe.sendBuf - 1 } })) ∧
        (∀ x, stop = .lost x → lostAt x)))) ∧
  (∀ (s : State) (n m : Nat) (f g : Flit) (x a b : Nat), (∀ e ∈ s.mesh.flits, s.flit e.1 = some e.2) → s.flit n = some f →
    f.pos = .ramp x a → f.sched = false → s.flit m = some g →
    g.pos = .ramp x b → g.sched = true → s.wants f ≠ none → s.wants g = s.wants f → s.rival n f ≠ none ∧ s.rival m g ≠ some n) ∧
  (∀ (s : State) (n : Nat) (f : Flit) (site : Site), s.flit n = some f →
    let d := s.meshDie site
    let up (mx v : Nat) := if v < mx then v + 1 else v
    (∃ t, Goes (.meshFlitError n site .corrected) s t ∧ (t.meshDie site).corr = up 0x7FFF d.corr ∧
      t.mesh.flits = s.mesh.flits ∧ t.cores = s.cores) ∧
    (∃ t f', Goes (.meshFlitError n site .payload) s t ∧ (t.meshDie site).uncorrPay = up 0xFF d.uncorrPay ∧
      tfind t.mesh.flits n = some f' ∧ f'.poison = 0xFF#8 ∧ f'.bytes = f.bytes ∧ t.cores = s.cores) ∧
    (s.job.live = false →
      ∃ t, Goes (.meshFlitError n site .header) s t ∧ (t.meshDie site).uncorrHdr = up 0xFF d.uncorrHdr ∧
        t.mesh.flits = tdel s.mesh.flits n) ∧
    (s.job.live = true →
      ∃ t, Goes (.meshFlitError n site .header) s t ∧ t.job.endCode = some 0x071 ∧ t.job.running = false) ∧
    (∀ x due dir, f.pos = .land x due dir → f.sched = false →
      (7 ≤ f.laps → (f.kind ≠ 3 ∨ f.tag = none) →
        ∃ t, Goes (.flitLapDrop n) s t ∧ t.mesh.flits = tdel s.mesh.flits n ∧
          (t.meshDie (siteOfPos x)).lost = up 0x7F (s.meshDie (siteOfPos x)).lost ∧ (f.fromBuf = false → t.cores = s.cores)) ∧
      (∀ k r, 7 ≤ f.laps → f.kind = 3 → f.tag = some k → k < 2 ^ 20 → s.rdma k = some r →
        ∃ t r', Goes (.flitLapDrop n) s t ∧ t.mesh.flits = tdel s.mesh.flits n ∧ tfind t.win.rdma k = some r' ∧
          r'.dropped = r.dropped + 1 ∧ r'.landed = r.landed) ∧
      (f.laps < 7 → Goes (.flitLapDrop n) s s))) ∧
  (∀ f : Flit, f.cls < 4 → f.kind < 16 → f.idx < 4 → f.dest < 2 ^ 14 → f.src < 2 ^ 14 → f.delay < 2 ^ 10 → f.arg < 2 ^ 15 → f.laps < 8 →
    let h := f.header.toNat
    f.ofHeader f.header = f ∧ h / 2 ^ 94 = f.cls ∧ h / 2 ^ 90 % 2 ^ 4 = f.kind ∧ h / 2 ^ 77 % 2 ^ 8 = f.poison.toNat ∧
      h / 2 ^ 63 % 2 ^ 14 = f.dest ∧ h / 2 ^ 49 % 2 ^ 14 = f.src ∧ h / 2 ^ 31 % 2 ^ 10 = f.delay ∧ h / 2 ^ 16 % 2 ^ 15 = f.arg ∧
      h / 2 ^ 13 % 2 ^ 3 = f.laps ∧ h % 2 ^ 13 = 0)




/-- R265 to R269: a route version goes into the inactive epoch while no die holds an old one and no flip is pending, its detours only where R266's
path is out of service; else it waits; its load is checked die by
die; a flip tick at least two ticks ahead is noticed to dies that have all checked it; in that tick every die stamps the
new epoch and routes the old one for 64 ticks more, and positions that waited for the flip return to service (R541, R585); after the 64 ticks the old
epoch's flits are dropped, each with its event. R270 to R272: the
window of a circuit in force opens in its START cycle, in the ticks of its run, while the job runs, and closes LEN
cycles later. The model's choices of log entries 92 and 96 stand in it. -/
def Obligations.RouteVersionsFlipAndCircuitWindowsOpen : Prop :=
  (∀ (s : State) (v : RouteVersion) (site : Site) (ok : Bool) (flip : BitVec 64),
    ((∀ x < 144, (s.meshDie x).hold = 0 ∧ (s.meshDie x).pending = false) →
      ∃ t w, Goes (.routeVersionLoad v) s t ∧
        t.mesh.versions = (if s.mesh.versions.1 then (true, w, s.mesh.versions.2.2) else (false, s.mesh.versions.2.1, w)) ∧
        w.ldSite = v.ldSite ∧ w.rest = v.rest ∧ w.masks = v.masks ∧ (∀ e ∈ w.detours, e ∈ v.detours) ∧
        ((∀ x < 144, s.routerUp x = true) → (∀ e ∈ v.detours, e.1 < 144 * 14976) → w.detours = []) ∧
        (s.job.live = false → w.circuits = v.circuits ∧ w.tags = v.tags) ∧ t.mesh.waiting = none ∧
        (∀ x < 144, (t.meshDie x).loaded = false ∧ (t.meshDie x).active = (s.meshDie x).active) ∧ t.cores = s.cores) ∧
    ((∃ x < 144, (s.meshDie x).hold ≠ 0 ∨ (s.meshDie x).pending = true) →
      Goes (.routeVersionLoad v) s { s with mesh := { s.mesh with waiting := some v } }) ∧
    (∃ t, Goes (.tableLoadCheck site ok) s t ∧ t.meshDie site = { s.meshDie site with loaded := ok } ∧
      (∀ x, x ≠ site.val → t.meshDie x = s.meshDie x) ∧ t.mesh.versions = s.mesh.versions ∧ t.cores = s.cores) ∧
    (s.clock.tick.toNat + 2 ≤ flip.toNat → (∀ x < 144, s.routerUp x = true → (s.meshDie x).loaded = true) →
      ∃ t, Goes (.flipNotice flip) s t ∧ t.mesh.versions = s.mesh.versions ∧ t.cores = s.cores ∧
        ∀ x < 144, (t.meshDie x).pending = true ∧ (t.meshDie x).flipTick = flip ∧
          (t.meshDie x).active = (s.meshDie x).active) ∧
    ((flip.toNat < s.clock.tick.toNat + 2 ∨ ∃ x < 144, s.routerUp x = true ∧ (s.meshDie x).loaded = false) →
      Goes (.flipNotice flip) s s) ∧
    ((∀ x < 144, (s.meshDie x).pending = true ∧ (s.meshDie x).flipTick = s.clock.tick) →
      ∃ t, Goes .epochFlip s t ∧ t.mesh.versions = (!s.mesh.versions.1, s.mesh.versions.2) ∧ t.srams = s.srams ∧
        (∀ x < 144, (t.meshDie x).active = !(s.meshDie x).active ∧ (t.meshDie x).hold = 64 ∧ (t.meshDie x).pending = false) ∧
        (∀ x ∈ s.clk.rejoin, t.routerUp x = true) ∧ (∀ x, x ∉ s.clk.rejoin → t.routerUp x = s.routerUp x) ∧ t.clk.rejoin = []) ∧
    ((∃ x < 144, (s.meshDie x).pending = false ∨ (s.meshDie x).flipTick ≠ s.clock.tick) → Goes .epochFlip s s) ∧
    ((∀ x < 144, (s.meshDie x).hold = 0) →
      ∃ t, Goes .oldEpochHoldEnd s t ∧
        t.mesh.flits = tfilter (fun _ f => f.epoch == s.mesh.versions.1) s.mesh.flits ∧ t.srams = s.srams ∧
        s.evq.travelling.length + (s.mesh.flits.filter fun e => e.2.epoch != s.mesh.versions.1).length ≤ t.evq.travelling.length) ∧
    ((∃ x < 144, (s.meshDie x).hold ≠ 0) → Goes .oldEpochHoldEnd s s)) ∧
  (∀ (s : State) (n : Nat) (c : Circuit), s.circuit n = some c →
    (s.job.running = true → s.job.firstTick + c.first ≤ s.clock.tick.toNat →
      (c.count = 0 ∨ s.clock.tick.toNat < s.job.firstTick + c.first + c.count) → s.clock.now - s.clock.start ≤ c.start →
      n ∉ s.mesh.windows →
      ∃ t, Goes (.circuitWindowOpen n) s t ∧ t.mesh.windows = n :: s.mesh.windows ∧
        t.clock.now = max s.clock.now (s.clock.start + c.start) ∧ t.cores = s.cores ∧ t.mesh.flits = s.mesh.flits) ∧
    (s.job.running = false → Goes (.circuitWindowOpen n) s s) ∧
    (n ∈ s.mesh.windows →
      ∃ t, Goes (.circuitWindowClose n) s t ∧ n ∉ t.mesh.windows ∧ (∀ m, m ≠ n → (m ∈ t.mesh.windows ↔ m ∈ s.mesh.windows)) ∧
        t.clock.now = max s.clock.now (s.clock.start + c.start + c.len) ∧ t.cores = s.cores ∧ t.mesh.flits = s.mesh.flits) ∧
    (n ∉ s.mesh.windows → Goes (.circuitWindowClose n) s s))




/-- R124, R275 to R278: a contribution that an entry waits for is kept, or added lane by lane to the sum that stands; the last one sends
the sum on in the cycle after, or lands it at the core that the entry names, in the class of the last one (log entry 237); a second one from the same side ends the job. It is the first of those that reach the entry in
its cycle in the order of R125. -/
def Obligations.ReductionEntriesAddTheirContributions : Prop :=
  ∀ (s : State) (n pos due : Nat) (f : Flit) (inp : Dir) (e : TagEntry), s.flit n = some f → f.pos = .entry pos due inp →
    tagEntryAt (s.mesh.version f.epoch) pos f.arg = some e →
    (∀ h ∈ s.mesh.flits, ∀ d, h.2.pos = .entry pos due d → h.2.arg = f.arg → h.2.idx = f.idx → dirNo inp ≤ dirNo d) →
    let key := 4 * (16384 * pos + f.arg) + f.idx
    let old := tget ⟨[], 0#8, [], 0, false⟩ s.mesh.partials key
    let sum := if old.got = [] then lanesOfBytes f.bytes else List.zipWith (fadd32 .rne) old.lanes (lanesOfBytes f.bytes)
    (inp ∉ old.got → allIn e (inp :: old.got) = false →
      ∃ t, Goes (.redFlitArrival n) s t ∧ t.mesh.flits = tdel s.mesh.flits n ∧ t.clock.now = max s.clock.now due ∧
        tfind t.mesh.partials key = some ⟨sum, old.poison ||| f.poison, inp :: old.got, max old.delay f.delay, false⟩ ∧
        t.cores = s.cores ∧ t.srams = s.srams) ∧
    (inp ∉ old.got → allIn e (inp :: old.got) = true → (∃ d, e.out = .send d) →
      ∃ t g, Goes (.redFlitArrival n) s t ∧ tfind t.mesh.flits s.mesh.nextFlit = some g ∧
        g.pos = .ramp pos (max s.clock.now due + 1) ∧ g.bytes = sum.flatMap (fun x => leBytes 4 x.toNat) ∧ g.kind = f.kind ∧ g.cls = f.cls ∧
        t.cores = s.cores) ∧
    (∀ dest doff, inp ∉ old.got → allIn e (inp :: old.got) = true → e.out = .land dest doff →
      ∃ t g, Goes (.redFlitArrival n) s t ∧ tfind t.mesh.flits s.mesh.nextFlit = some g ∧
        g.pos = .land pos (max s.clock.now due + 3) .local ∧ g.bytes = sum.flatMap (fun x => leBytes 4 x.toNat) ∧ g.kind = 0 ∧
        g.dest = dest ∧ g.arg = doff ∧ g.cls = f.cls ∧ g.poison = old.poison ||| f.poison ∧ t.cores = s.cores) ∧
    (inp ∈ old.got → s.job.live = true →
      ∃ t, Goes (.redFlitArrival n) s t ∧ t.job.endCode = some 0x072 ∧ t.job.running = false)
/-! ### Stacks -/

/-- R290, R296 to R298: a descriptor that arrives at its base die is refused for the first reason of R297's order, with the reason and
the core in the stack's register and a notice on its way, or claims its counts and becomes a stream. A notice puts its
context in ERROR, with its count unchanged; an IDLE one stays (R187, R298). -/
def Obligations.StreamDescriptorsAreRefusedOrClaim : Prop :=
  (∀ (s : State) (n x due : Nat) (dir : Dir) (f : Flit), s.flit n = some f → f.pos = .land x due dir → f.kind = 4 →
    f.arg < 8 → 0x3C00 ≤ f.dest →
    let u := (s.advance due).dropFlit n
    let st := (f.dest - 0x3C00) % 16
    let issue := u.issueOf f.bytes
    let r0 := parseStream f.bytes st f.src f.arg f.cls issue
    let r := { r0 with mine := if 262144 < r0.count then [] else
      (List.range r0.count).filter fun i => (stackAddr u.plos.placed (r0.gaddr i)).1 == st }
    (u.streamReason f.bytes r = 0 →
      ∃ x, Goes (.streamDescriptor n) s { u with plos := x } ∧ x.nextId = u.plos.nextId + 1 ∧ x.mem = u.plos.mem ∧
        (r.mine ≠ [] → tfind x.streams u.plos.nextId = some r) ∧
        (tget {} x.rec_ st).ifWin = countAt (u.stack st).ifWin r.wins ∧
        (tget {} x.rec_ st).refCount = (u.stack st).refCount) ∧
    (u.streamReason f.bytes r ≠ 0 →
      ∃ x e, Goes (.streamDescriptor n) s { u with plos := x, evq := e } ∧ x.streams = u.plos.streams ∧ x.mem = u.plos.mem ∧
        (tget {} x.rec_ st).refReason = u.streamReason f.bytes r ∧ (tget {} x.rec_ st).refCore = f.src ∧
        tfind x.notices u.plos.nextId = some ⟨f.src, f.arg, u.cycleOfSched (issue + 1536)⟩)) ∧
  (∀ (s : State) (n : Nat) (r : RefusalRec), tfind s.plos.notices n = some r →
    let u := s.syncCtx
    let c := u.getCtx (8 * r.lcore + r.ctx)
    ∃ y, Goes (.refusalNotice n) s { u with plos := { u.plos with notices := tdel u.plos.notices n }, ctx := y } ∧
      tget {} y (8 * r.lcore + r.ctx) = (if c.st = .idle then c else { c with st := .error }) ∧
      ∀ j, j ≠ 8 * r.lcore + r.ctx → tget {} y j = u.getCtx j)

/-- R75, R79, R292, R294, R299 to R301: the next granule of a read stream comes to the core in its contract cycle, or in a later window where a loss
has filled its own, later by what the routes in force add; nothing of an earlier rank in its way, it stands in the scratchpad from the next cycle on and counts
then. R292, R293: the next granule of a write stream is read out of the scratchpad in its cycle, without poison
when its words hold none, and travels to its base die, which accepts it up to 1,536 cycles after it was due, in the next window with room, and
otherwise discards it and puts its context in ERROR. The model's choice of log entry 13 stands in it. -/
def Obligations.StreamGranulesLandAndAreAccepted : Prop :=
  (∀ (s u : State) (n i p : Nat) (rest : List Nat) (r : StreamRec), s.stream n = some r → r.write = false →
    r.mine = i :: rest → rest ≠ [] →
    u = s.advance (s.cycleOfSched ((s.stack r.stack).deliverAt (r.k i + 1536) 8192) + s.layDelay r.stack r.lcore) →
    s.pcoreOf r.lcore = some p → s.swallows p = 0 → s.coreShut p = false → s.mirrorOf p = none → (s.core p).bankWork = false →
    (s.core p).pipe.claimCycle < s.clock.now → (s.core p).pipe.streamAt ≤ s.clock.now → Memory.wf s.srams.spad = true →
    let off := (stackAddr s.plos.placed (r.gaddr i)).2
    (s.plos.recent.filter fun x => x.key == s.stKey r.stack (off / 64 * 64)) = [] →
    tget 0 s.plos.flips (s.stKey r.stack (off / 64 * 64) / 64) = 0 →
    ∃ t d, Goes (.streamGranuleLand n) s t ∧ t.clock.now = u.clock.now ∧ t.stream n = some { r with mine := rest } ∧
      (t.core p).pipe.streamBuf = [d] ∧ d.off = r.spOff i ∧ d.ctx = some (8 * r.lcore + r.ctx) ∧ t.srams = s.srams ∧ t.plos.mem = s.plos.mem ∧
      let v := (t.advance (u.clock.now + 1)).sync p
      (∀ j < 64, Memory.read v.srams.spad (spKey p (r.spOff i + j)) =
        Memory.read s.plos.mem (s.stKey r.stack (off / 64 * 64) + j)) ∧
      (∀ x, (∀ j < 64, x ≠ spKey p (r.spOff i + j)) → Memory.read v.srams.spad x = Memory.read s.srams.spad x) ∧
      (u.clock.now + 1, 8 * r.lcore + r.ctx) ∈ v.ctxDue) ∧
  (∀ (s : State) (n : Nat) (r : StreamRec), s.stream n = some r → r.write = true →
    (∀ i rest p, r.mine = i :: rest → s.pcoreOf r.lcore = some p → (s.core p).bankWork = false →
      (s.core p).pipe.claimCycle < s.clock.now → (s.core p).stat.run ≠ .sweeping → s.clean p (r.spOff i) 64 →
      (∀ j < 64, s.wordPoison p ((r.spOff i + j) / 8) = false) →
      ∃ t g, Goes (.writeGranuleReadout n) s t ∧
        t.stream n = some { r with mine := rest, outs := r.outs ++ [g] } ∧ g.idx = i ∧ g.poison = 0#8 ∧
        g.bytes = Memory.readBytes s.srams.spad (spKey p (r.spOff i)) 64 ∧ t.srams = s.srams ∧
        t.clock.now = max s.clock.now (s.cycleOfSched (r.k i + 16))) ∧
    (∀ g rest, r.outs = g :: rest → g.bytes.length = 64 →
      let off := (stackAddr s.plos.placed (r.gaddr g.idx)).2
      (s.absSched ≤ r.k g.idx + 1536 → (s.stack r.stack).dead off = false → Memory.wf s.plos.mem = true →
        (s.stack r.stack).copy = none → off % 64 = 0 → s.job.spec.record = false →
        let c := (s.stack r.stack).deliverAt s.absSched 8192
        (tget 0 (s.stack r.stack).landed (s.absSched / 256) < (s.stack r.stack).limitAt (s.absSched / 256) → c = s.absSched) ∧
        ∃ t, Goes (.writeGranuleAccept n) s t ∧ t.clock.now = max s.clock.now (s.cycleOfSched c) ∧
          (∀ j < 64, Memory.read t.plos.mem (s.stKey r.stack off + j) = byteAt g.bytes j) ∧
          (∀ x, (∀ j < 64, x ≠ s.stKey r.stack off + j) → Memory.read t.plos.mem x = Memory.read s.plos.mem x) ∧
          (t.clock.now + 1, 8 * r.lcore + r.ctx) ∈ t.ctxDue ∧ t.cores = s.cores ∧ t.srams = s.srams) ∧
      (r.k g.idx + 1536 < s.absSched →
        ∃ t, Goes (.writeGranuleAccept n) s t ∧ t.plos.mem = s.plos.mem ∧
          (t.getCtx (8 * r.lcore + r.ctx)).st =
            (if (s.syncCtx.getCtx (8 * r.lcore + r.ctx)).st = .idle then .idle else .error) ∧
          (t.getCtx (8 * r.lcore + r.ctx)).count = (s.syncCtx.getCtx (8 * r.lcore + r.ctx)).count)))

/-- R26, R287, R299, R305, R318, R321: refresh is seen by nothing; a stack's attach positions are counted anew; a
region's copy into its spare ends and waits for the boundary, a region still to be swept swept first, and a spare that failed under it is retired and the next
free one starts again; a lost stack is LOST, raises its number and ends the job;
the memory mode is written only while the panel is READY, and moves no data. R306, R348, R349: a steward's access of a
class that memory traffic has, within one block of 4 KiB, is queued at its base die under the next number, and the next access of a base die is
served from its memory: a write of one granule puts its bytes there, and a read leaves it. The end of a sweep leaves the regions that it
covered reading as zero, and is reported. The model's choice of log entry 109 stands in it. -/
def Obligations.StackUpkeepAndUnscheduledAccessesAreServed : Prop :=
  (∀ (s : State) (n : Stack) (c : RegionCopy) (placed : Bool),
    Goes (.stackRefresh n) s s ∧
    (∃ t, Goes (.attachLoss n) s t ∧ (t.stack n).nAtt = s.attachNow n ∧ t.plos.mem = s.plos.mem ∧ t.cores = s.cores ∧
      t.job = s.job) ∧
    ((s.stack n).copy = some c → c.done = false →
      let src := (s.stack n).physRegion c.region
      (src ∉ (s.stack n).toSweep →
        ∃ t, Goes (.regionCopyDone n true) s t ∧ (t.stack n).copy = some { c with done := true } ∧
          t.plos.mem = putCells (Memory.clear s.plos.mem (regionKey n (384 + c.spare)) (regionKey n (384 + c.spare) + regionSize))
            (shiftCells s.plos.mem (regionKey n src) (regionKey n src + regionSize) (regionKey n (384 + c.spare))) ∧
          (s.plos.flips = [] → t.cores = s.cores ∧ t.job = s.job)) ∧
      (src ∈ (s.stack n).toSweep → Memory.wf s.plos.mem = true →
        ∃ t, Goes (.regionCopyDone n true) s t ∧ (t.stack n).copy = some { c with done := true } ∧ t.cores = s.cores ∧
          ∀ j < regionSize, Memory.read t.plos.mem (regionKey n src + j) = 0#8 ∧
            Memory.read t.plos.mem (regionKey n (384 + c.spare) + j) = 0#8) ∧
      (∀ i, { s.stack n with spares := tput (s.stack n).spares c.spare { used := false, retired := true, region := c.region } }.freeSpare = some i →
        ∃ t, Goes (.regionCopyDone n false) s t ∧ (t.stack n).copy = some ⟨i, c.region, false⟩ ∧ t.plos.mem = s.plos.mem ∧ t.cores = s.cores)) ∧
    ((s.stack n).mode ≠ .lost → s.cons.mode ≠ .member → s.job.live = true →
      ∃ t, Goes (.stackLost n) s t ∧ (t.stack n).mode = .lost ∧ t.job.endCode = some 0x081 ∧
        t.incOf (nodeOfStack n) = (s.incOf (nodeOfStack n) + 1) % 256) ∧
    (s.panel.mode = .ready → Goes (.plsModeWrite placed) s { s with plos := { s.plos with placed := placed } }) ∧
    (s.panel.mode ≠ .ready → Goes (.plsModeWrite placed) s s)) ∧
  (∀ (s : State) (n : Stack) (cls : Fin 4) (addr len : Nat) (bytes : List (BitVec 8)) (data : Option (List (BitVec 8))),
    (cls.val ≠ 0 → 0 < len → addr % 4096 + len ≤ 4096 → addr + len ≤ stackRange →
      ∃ x a, Goes (.unscheduledStackAccess cls addr len data) s { s with plos := x } ∧ x.mem = s.plos.mem ∧
        tfind x.accesses (s.plos.nextId + 1) = some a ∧ a.stack = (stackAddr s.plos.placed addr).1 % 16 ∧
        a.off = (stackAddr s.plos.placed addr).2 ∧ a.len = len ∧ a.cls = cls.val ∧
        a.data.map (·.1) = data.map fun d => (d ++ List.replicate len 0#8).take len) ∧
    (cls.val = 0 ∨ stackRange < addr + len → Goes (.unscheduledStackAccess cls addr len data) s s) ∧
    (∀ id a g, s.nextAccess n = some (id, a) → tfind s.plos.gathers a.gather = some g → g.asker = .steward → g.left = 1 →
      a.data = some (bytes, []) → bytes.length = 64 → a.off % 64 = 0 → (s.stack n).mode ≠ .lost → (s.stack n).toSweep = [] →
      (s.stack n).dead a.off = false → (s.stack n).copy = none → s.job.spec.record = false → Memory.wf s.plos.mem = true →
      ∃ t, Goes (.unscheduledAccessServe n) s t ∧ t.plos.accesses = tdel s.plos.accesses id ∧
        (∀ j < 64, Memory.read t.plos.mem (s.stKey n a.off + j) = byteAt bytes j) ∧
        (∀ x, (∀ j < 64, x ≠ s.stKey n a.off + j) → Memory.read t.plos.mem x = Memory.read s.plos.mem x) ∧
        t.cores = s.cores ∧ t.srams = s.srams) ∧
    (∀ id a g, s.nextAccess n = some (id, a) → tfind s.plos.gathers a.gather = some g → g.asker = .steward → g.left = 1 →
      a.data = none → (s.stack n).mode ≠ .lost → (s.stack n).toSweep = [] → s.plos.flips = [] →
      ∃ t, Goes (.unscheduledAccessServe n) s t ∧ t.plos.accesses = tdel s.plos.accesses id ∧ t.plos.mem = s.plos.mem ∧
        t.cores = s.cores ∧ t.srams = s.srams ∧ t.job = s.job) ∧
    (s.nextAccess n = none → Goes (.unscheduledAccessServe n) s s) ∧
    ((s.stack n).sweeping = true → s.job.phase ≠ .waitSweep →
      ∃ t, Goes (.stackSweepDone n) s t ∧ (t.stack n).sweeping = false ∧
        (∀ r ∈ (s.stack n).toSweep, ∀ j < regionSize, Memory.wf s.plos.mem = true →
          Memory.read t.plos.mem (regionKey n r + j) = 0#8) ∧
        t.evq.travelling.length = s.evq.travelling.length + 1 ∧ t.job = s.job))



/-! ### Stack attention engines, wadis, remote DMA, sweeps and check-value units -/

/-- R297, R307, R310 to R315: an SAE command is refused with the first reason that applies, or admitted; at START its
engine reads and computes every item, and every item is a fault of kind 1 when the work exceeds RBOUND; each result
granule comes to its core in the cycle of its place in the order of R312, or in a later window where a loss has filled its own, later by what the routes in
force add, and nothing of an earlier rank in its way stands in the scratchpad from the next cycle on (R75, R79, R299, R300); the notice makes an ACTIVE
context DONE with count ITEMS.
The model's choices of log entries 11, 103 and 105 stand in it. -/
def Obligations.SaeCommandsAreRefusedOrRunToTheirNotice : Prop :=
  (∀ (s : State) (n x due : Nat) (dir : Dir) (f : Flit), s.flit n = some f → f.pos = .land x due dir → f.kind = 4 →
    f.arg = 8 → 0x3C00 ≤ f.dest →
    let u := (s.advance due).dropFlit n
    let st := (f.dest - 0x3C00) % 16
    let issue := u.issueOf f.bytes
    let start := issue + 1536 + leField f.bytes 0x18 4
    let result := issue + leField f.bytes 0x1C 4
    let why := u.saeReason st f.bytes issue start result
    (why = 0 → ∃ x r, Goes (.saeCommand n) s { u with plos := x } ∧ x.mem = u.plos.mem ∧
      tfind x.saes u.plos.nextId = some r ∧ r.stack = st ∧ r.lcore = f.src ∧ r.cmd = f.bytes ∧ r.start = start ∧
      r.resultAt = result ∧ r.ran = false ∧ r.next = 0 ∧ (tget {} x.rec_ st).refCount = (u.stack st).refCount) ∧
    (why ≠ 0 → ∃ x e, Goes (.saeCommand n) s { u with plos := x, evq := e } ∧ x.saes = u.plos.saes ∧ x.mem = u.plos.mem ∧
      (tget {} x.rec_ st).refReason = why ∧ (tget {} x.rec_ st).refCore = f.src ∧
      tfind x.notices u.plos.nextId = some ⟨f.src, leField f.bytes 1 1 % 8, u.cycleOfSched (issue + 1536)⟩)) ∧
  (∀ (s : State) (n : Nat) (r : SaeRec), s.sae n = some r →
    (r.ran = false → s.plos.flips = [] →
      let u := s.advance (s.cycleOfSched r.start)
      let items := List.range (saeItems r.cmd)
      ∃ t k, Goes (.saeStart n) s t ∧ t.clock = u.clock ∧ t.cores = s.cores ∧ t.plos.mem = s.plos.mem ∧ t.job = s.job ∧
        t.sae n = some k ∧ k.ran = true ∧ k.cmd = r.cmd ∧ k.resultAt = r.resultAt ∧ k.next = r.next ∧
        (saeRbound r.cmd < u.saeWork r.stack r.cmd → k.faults = items.map fun i => (i, 1)) ∧
        (u.saeWork r.stack r.cmd ≤ saeRbound r.cmd →
          (∀ i < saeItems r.cmd, u.saeKind r.stack r.cmd false i = 0) →
          k.faults = [] ∧
          k.out = items.flatMap fun i => u.saeItemOut r.stack r.cmd (u.saeItem r.stack r.cmd i))) ∧
    (∀ cyc i g p, r.ran = true → (saeOrder r.cmd)[r.next]? = some (cyc, i, g) →
      s.pcoreOf (r.dests.getD i (12288, 0)).1 = some p → s.swallows p = 0 → s.coreShut p = false → s.mirrorOf p = none →
      (s.core p).bankWork = false → (s.core p).pipe.claimCycle < s.clock.now → (s.core p).pipe.streamAt ≤ s.clock.now →
      Memory.wf s.srams.spad = true →
      let bs := r.out.getD (saeRg r.cmd * i + g) (List.replicate 64 0#8)
      let o := ((r.dests.getD i (12288, 0)).2 + g) % 32768 * 64
      bs.length = 64 →
      ∃ t d, Goes (.saeResult n) s t ∧
        t.clock.now = max s.clock.now (s.cycleOfSched ((s.stack r.stack).deliverAt (r.resultAt + cyc) 8192) +
          s.layDelay r.stack (r.dests.getD i (12288, 0)).1) ∧
        t.sae n = some { r with next := r.next + 1 } ∧ (t.core p).pipe.streamBuf = [d] ∧ d.off = o ∧ d.ctx = none ∧
        d.poison = (if r.faults.any fun e => e.1 == i then 0xFF#8 else 0#8) ∧ t.srams = s.srams ∧ t.plos.mem = s.plos.mem ∧
        let v := (t.advance (t.clock.now + 1)).sync p
        (∀ j < 64, Memory.read v.srams.spad (spKey p (o + j)) = byteAt bs j) ∧
        (∀ x, (∀ j < 64, x ≠ spKey p (o + j)) → Memory.read v.srams.spad x = Memory.read s.srams.spad x)) ∧
    (let k := ctxKey r.lcore (leField r.cmd 1 1 % 8)
     let groups := (saeItems r.cmd + saeRpar r.cmd - 1) / max 1 (saeRpar r.cmd)
     let u := (s.advance (s.cycleOfSched (r.resultAt + saeRg r.cmd * groups))).syncCtx
     ∃ t, Goes (.saeDone n) s t ∧ t.plos.saes = tdel s.plos.saes n ∧ t.cores = s.cores ∧ t.srams = s.srams ∧
       t.getCtx k = (if (u.getCtx k).st = .active then { u.getCtx k with st := .done, count := saeItems r.cmd }
         else u.getCtx k) ∧
       (∀ j, j ≠ k → t.getCtx j = u.getCtx j) ∧
       (t.stack r.stack).saeDone = (if (s.stack r.stack).saeDone < 0x7FFF then (s.stack r.stack).saeDone + 1
         else (s.stack r.stack).saeDone)))

/-- R329 to R334, R340, R344: an admitted wadi flit joins the buffer of its core, and another is dropped,
counted and recorded with the first reason of R333; a core under sweep discards it. The oldest buffered write lands whole while a wadi admits it, and
else is dropped as CLOSED; at a boundary the wadis whose EXPIRY is come close; the report or the deadline of a remote
DMA frees its slot and writes its completion record, in a cycle in which no earlier rank claims its bank. The model's choice of log entry 89 stands
in it. -/
def Obligations.WadiFlitsLandOrDropAndRemoteDmasReport : Prop :=
  (∀ (s : State) (n pos due : Nat) (dir : Dir) (f : Flit), s.flit n = some f → f.pos = .land pos due dir → f.kind = 3 →
    f.dest < 0x3000 → (∀ t, f.tag = some t → t < 2 ^ 20) →
    let p := pcoreOfPos pos
    let u := s.advance due
    let gran := (f.arg + f.idx) % 32768
    let why := u.wadiReason p f.dest f.src gran f.cls
    (u.coreShut p = true →
      ∃ t, Goes (.wadiFlitArrival n) s t ∧ t.mesh.flits = tdel s.mesh.flits n ∧ t.srams = s.srams ∧ t.cores = s.cores ∧
        t.win.drop = s.win.drop) ∧
    (u.coreShut p = false → f.laps < 7 → why = 0 → (s.core p).pipe.wbuf.length < 32 →
      Goes (.wadiFlitArrival n) s ((u.dropFlit n).modPipe p fun k =>
        { k with wbuf := k.wbuf ++ [⟨64 * gran, f.bytes, f.poison, f.cls, f.src, f.tag⟩] })) ∧
    (u.coreShut p = false → f.laps < 7 → why = 0 → 32 ≤ (s.core p).pipe.wbuf.length → dir ≠ .local →
      (∀ y ∈ ringAfter dir pos, s.routerUp (siteOfPos y) = true) →
      ∃ t, Goes (.wadiFlitArrival n) s t ∧ t.cores = s.cores ∧ t.srams = s.srams ∧
        t.flit n = some { f with laps := f.laps + 1, pos := .land pos (due + ringLen dir) dir }) ∧
    (u.coreShut p = false → f.laps < 7 → why ≠ 0 →
      ∃ t, Goes (.wadiFlitArrival n) s t ∧ t.mesh.flits = tdel s.mesh.flits n ∧ (t.wadiDrop f.dest).reason = why ∧
        (t.wadiDrop f.dest).src = f.src ∧ (t.wadiDrop f.dest).granule = gran ∧
        (t.wadiDrop f.dest).count =
          (if (s.wadiDrop f.dest).count < 2 ^ 31 - 1 then (s.wadiDrop f.dest).count + 1 else (s.wadiDrop f.dest).count) ∧
        t.srams = s.srams ∧ t.cores = s.cores)) ∧
  (∀ (s u : State) (p : PCore) (w : UWrite) (rest : List UWrite), u = s.sync p → (u.core p).pipe.wbuf = w :: rest →
    (s.core p).pipe.wbuf = w :: rest → (∀ t, w.tag = some t → t < 2 ^ 20) → w.bytes.length = 64 → w.off % 64 = 0 →
    (u.busyBanks p).contains (bankOf w.off) = false → u.mirrorOf p = none →
    Memory.wf u.srams.spad = true →
    let why := u.wadiReason p (u.core p).stat.lcore w.src (w.off / 64) w.cls
    (why = 0 →
      ∃ t, Goes (.wadiFlitLand p) s t ∧ (t.core p).pipe.wbuf = rest ∧
        (∀ j < 64, Memory.read t.srams.spad (spKey p (w.off + j)) = byteAt w.bytes j) ∧
        (∀ x, (∀ j < 64, x ≠ spKey p (w.off + j)) → Memory.read t.srams.spad x = Memory.read u.srams.spad x)) ∧
    (why ≠ 0 →
      ∃ t, Goes (.wadiFlitLand p) s t ∧ (t.core p).pipe.wbuf = rest ∧ t.srams = u.srams ∧
        (t.wadiDrop (u.core p).stat.lcore).reason = 4)) ∧
  (∀ s : State, ∃ x y, Goes .wadiExpiry s { s with win := { s.win with wadi := x, wadiWas := y } } ∧
    ∀ e, e ∈ x ↔ e ∈ s.win.wadi ∧ (e.2.expiry = 0 ∨ s.clock.tick.toNat < e.2.expiry)) ∧
  (∀ (s : State) (l : LCore) (i : Fin 4) (r : RdmaRec) (p : Nat), s.rdma (4 * l + i) = some r → s.pcoreOf l = some p →
    r.doneOff < spadSize → r.doneOff % 8 = 0 → s.swallows p = 0 → s.mirrorOf p = none → (s.core p).bankWork = false → (s.core p).pipe.held = none →
    (s.core p).pipe.claimCycle < s.clock.now → (s.core p).pipe.lowCycle < s.clock.now → Memory.wf s.srams.spad = true →
    let ends (c : Instr) (code : Nat) :=
      ∃ t, Goes c s t ∧ t.win.rdma = tdel s.win.rdma (4 * l + i) ∧ (∀ q, q ≠ p → t.core q = s.core q) ∧ (t.core p).pipe.lowBuf = [] ∧
        (∀ j < 8, Memory.read t.srams.spad (spKey p (r.doneOff + j)) =
          byteAt (leBytes 2 (min 65535 r.landed) ++ leBytes 2 (16 * code) ++ leBytes 4 r.seq) j) ∧
        (∀ x, (∀ j < 8, x ≠ spKey p (r.doneOff + j)) → Memory.read t.srams.spad x = Memory.read s.srams.spad x)
    (r.reported = true → ends (.rdmaReport l i)
      (if r.cvuBusy then 0x098 else if 0 < r.dropped then 0x090 else if r.mismatch then 0x099 else if r.poison then 0x093
       else 0)) ∧
    (r.reported = false → ends (.rdmaTimeout l i) 0x094))

/-- R343, R345, R346, R352, R353, R355: a swept core holds zeros and the reset state of its registers, and keeps no more than the tick's refused ROUTE
actions (R214); when no core of a site is left the sweep is DONE, or FAILED when a core failed it, and a trigger of the die's own raises its event; a core
that runs past its time has failed. A check-value unit takes a stream, queues it or refuses it, and posts the result of a stream that ends in the next entry
of its ring, ABANDONED with what it covers for one that was cut off. The model's choice of log entry 115 stands in it. -/
def Obligations.SweepsClearCoresAndCheckValueUnitsPostResults : Prop :=
  let quiet (s : State) (site : Nat) : Prop :=
    ((s.dieSweep site).cause = .back →
      if s.panel.returning.contains (ergOf site) then ∃ x ∈ ergSites (ergOf site), x ≠ site ∧ (s.dieSweep x).left ≠ []
      else s.panel.away = []) ∧
    (s.job.phase = .sweep → ∃ e ∈ s.win.sweep, e.1 ≠ site ∧ e.2.panel = true ∧ e.2.left ≠ [])
  (∀ (s : State) (site : Site) (k : Fin 104), k.val ∈ (s.dieSweep site).left →
    let p := 104 * site.val + k.val
    ((∃ i ∈ (s.dieSweep site).left, i ≠ k.val) → (s.core p).stat.valid = true →
      ∃ t, Goes (.sweepComplete site (some k)) s t ∧ (t.core p).stat.run = .idle ∧ (t.core p).regs = {} ∧
        (t.core p).ctl = {} ∧ (t.core p).pipe = (s.core p).pipe.refusals ∧ (t.dieSweep site).left = (s.dieSweep site).left.filter (· ≠ k.val) ∧
        (∀ x, Memory.read t.srams.spad x = if x / spadSize = p then 0#8 else Memory.read s.srams.spad x) ∧
        (∀ x, tget 0#256 t.srams.imem x = if x / 2048 = p then 0#256 else tget 0#256 s.srams.imem x) ∧
        (∀ q, q ≠ p → t.core q = s.core q)) ∧
    (quiet s site →
      ∃ t, Goes (.sweepComplete site none) s t ∧ (t.dieSweep site).left = [] ∧
        (t.dieSweep site).st = (if (s.dieSweep site).failed = [] then 2 else 3) ∧
        t.evq.travelling.length = s.evq.travelling.length + if (s.dieSweep site).own then 1 else 0)) ∧
  (∀ (s : State) (p : PCore), pIdx p ∈ (s.dieSweep (pSite p)).left → quiet s (pSite p) → (s.core p).fault.valid = false →
    ∃ t, Goes (.sweepTimeout p) s t ∧ (t.core p).fault.valid = true ∧ (t.core p).fault.code = 0x040 ∧
      (t.core p).stat.run = .sweeping ∧ pIdx p ∈ (t.dieSweep (pSite p)).failed ∧ pIdx p ∉ (t.dieSweep (pSite p)).left ∧
      (t.dieSweep (pSite p)).st = 3 ∧ t.srams = s.srams ∧ ∀ q, q ≠ p.val → t.core q = s.core q) ∧
  (∀ (s : State) (unit : Cvu) (node rseq : Nat) (mode : Fin 4) (alg : Bool) (expect : Option Nat), mode.val ≠ 0 →
    let q : CvuReq := { node := node % 16384, rseq := rseq, mode := mode, alg := alg, expect := expect }
    let c := s.cvu unit
    let asks := (Instr.cvuRequest unit node rseq mode alg expect)
    (c.busy = none → Goes asks s (s.modCvu unit fun c => { c with busy := some q })) ∧
    (c.busy ≠ none → c.queue.length < 8 → Goes asks s (s.modCvu unit fun c => { c with queue := c.queue ++ [q] })) ∧
    (c.busy ≠ none → 8 ≤ c.queue.length →
      ∃ t, Goes asks s t ∧ (t.cvu unit).refused = (if c.refused < 0xFFFF then c.refused + 1 else c.refused) ∧
        (t.cvu unit).busy = c.busy ∧ (t.cvu unit).queue = c.queue)) ∧
  (∀ (s : State) (unit : Cvu) (bs : List (BitVec 8)) (q : CvuReq) (cut : Bool), (s.cvu unit).busy = some q →
    (s.cvu unit).queue = [] → s.copyOn unit = none → s.sendOn unit = none → s.trailerOn unit = none →
    s.snapOn unit = false → s.bcastOn unit = none → ¬(unit.val = 0 ∧ s.zfp.committing = true ∧ q = commitReq) →
    let v := checkValue q.alg bs
    let status := if cut || (s.cvu unit).cut then 3 else if q.mode = 3 ∧ q.expect ≠ some v then 2 else 1
    ∃ t, Goes (.cvuStreamEnd unit bs cut) s t ∧ (t.cvu unit).busy = none ∧
      (t.cvu unit).head = ((s.cvu unit).head + 1) % 16 ∧ (t.cvu unit).lastSeq = ((s.cvu unit).lastSeq + 1) % 65536 ∧
      tfind (t.cvu unit).ring (s.cvu unit).head = some ⟨q.node, q.rseq % 65536, status, q.mode, q.alg,
        ((s.cvu unit).lastSeq + 1) % 65536, bs.length, v⟩ ∧
      ∀ j, j ≠ unit.val → t.cvu j = s.cvu j)
/-! ### Zilusk ports, their packets and the fabric's routing -/

/-- R357 to R359, R364, R391, R437, R572, R574, R575: what brings a port or link into training, up at full or half
width, to FAILED, DOWN or DISABLED. A link that leaves UP restarts its sequence numbers, and the frames not acknowledged
wait ahead of its queue. The frame sent 8 times again takes a port DOWN into a live retrain, its queues dropped and
counted. The model's choices of log entries 117 and 119 stand in it. -/
def Obligations.PortsTrainComeUpAndGoDown : Prop :=
  ∀ (s : State) (port : Port) (link : Fin 34) (medium : BitVec 2) (lanes : BitVec 8) (peer : BitVec 16),
    let a := s.port port
    let r := s.port link
    let waits (x : PortRec) := x.replay.map (fun f => f.tx) ++ x.txq
    let down (i : Instr) (n : Nat) (mode : LinkMode) (event : Option Nat) := ∃ t, Goes i s t ∧ (t.port n).mode = mode ∧
      (t.port n).txSeq = 0 ∧ (t.port n).rxSeq = 4095 ∧ (t.port n).replay = [] ∧ (t.port n).txq = waits (s.port n) ∧
      t.cores = s.cores ∧ t.mesh = s.mesh ∧
      ∀ c, event = some c → ∃ l e, t.evq.travelling = l ++ [e] ∧ e.code = c
    let m := if medium.toNat < 2 then medium.toNat else a.medium
    (down (.portEnable port false medium) port .down none) ∧
    ((a.mode = .down ∨ a.mode = .disabled) → s.routerUp (gwSite (port / 4)) = true →
      Goes (.portEnable port true medium) s (s.modPort port fun x =>
        { x with enable := true, medium := m, mode := .training, trains := 0, live := false })) ∧
    ((a.mode ≠ .down ∧ a.mode ≠ .disabled ∨ s.routerUp (gwSite (port / 4)) = false) →
      Goes (.portEnable port true medium) s (s.modPort port fun x => { x with enable := true, medium := m })) ∧
    (a.enable = true → a.mode ≠ .training → s.routerUp (gwSite (port / 4)) = true → down (.retrain port) port .training none) ∧
    ((a.enable = false ∨ a.mode = .training ∨ s.routerUp (gwSite (port / 4)) = false) → Goes (.retrain port) s s) ∧
    (down (.disable port) port .disabled none) ∧
    (a.up = true → down (.linkLoss port) port .down (some 0x0601)) ∧
    (r.mode = .training → r.live = false →
      let ends (pass : Bool) (mode : LinkMode) := ∃ t, Goes (.trainingComplete link pass lanes peer) s t ∧
        (t.port link).mode = mode ∧ (mode = .up ∨ mode = .upHalf → (t.port link).peerDev = peer.toNat) ∧
        t.cores = s.cores ∧ (pass = false → ∃ l e, t.evq.travelling = l ++ [e] ∧ e.code = 0x0C02)
      (lanes.toNat = allLanes link → ends true .up) ∧
      (lanes.toNat ≠ allLanes link → ends true (if halfGood link lanes.toNat then .upHalf else .failed)) ∧
      (r.trains = 0 → Goes (.trainingComplete link false lanes peer) s (s.modPort link fun x => { x with trains := 1 })) ∧
      (r.trains = 1 → ends false (if halfGood link lanes.toNat then .upHalf else .failed))) ∧
    (r.up = true → lanes.toNat ≠ allLanes link →
      down (.laneFailure link lanes) link (if halfGood link lanes.toNat then .training else .failed) none) ∧
    (r.up = true → (∃ f ∈ r.replay, 8 ≤ f.resends) →
      ∃ t, Goes (.portDown link) s t ∧ (t.port link).mode = .training ∧ (t.port link).live = true ∧
        (t.port link).replay = [] ∧ t.cores = s.cores ∧
        (link.val < 32 → (t.port link).txq = [] ∧ t.incOf (0x8000 + link) = (s.incOf (0x8000 + link) + 1) % 256 ∧
          (t.port link).downs = if r.downs < 0xFF then r.downs + 1 else r.downs))

/-- R360 to R363, R365, R368, R372: a header and units that fit R361 are read back from the frame that they make, with its FCS, and a packet from its
head unit and data. A whole DATA frame that follows the
last one and finds room is accepted, and its packet waits in its gateway with HOPS one less, its units in the receive buffer; a damaged or misplaced one
leaves a gap, whose first frame is answered with a NAK. ACK and NAK free the replay buffer up to their SEQ and return credits, and a NAK sends the frames that
follow again. The model's choice of log entry 244 stands in it. -/
def Obligations.LinkFramesAreAcceptedAcknowledgedAndReplayed : Prop :=
  (∀ (h : LinkHeader) (units : List (BitVec 8)), h.seq < 4096 → h.ack < 4096 → h.crclass < 4 → h.credits < 64 → h.cls < 4 →
    units.length = 64 * h.units → (if h.typ = 0 then 1 ≤ h.units ∧ h.units ≤ 5 else h.typ ≤ 2 ∧ h.units = 0) →
    readFrame (frameBytes h units) = some (h, units)) ∧
  (∀ (p : Packet) (n : Nat), p.cls < 4 → p.kind < 16 → p.chan < 16 → p.hops < 256 → p.srcDev < 2 ^ 16 → p.srcInc < 2 ^ 16 → p.gaddr < 2 ^ 64 →
    p.srcNode < 2 ^ 16 → p.circ < 2 ^ 16 → p.arg < 2 ^ 32 → p.inl.length = 32 → p.data.length = 64 * n → n ≤ 4 →
    (parsePacket (p.head ++ p.data)).1 = p ∧
      ((parsePacket (p.head ++ p.data)).2 = false ↔ packetFits p n = true ∧ (if p.circOn then p.circ < 1024 else p.circ = 0))) ∧
  (∀ (s : State) (link : Fin 34) (corr uncorr : Nat) (seq ack : BitVec 12) (crclass cls : BitVec 2) (credits : BitVec 6)
    (body frame bytes : List (BitVec 8)) (h : LinkHeader), (s.port link).up = true →
    let r := s.port link
    let p := parsePacket bytes
    let data (uncorr : Nat) := Instr.dataFrame link corr uncorr seq ack crclass credits cls body
    let wire := dataWire seq ack crclass credits cls body
    let fec (t : State) := (t.port link).corr = min (if link.val < 32 then 2 ^ 39 - 1 else 2 ^ 31 - 1) (r.corr + corr)
    let discards (i : Instr) := ∃ t, Goes i s t ∧ fec t ∧ (t.port link).gapNak = true ∧ (t.port link).rxSeq = r.rxSeq ∧
      (t.port link).replay = r.replay ∧ t.zfp.rx = s.zfp.rx ∧ t.cores = s.cores ∧
      (t.port link).lastCtl = if r.gapNak then r.lastCtl else some ⟨true, r.rxSeq, 0, 0⟩
    (readFrame wire = none ∨ 0 < uncorr → discards (data uncorr)) ∧
    (readFrame frame = none ∨ 0 < uncorr →
      Goes (.ackFrame link corr uncorr frame) s (s.countFec link corr uncorr) ∧
      Goes (.nakFrame link ⟨corr, uncorr, frame⟩) s (s.countFec link corr uncorr)) ∧
    (readFrame wire = some (h, bytes) →
      (h.seq ≠ (r.rxSeq + 1) % 4096 ∨ 256 < r.held h.cls + h.units → discards (data 0)) ∧
      (h.seq = (r.rxSeq + 1) % 4096 → r.held h.cls + h.units ≤ 256 → s.zfp.paced = [] →
        ∃ t, Goes (data 0) s t ∧ fec t ∧ (t.port link).gapNak = false ∧ (t.port link).rxSeq = h.seq ∧
          t.cores = s.cores ∧
          (link.val < 32 → s.zfp.devNum ≠ 0xFFFF → p.2 = false →
            tfind t.zfp.rx s.zfp.nextRx = some ⟨link, { p.1 with hops := p.1.hops - 1 }, s.clock.now⟩ ∧
            (t.port link).held h.cls = r.held h.cls + h.units ∧ (t.port link).lastCtl = some ⟨false, h.seq, 0, 0⟩) ∧
          (link.val < 32 → s.zfp.devNum = 0xFFFF → t.zfp.rx = s.zfp.rx ∧
            t.zfp.noRoute = if s.zfp.noRoute < 0x7FFF then s.zfp.noRoute + 1 else s.zfp.noRoute) ∧
          (link.val < 32 → s.zfp.devNum ≠ 0xFFFF → p.2 = true → t.zfp.rx = s.zfp.rx ∧
            t.zfp.refused = (if s.zfp.refused < 0xFFFF then s.zfp.refused + 1 else s.zfp.refused) ∧
            ∀ c, (t.port link).held c = r.held c) ∧
          (32 ≤ link.val → t.zfp.rx = s.zfp.rx))) ∧
    (readFrame frame = some (h, bytes) →
      (∀ old f new, r.replay = old ++ f :: new → f.seq = h.ack → (∀ g ∈ old ++ new, g.seq ≠ h.ack) → r.txq = [] → s.zfp.paced = [] →
        (h.typ = 1 →
          ∃ t, Goes (.ackFrame link corr 0 frame) s t ∧ fec t ∧ (t.port link).replay = new ∧
            (t.port link).credit h.crclass = min 256 (r.credit h.crclass + h.credits) ∧ (t.port link).mode = r.mode ∧
            t.cores = s.cores ∧ t.zfp.rx = s.zfp.rx) ∧
        (h.typ = 2 →
          ∃ t, Goes (.nakFrame link ⟨corr, 0, frame⟩) s t ∧ fec t ∧
            (t.port link).replay = new.map (fun g => { g with resends := g.resends + 1 }) ∧ (t.port link).mode = r.mode ∧
            (t.port link).credit h.crclass = min 256 (r.credit h.crclass + h.credits) ∧
            (t.port link).replays = (if r.replays < (if link.val < 32 then 0x7FFF else 0xFFFF) then r.replays + 1 else r.replays) ∧
            t.cores = s.cores ∧ t.zfp.rx = s.zfp.rx)) ∧
      (h.typ ≠ 1 → Goes (.ackFrame link corr 0 frame) s (s.countFec link corr 0)) ∧
      (h.typ ≠ 2 → Goes (.nakFrame link ⟨corr, 0, frame⟩) s (s.countFec link corr 0))))

/-- R365, R369, R371, R372, R375, R382, R388, R389, R398: an arrived packet for another device leaves by its route, at its own
gateway or over the mesh as flits, of which the first is its head unit; one with no route, no hop left, or too old is dropped and counted, and so is one that
comes on a pair port. At its egress a packet waits for its last flit, leaves in the order of its transit number, and a missing number is passed over. What
holds a packet longer than its class allows drops it, wherever it stands. The model's choice of log entry 107 stands in it. -/
def Obligations.TransitPacketsLeaveByTheirRouteInOrder : Prop :=
  (∀ (s : State) (n : Nat) (x : RxPacket), tfind s.zfp.rx n = some x → x.port < 32 → s.zfp.devNum ≠ 0xFFFF →
    x.pkt.gaddr / 2 ^ 48 ≠ s.zfp.devNum → x.pkt.gaddr / 2 ^ 48 ≠ 65535 →
    let u := s.dropRx n
    let up (mx v : Nat) := if v < mx then v + 1 else v
    (s.zfp.isPair x.port = true →
      ∃ t, Goes (.transitPacket n) s t ∧ t.zfp.refused = up 0xFFFF s.zfp.refused ∧ t.zfp.rx = tdel s.zfp.rx n ∧
        t.zfp.ports = u.zfp.ports ∧ t.mesh = s.mesh) ∧
    (s.zfp.isPair x.port = false → u.isStale x.pkt = false →
      (x.pkt.hops = 0 →
        ∃ t, Goes (.transitPacket n) s t ∧ t.zfp.aged = up 0xFF s.zfp.aged ∧ t.zfp.rx = tdel s.zfp.rx n ∧
          t.zfp.ports = u.zfp.ports ∧ t.mesh = s.mesh) ∧
      (x.pkt.hops ≠ 0 → u.routeOf x.pkt x.port = none →
        ∃ t, Goes (.transitPacket n) s t ∧ t.zfp.noRoute = up 0x7FFF s.zfp.noRoute ∧ t.zfp.rx = tdel s.zfp.rx n ∧
          t.zfp.ports = u.zfp.ports ∧ t.mesh = s.mesh) ∧
      (∀ q c, x.pkt.hops ≠ 0 → u.routeOf x.pkt x.port = some (q, c) →
        (q / 4 = x.port / 4 → Goes (.transitPacket n) s (u.emitAt q x.pkt c (some x.at_))) ∧
        (q / 4 ≠ x.port / 4 →
          let flits := 1 + x.pkt.data.length / 64
          ∃ t k, Goes (.transitPacket n) s t ∧ tfind t.zfp.transits s.zfp.nextTransit = some k ∧ k.port = q ∧ k.pkt = x.pkt ∧
            k.flits = List.range flits ∧ k.num = tget 0 s.zfp.txNum (8 * (x.port / 4) + q / 4) ∧ k.ready = none ∧
            t.mesh.nextFlit = s.mesh.nextFlit + flits ∧ (t.flit s.mesh.nextFlit).map (·.bytes) = some x.pkt.head ∧
            t.zfp.ports = u.zfp.ports ∧ t.zfp.rx = tdel s.zfp.rx n)))) ∧
  (∀ (s : State) (n : Nat) (x : RxPacket), tfind s.zfp.rx n = some x → x.port ≠ 40 →
    ∃ t, Goes (.packetAged (.rx n)) s t ∧ t.zfp.rx = tdel s.zfp.rx n ∧
      t.zfp.aged = (if s.zfp.aged < 0xFF then s.zfp.aged + 1 else s.zfp.aged) ∧
      t.clock.now = max s.clock.now (s.ageLimit x.pkt.cls x.at_ + 1) ∧ t.zfp.ports = (s.dropRx n).zfp.ports) ∧
  (∀ (s : State) (id : Nat) (k : Transit), tfind s.zfp.transits id = some k → k.aged = false →
    ∃ t, Goes (.packetAged (.transit id)) s t ∧ t.zfp.aged = (if s.zfp.aged < 0xFF then s.zfp.aged + 1 else s.zfp.aged) ∧
      t.clock.now = max s.clock.now (s.ageLimit k.pkt.cls k.at_ + 1) ∧ t.cores = s.cores ∧ t.mesh = s.mesh) ∧
  (∀ (s : State) (port : Port) (i : Nat) (e : TxPkt), (s.port port).txq[i]? = some e →
    (∀ c, e.at_ = some c → ∃ t, Goes (.packetAged (.tx port i)) s t ∧
      t.zfp.aged = (if s.zfp.aged < 0xFF then s.zfp.aged + 1 else s.zfp.aged) ∧ (t.port port).txq = (s.port port).txq.eraseIdx i ∧
      t.clock.now = max s.clock.now (s.ageLimit e.pkt.cls c + 1) ∧ t.cores = s.cores ∧ t.mesh = s.mesh) ∧
    (e.at_ = none → Goes (.packetAged (.tx port i)) s s)) ∧
  (∀ (s : State) (n x due id : Nat) (dir : Dir) (f : Flit) (k : Transit), s.flit n = some f → f.pos = .land x due dir →
    f.kind = 0xA → f.tag = some id → s.transitNum k.ingress k.egress (tget 0 s.zfp.rxNum (8 * k.ingress + k.egress)) = some (id, k) →
    tfind s.zfp.transits id = some k → k.num < 4096 → k.ready = none → k.aged = false →
    let i := f.arg % 8
    let pkt : Packet := { k.pkt with
      poison := k.pkt.poison ||| BitVec.ofNat 32 (if i = 0 then 0 else f.poison.toNat * 2 ^ (8 * (i - 1))) }
    ((∃ j ∈ k.flits, j ≠ i) →
      ∃ t, Goes (.transitReassembly n) s t ∧ t.mesh.flits = tdel s.mesh.flits n ∧ t.zfp.ports = s.zfp.ports ∧
        t.zfp.transits = tput s.zfp.transits id { k with flits := k.flits.filter (· ≠ i), pkt := pkt }) ∧
    ((∀ j ∈ k.flits, j = i) →
      (∀ e ∈ s.zfp.transits, e.2.ingress = k.ingress → e.2.egress = k.egress → e = (id, k)) →
      ∃ u : State, Goes (.transitReassembly n) s (u.emitAt k.port pkt k.circ (some k.at_)) ∧ u.mesh.flits = tdel s.mesh.flits n ∧
        u.zfp.ports = s.zfp.ports ∧ tget 0 u.zfp.rxNum (8 * k.ingress + k.egress) = (k.num + 1) % 4096)) ∧
  (∀ (s : State) (g h : Gateway) (id id2 c : Nat) (k k2 : Transit),
    s.transitNum g h (tget 0 s.zfp.rxNum (8 * g + h)) = some (id, k) → k.ready = none → (id2, k2) ∈ s.zfp.transits →
    k2.ingress = g.val → k2.egress = h.val → k2.num ≠ k.num → k2.ready = some c →
    ∃ t, Goes (.transitGapTimeout g h) s t ∧ t.zfp.aged = (if s.zfp.aged < 0xFF then s.zfp.aged + 1 else s.zfp.aged) ∧
      t.clock.now ≤ max s.clock.now (c + 4096) ∧ s.clock.now ≤ t.clock.now ∧
      ∀ e ∈ t.zfp.transits, ¬ (e.2.ingress = g.val ∧ e.2.egress = h.val ∧ e.2.num = k.num))

/-- R332, R392 to R395, R398, R602: an admitted packet for this device is delivered by its kind: a write as wadi flits from
its gateway, or for a partner's step as an access of the stacks, a contribution into the slot of its tag and the sum as wadi flits with the last, a report to its remote
DMA, a request answered by the panel steward with data or a code, a response to its node, a note as EV_ZFP_NOTE. The
model's choices of log entries 58 and 125 stand in it. -/
def Obligations.PacketsForThisDeviceAreDelivered : Prop :=
  ∀ (s : State) (n : Nat) (x : RxPacket), tfind s.zfp.rx n = some x → x.pkt.gaddr / 2 ^ 48 = s.zfp.devNum →
    (s.dropRx n).arrivalDrop x = none →
    let u := s.dropRx n
    let p := x.pkt
    let k := p.data.length / 64
    let a := p.gaddr % 2 ^ 48
    let off := a - 0x400000000000
    let granules (t : State) (src m cls : Nat) (bs : List (BitVec 8)) :=
      t.mesh.nextFlit = s.mesh.nextFlit + m ∧
      ∀ i < m, ∃ f, tfind t.mesh.flits (s.mesh.nextFlit + i) = some f ∧ f.kind = 3 ∧ f.cls = cls ∧ f.src = portsNode src ∧
        f.dest = off / spadSize ∧ f.arg = (off % spadSize / 64 + i) % 32768 ∧ f.bytes = (bs.drop (64 * i)).take 64
    (p.kind = 0 → u.passesWrite p = true → p.trailer = false →
      ∃ t, Goes (.writePacket n) s t ∧ t.zfp.rx = tdel s.zfp.rx n ∧ granules t (x.port / 4 % 8) k p.cls p.data) ∧
    let partner := s.zfp.isPair x.port && decide (p.srcDev = s.zfp.partner) && decide (a + p.data.length ≤ stackRange)
    (p.kind = 0 → (if a < stackRange then partner = false else u.passesWrite p = false) →
      ∃ t, Goes (.writePacket n) s t ∧ (p.rpt = false → t.zfp.rx = tdel s.zfp.rx n) ∧ t.mesh = s.mesh ∧ t.plos = s.plos ∧
        t.zfp.refused = if s.zfp.refused < 0xFFFF then s.zfp.refused + 1 else s.zfp.refused) ∧
    (p.kind = 0 → a < stackRange → partner = true → 0 < k →
      ∃ t g account, Goes (.writePacket n) s t ∧ tfind t.plos.gathers s.plos.nextId = some g ∧ g.asker = .shadow account p.arg k ∧
        t.plos.mem = s.plos.mem ∧ t.mesh = s.mesh) ∧
    (p.kind = 1 → 0x400000000000 ≤ a → a < 0x400600000000 → a % 64 = 0 → a % spadSize + p.data.length ≤ spadSize →
      let tag := p.arg % 4096
      let g := tag % 8
      let count := bitsOf p.arg 16 12 + 1
      let rest := s.zfp.red.filter fun e => !(e.1 == g && e.2.tag == tag)
      let slot := s.zfp.red.find? fun e => e.1 == g && e.2.tag == tag
      let event (t : State) := ∃ e, t.evq.travelling = s.evq.travelling ++ [e] ∧ e.code = 0x0604
      (slot = none → (s.zfp.red.filter fun e => e.1 == g).length < 256 →
        (count = 1 → ∃ t, Goes (.redPacket n) s t ∧ t.zfp.red = s.zfp.red ∧
          granules t g k p.cls ((packetLanes p).flatMap fun v => leBytes 4 v.toNat)) ∧
        (count ≠ 1 → ∃ t, Goes (.redPacket n) s t ∧ t.mesh = s.mesh ∧
          t.zfp.red = rest ++ [(g, ⟨tag, k, p.gaddr, count, 1, p.cls, packetLanes p, p.poison⟩)])) ∧
      (∀ r, slot = some (g, r) → r.len = k → r.gaddr = p.gaddr → r.count = count →
        let sum := List.zipWith (fadd32 .rne) r.lanes (packetLanes p)
        (r.got + 1 = count → ∃ t, Goes (.redPacket n) s t ∧ t.zfp.red = rest ∧
          granules t g k r.cls (sum.flatMap fun v => leBytes 4 v.toNat)) ∧
        (r.got + 1 ≠ count → ∃ t, Goes (.redPacket n) s t ∧ t.mesh = s.mesh ∧
          t.zfp.red = rest ++ [(g, { r with got := r.got + 1, lanes := sum, poison := r.poison ||| p.poison })])) ∧
      (∀ r, slot = some (g, r) → r.len ≠ k ∨ r.gaddr ≠ p.gaddr ∨ r.count ≠ count →
        ∃ t, Goes (.redPacket n) s t ∧ t.zfp.red = rest ∧ event t)) ∧
    (p.kind = 2 → ∀ i r, i < 4 →
      let d := p.inl
      let key := 4 * leField d 4 2 + i
      s.rdma key = some r → r.seq = leField d 0 4 → r.reported = false → r.dest / 2 ^ 48 = p.srcDev →
      (∀ j < i, s.rdma (4 * leField d 4 2 + j) = none) →
      ∃ t, Goes (.reportPacket n) s t ∧ t.cores = s.cores ∧ t.rdma key = some { r with
        landed := leField d 6 4, dropped := leField d 10 4, mismatch := bitOf (leField d 14 1) 0
        cvuBusy := bitOf (leField d 14 1) 1, reported := true }) ∧
    (p.kind = 5 → s.stew.active ≠ none →
      let c := a - ctlBase
      let answers (t : State) (v code : Nat) := Goes (.mgmtReq n) s
        (t.sendPacket (plainPacket 6 p.cls (p.srcDev * 2 ^ 48 + p.srcNode) (t.raiser panelNode) (p.arg % 65536)
          (leBytes 8 v ++ leBytes 2 code)))
      (0x400000000000 ≤ a → a < 0x400600000000 → answers u 0 0x095) ∧
      (0x400600000000 ≤ a → a < ctlBase → answers u 0 0x096) ∧
      (ctlBase ≤ a → a < ctlBase + ctlSize →
        (bitOf p.arg 17 = false → mgmtReads c = true → u.mgmtReader p.srcDev = true →
          let q := if bitOf p.arg 16 then u.read64 (managerAgent p.srcDev) c else u.read32 (managerAgent p.srcDev) c
          answers q.1 q.2 0) ∧
        (bitOf p.arg 17 = true → mgmtWrites c = true → s.zfp.isManager p.srcDev = true →
          answers (if bitOf p.arg 16 then u.write64 (managerAgent p.srcDev) c (leField p.inl 0 8)
            else u.write32 (managerAgent p.srcDev) c (leField p.inl 0 4)) 0 0) ∧
        (bitOf p.arg 17 = true → s.zfp.isManager p.srcDev = false → answers u 0 0x0A0) ∧
        (u.mgmtReader p.srcDev = false → answers u 0 0x0A0))) ∧
    (p.kind = 6 → ∃ t, Goes (.mgmtResp n) s t ∧ t.zfp.rx = tdel s.zfp.rx n ∧ t.cores = s.cores ∧ t.zfp.replies =
      s.zfp.replies ++ [⟨p.gaddr % 2 ^ 14, p.arg % 65536, leField p.inl 0 8, leField p.inl 8 2 % 4096⟩]) ∧
    (p.kind = 7 → ∃ t e, Goes (.mgmtNote n) s t ∧ t.zfp.rx = tdel s.zfp.rx n ∧ t.cores = s.cores ∧
      t.evq.travelling = s.evq.travelling ++ [e] ∧ e.code = 0x0605 ∧ e.data = p.inl)

/-- R369, R370, R373, R376, R378, R380, R381, R384, R353, R355, R397: DEV_NUM and the pair are set only while READY; a write goes
into the inactive routing version and clears LOADED; a commit asks a check-value unit, which posts the version's value at once, or when it comes to it, and
loads the version when it agrees; a flip is accepted for a tick at least 2 ahead and makes the version active in that tick; after the drain the old epoch's
packets of the domain are gone; a circuit entry is ACTIVE in its ticks. The model's choices of log entries 55, 92, 245 and 248 stand in it. -/
def Obligations.RoutingChangesTakeEffect : Prop :=
  ∀ (s : State) (dev : BitVec 16) (bcast : Bool) (i : Fin 65536) (value : BitVec 64) (entry : Fin 64) (on : Bool) (pa pb : Port),
    let z := s.zfp
    let spare := z.version (!z.active)
    let event (t : State) (kind : Nat) := ∃ e, t.evq.travelling = s.evq.travelling ++ [e] ∧ e.code = 0x0602 ∧
      e.data = [BitVec.ofNat 8 kind]
    (s.panel.mode = .ready → Goes (.devNumWrite dev) s { s with zfp := { z with devNum := dev.toNat } }) ∧
    (s.panel.mode ≠ .ready → Goes (.devNumWrite dev) s s ∧ Goes (.pairSet on pa pb dev) s s) ∧
    (s.panel.mode = .ready → pa.val / 4 = pb.val / 4 → Goes (.pairSet on pa pb dev) s s) ∧
    (s.panel.mode = .ready → pa.val / 4 ≠ pb.val / 4 →
      ∃ t, Goes (.pairSet on pa pb dev) s t ∧ t.zfp.pairOn = on ∧ t.zfp.portA = pa.val ∧ t.zfp.portB = pb.val ∧
        t.zfp.partner = dev.toNat ∧ t.zfp.ports = z.ports ∧ t.cores = s.cores ∧
        t.zfp.pairUp = (on && ((t.port pa).up && (t.port pa).peerDev == dev.toNat ||
          (t.port pb).up && (t.port pb).peerDev == dev.toNat))) ∧
    (s.draining = true → Goes (.routeTableWrite bcast i value) s s) ∧
    (s.draining = false →
      let put (r : RtVersion) := Goes (.routeTableWrite bcast i value) s { s with zfp := { z with
        rt := if z.active then (r, z.rt.2) else (z.rt.1, r), loaded := false } }
      (bcast = false → put { spare with dev := mset 0 spare.dev i (value.toNat % 2 ^ 32 &&& 0x9F9F9F9F) }) ∧
      (bcast = true → i.val < 33 → put { spare with bcast := mset 0 spare.bcast i (value.toNat % 2 ^ 33) })) ∧
    (z.committing = true → Goes .routeCommit s s) ∧
    (z.committing = false →
      let c := s.cvu 0
      let value := crc32c spare.bytes
      (c.busy = none → ∃ t, Goes .routeCommit s t ∧ t.zfp = { z with loaded := value == z.check } ∧
        (value = z.check → t.evq = s.evq) ∧ (value ≠ z.check → event t 1) ∧ (t.cvu 0).lastSeq = (c.lastSeq + 1) % 65536 ∧
        ∃ r, tfind (t.cvu 0).ring c.head = some r ∧ r.status = 1 ∧ r.value = value.toNat ∧ r.bytes = spare.bytes.length) ∧
      (c.busy ≠ none → c.queue.length < 8 →
        ∃ t, Goes .routeCommit s t ∧ t.zfp = { z with loaded := false, committing := true } ∧ (t.cvu 0).queue = c.queue ++ [commitReq]) ∧
      (c.busy ≠ none → 8 ≤ c.queue.length →
        ∃ t, Goes .routeCommit s t ∧ t.zfp = { z with loaded := false } ∧ (t.cvu 0).queue = c.queue ∧
          (t.cvu 0).refused = if c.refused < 0xFFFF then c.refused + 1 else c.refused)) ∧
    (z.loaded = true → s.clock.tick.toNat + 2 ≤ z.flipTick.toNat →
      Goes .routeFlip s { s with zfp := { z with pending := true } }) ∧
    ((z.loaded = false ∨ z.flipTick.toNat < s.clock.tick.toNat + 2) → Goes .routeFlip s s) ∧
    (z.pending = true → z.flipTick = s.clock.tick →
      ∃ t, Goes .zfpFlip s t ∧ event t 2 ∧
        t.zfp = { z with active := !z.active, pending := false, loaded := false, flipped := true, flipAt := s.clock.now }) ∧
    (∀ (cls : Fin 4) (chan : BitVec 4) (at_ : Nat),
      let key := dev.toNat * 64 + cls * 16 + chan.toNat
      (s.drainFrom key = none → (∀ p ∈ z.heldTx, domainKey p ≠ key) → Goes (.drainExpiry dev cls chan) s s) ∧
      (∀ e, tfind z.lastSent key = some (at_, e) → e ≠ z.active → s.drainFrom key = some at_) ∧
      (s.drainFrom key = some at_ → ∃ t, Goes (.drainExpiry dev cls chan) s t ∧ t.clock.now = max s.clock.now (at_ + s.drainTime cls) ∧
        (∀ p ∈ t.zfp.heldTx, domainKey p ≠ key) ∧ t.cores = s.cores ∧
        ((∀ p ∈ z.heldTx, domainKey p ≠ key) → t.zfp.paced = z.paced.filter (fun p => !s.oldOf key p) ∧ t.zfp.ports =
          tmap (fun _ r => { r with txq := r.txq.filter fun q => !s.oldOf key q.pkt }) z.ports))) ∧
    (∃ y, Goes (.circEntryActivate entry) s { s with zfp := { z with circ := y } } ∧
      (let c := tget {} z.circ entry
       let t := s.clock.tick.toNat
       tget {} y entry = { c with
         active := c.valid && decide (c.first ≤ t) && (c.count == 0 || decide (t < c.first + c.count)) }) ∧
      ∀ j, j ≠ entry.val → tget {} y j = tget {} z.circ j)
/-! ### The storage side -/

/-- R406 to R413, R415, R417, R424, R432, R434, R435: a decoded codeword counts at its tier, and one that needed the last or
failed makes its block grown bad; refresh and wear moves put a block's data into a free one, the one with the fewest erases of those free; a program puts its
page into its stripe, the parity page in its place and delta pages before those of a snapshot, and an erase keeps the block's record; a page that is lost is
the XOR of the other seven of its stripe; the system area's full half keeps the latest record of each type; a new image comes into force; a
lost channel or target leaves service with the pages it held, and a stripe that loses a second page breaks the store. The model's choices of log
entries 133, 134, 135 and 252 stand in it. -/
def Obligations.FlashBlocksAreReadWrittenAndRetired : Prop :=
  (∀ (x : StripeRec) (k q i j : Nat) (cs : List Codeword), x.parity = some q → q < 8 → (x.pages.map (·.1)).Nodup →
    (∀ e ∈ x.pages, e.1 < 8 ∧ e.1 ≠ q) → tfind x.pages i = some cs → j < 4 → x.rebuild k i j = dataAt cs j) ∧
  ∀ (s : State) (c : Chan) (b into : Nat) (stripe : Option (Fin 4)) (aged : Bool),
    let r := s.chan c
    let k := r.block b
    let up (mx v : Nat) := if v < mx then v + 1 else v
    (∀ i, (∃ tier, i = (tier, Instr.codewordRead c b tier stripe) ∨ i = (tier, Instr.patrolRead c b tier stripe)) →
      ∃ t, Goes i.2 s t ∧ ((t.chan c).block b).reads = k.reads + 1 ∧ t.cores = s.cores ∧ t.plos = s.plos ∧
        (t.chan c).tier1 = (if i.1 = .tier1 then up (2 ^ 31 - 1) r.tier1 else r.tier1) ∧
        (t.chan c).tier2 = (match i.1 with
          | .tier2 _ => up 0xFFFF r.tier2
          | _ => r.tier2) ∧
        (t.chan c).tier3 = (if i.1 = .tier3 then up 0xFF r.tier3 else r.tier3) ∧
        (t.chan c).tier4 = (if i.1 = .tier4 then up 0xF r.tier4 else r.tier4) ∧
        (t.chan c).uncorr = (if i.1 = .failed then up 0xF r.uncorr else r.uncorr) ∧
        (((t.chan c).block b).bad = true ↔ i.1 = .tier4 ∨ i.1 = .failed ∨ k.bad = true) ∧
        (i.1 = .failed → (∃ e ∈ t.evq.travelling, e.code = 0x0701) ∧ (stripe ≠ none → t.nvm.mode = .broken))) ∧
    (k.valid = true → (k.due = true ∨ 200000 ≤ k.reads ∨ aged = true) → r.mayOpen into = true → (r.block into).free = true →
      (r.block into).bad = false → into ≠ b →
      ∃ t, Goes (.blockRefresh c b ⟨into, aged⟩) s t ∧ ((t.chan c).block b).valid = false ∧ ((t.chan c).block into).valid = true ∧
        ((t.chan c).block into).free = false ∧ ((t.chan c).block into).reads = 0) ∧
    ((k.valid = false ∨ k.due = false ∧ k.reads < 200000 ∧ aged = false) → Goes (.blockRefresh c b ⟨into, aged⟩) s s) ∧
    (r.mayOpen b = true ↔ k.free = false ∨ ∀ e ∈ r.blocks, e.2.lun = k.lun → e.2.free = true → e.2.bad = false → k.erases ≤ e.2.erases) ∧
    (∀ lun lo hi, into ≠ b →
      let good := r.blocks.filter fun e => e.2.lun == lun && !e.2.bad
      pickErase false good = some lo → pickErase true good = some hi →
      (lo.2.erases + 256 < hi.2.erases → ∀ x y, x.erases = lo.2.erases → x.erases < y.erases →
        pickErase false (good.filter fun e => e.2.valid) = some (b, x) →
        pickErase true (good.filter fun e => e.2.free) = some (into, y) →
        ∃ t, Goes (.wearMove c lun) s t ∧ ((t.chan c).block b).valid = false ∧
          ((t.chan c).block into).valid = true ∧ ((t.chan c).block into).free = false) ∧
      (hi.2.erases ≤ lo.2.erases + 256 → Goes (.wearMove c lun) s s)) ∧
    (∀ st n, r.mayOpen b = false → Goes (.programComplete c b true st n) s s ∧ Goes (.programComplete c b false st n) s s) ∧
    (∀ st n, r.mayOpen b = true →
      (∃ t, Goes (.programComplete c b false st n) s t ∧ ((t.chan c).block b).bad = true ∧ t.nvm.stripes = s.nvm.stripes) ∧
      (let key := 4 * st + c % 4
       let i := c.val / 4
       let x := s.nvm.stripe key
       let puts (f : State → Prop) := ∃ t, Goes (.programComplete c b true st n) s t ∧ ((t.chan c).block b).valid = true ∧
         ((t.chan c).block b).free = false ∧ t.cores = s.cores ∧ t.plos = s.plos ∧ f t
       ((tmem x.pages i = true ∨ x.parity = some i) → puts fun t => t.nvm.stripes = s.nvm.stripes) ∧
       (tmem x.pages i = false → x.parity ≠ some i →
         (s.parityAt st (c % 4) = some i → puts fun t =>
           (t.nvm.stripe key).parity = some i ∧ (t.nvm.stripe key).pages = x.pages ∧ t.nvm.flashed = s.nvm.flashed ∧ t.nvm.snapNow = s.nvm.snapNow) ∧
         (s.parityAt st (c % 4) ≠ some i → 0 < n → s.nvm.flashed < s.nvm.pages.length → puts fun t =>
           tmem (t.nvm.stripe key).pages i = true ∧ s.nvm.flashed < t.nvm.flashed ∧ t.nvm.flashed ≤ s.nvm.flashed + min n 224 ∧
             t.nvm.snapNow = s.nvm.snapNow) ∧
         (∀ y, s.parityAt st (c % 4) ≠ some i → 0 < n → s.nvm.pages.length ≤ s.nvm.flashed → s.nvm.snapNow = some y →
           y.flashed < y.data.length → puts fun t => tmem (t.nvm.stripe key).pages i = true ∧ t.nvm.flashed = s.nvm.flashed ∧
             ∃ m, t.nvm.snapNow = some { y with flashed := m } ∧ y.flashed < m ∧ m ≤ y.flashed + min n 256)))) ∧
    (k.bad = false → k.erases < 0xFFFF → (r.endurance = 0 ∨ k.erases + 1 < r.endurance) →
      ∃ t, Goes (.eraseComplete c b true) s t ∧
        (t.chan c).block b = { k with erases := k.erases + 1, valid := false, reads := 0, due := false, free := true }) ∧
    (∃ t, Goes (.eraseComplete c b false) s t ∧ ((t.chan c).block b).bad = true) ∧
    (∀ side : Bool, ∃ t, Goes (.systemAreaCopy side) s t ∧ t.nvm.stripes = s.nvm.stripes ∧
      (let old := tget [] s.nvm.sys (b2n side)
       let new := tget [] t.nvm.sys (b2n side)
       (∀ ty, new.find? (fun e => sysKey e == ty) = old.find? (fun e => sysKey e == ty)) ∧ (new.map sysKey).Nodup) ∧
      tget 0 t.nvm.sysHalf (b2n side) = 1 - tget 0 s.nvm.sysHalf (b2n side)) ∧
    (∀ q i num x rest, s.nvm.imageNew = (q, i, num, x) :: rest →
      ∃ t slot, Goes .imageCommit s t ∧ t.nvm.imageNew = rest ∧ tfind t.nvm.imageNow num = some slot ∧
        tfind t.nvm.images (2 * num + slot) = some x ∧ tfind s.nvm.imageNow num ≠ some slot ∧ (t.status q i).st = .done ∧
        (t.status q i).code = 0) ∧
    (∀ target : Option (Fin 8), ∃ t, Goes (.channelOut c target) s t ∧ t.cores = s.cores ∧
      (t.chan c).targets = (match target with
        | some x => r.targets &&& ~~~(1#8 <<< x.val)
        | none => 0#8) ∧
      (target = none → (t.chan c).mode = .out) ∧
      (∀ e ∈ s.nvm.stripes, e.1 % 4 = c % 4 → (tmem e.2.pages (c / 4) = true ∨ e.2.parity = some (c / 4)) → c.val / 4 ∉ e.2.lost →
        (e.1, { e.2 with lost := c.val / 4 :: e.2.lost }) ∈ t.nvm.stripes ∧ (e.2.lost ≠ [] → t.nvm.mode = .broken)) ∧
      (∀ e ∈ s.nvm.stripes, e.1 % 4 ≠ c % 4 → e ∈ t.nvm.stripes))

/-- R420, R422, R423, R425, R427, R429, R431, R489, R503: a step mark one above the last asks for a close in the second
tick after; a step closes at its boundary, and a snapshot starts where one is due; staged granules go to the pages; a
delta and a snapshot commit once they are whole on flash, every stripe of theirs programmed, with their records in both areas; a restore that passes sets
the program going again from its step, and one that fails ends the job or its START; where a half-die is stretched only a test program goes on (R243). The model's choices of log entries
40, 130 and 131 stand in it. -/
def Obligations.StepsAndSnapshotsCommitAndRestore : Prop :=
  ∀ (s : State),
    let j := s.job
    let event (t : State) (code : Nat) := ∃ e ∈ t.evq.travelling, e.code = code
    let record (t : State) (kind step : Nat) := ∃ c, t.nvm.areaA = c :: s.nvm.areaA ∧ t.nvm.areaB = c :: s.nvm.areaB ∧
      c.kind = kind ∧ c.step = step ∧ c.cseq = s.nvm.cseq + 1
    (∀ v tick rest, j.marks = (v, tick) :: rest →
      (v = j.asked + 1 → j.closing.length < 16 → Goes .stepMark s { s with job := { j with
        marks := rest, asked := v, closing := j.closing ++ [(v, tick + 2)] } }) ∧
      (v = j.asked + 1 → 16 ≤ j.closing.length → j.live = true → ∃ t, Goes .stepMark s t ∧ t.job.endCode = some 0x0E3) ∧
      (v ≠ j.asked + 1 → ∃ t, Goes .stepMark s t ∧ t.job = { j with marks := rest } ∧ event t 0x0903)) ∧
    (∀ v tick rest, j.closing = (v, tick) :: rest →
      ((j.running = false ∨ s.clock.tick.toNat < tick) → Goes .stepClose s s) ∧
      (j.running = true → tick ≤ s.clock.tick.toNat →
        ∃ t, Goes .stepClose s t ∧ t.job.closed = v ∧ t.job.closing = rest ∧ t.job.regStep = v ∧
          (t.status j.queue j.slot).progress = min 0xFFFFFF v ∧ t.cores = s.cores ∧
          (s.snapDue v = true → ∃ n, t.nvm.snapNow = some n ∧ n.base = v ∧
            n.slotB = if s.nvm.valid then !s.nvm.slotB else false) ∧
          (s.snapDue v = false → t.nvm = s.nvm))) ∧
    (∀ (n : Stack) (k : Nat), ∃ t, Goes (.stagingDrain n k) s t ∧ (t.ring n).q = (s.ring n).q.drop k ∧
      t.nvm.pages = s.nvm.pages ++ (s.ring n).q.take k ∧ t.plos.mem = s.plos.mem ∧ t.cores = s.cores) ∧
    (∀ r, s.nvm.inForce = some r → r.job = j.spec.job →
      let step := r.last + 1
      let d := s.nvm.pages.filter fun g => decide (g.step ≤ step)
      (j.closed < step → Goes .deltaCommit s s) ∧
      (step ≤ j.closed → s.cons.mode ≠ .fenced → s.undrained step = false → s.nvm.mode ≠ .broken →
        (∀ g ∈ s.nvm.pages.drop s.nvm.flashed, step < g.step) → (∀ x ∈ s.nvm.broken, step < x) →
        (∀ e ∈ s.nvm.stripes, (∃ p ∈ e.2.pages, ∃ w ∈ p.2, w.kind = 3 ∧ w.obj = j.spec.job ∧ w.step = step) → s.stripeWhole e.1 = true) →
        ∃ t, Goes .deltaCommit s t ∧ t.nvm.stepCommit = step ∧ record t 2 step ∧ event t 0x0704 ∧
          tfind t.nvm.slots (b2n s.nvm.slotB) = some { r with deltas := r.deltas ++ d, last := step } ∧
          (∀ e ∈ t.nvm.stripes, ∀ p ∈ e.2.pages, ∀ w ∈ p.2, w.kind = 3 → w.obj = j.spec.job → w.step = step → w.seq = some (s.nvm.cseq + 1)) ∧
          t.nvm.pages = s.nvm.pages.filter fun g => !decide (g.step ≤ step))) ∧
    (∀ n, s.nvm.snapNow = some n → n.left = [] → (∀ k < 16, tmem n.checks k = true) → n.checks.length = 16 →
      n.flashed = n.data.length → j.live = true → (s.cons.inGroup = true → n.base ≤ s.cons.groupStep) →
      (∀ e ∈ s.nvm.stripes, (∃ p ∈ e.2.pages, ∃ w ∈ p.2, w.kind = 2 ∧ w.obj = s.nvm.sgen + 1 ∧ w.seq = none) → s.stripeWhole e.1 = true) →
      ∃ t x, Goes .snapshotCommit s t ∧ t.nvm.snapNow = none ∧ t.nvm.valid = true ∧ t.nvm.slotB = n.slotB ∧
        t.nvm.base = n.base ∧ t.nvm.sgen = (s.nvm.sgen + 1) % 2 ^ 32 ∧ t.nvm.mode = .recording ∧ record t 1 n.base ∧
        event t 0x0705 ∧ tfind t.nvm.slots (b2n n.slotB) = some x ∧ x.data = n.data ∧ x.base = n.base ∧ x.job = j.spec.job) ∧
    (j.phase = .restoring →
      let fails (uncorr check : Bool) (code : Nat) := ∃ t, Goes (.restoreDone uncorr check) s t ∧
        (j.started = true → t.job.endCode = some code ∧ t.job.running = false) ∧
        (j.started = false → t.job.phase = .none_ ∧ (t.status j.queue j.slot).st = .failed ∧
          (t.status j.queue j.slot).code = code)
      (s.nvm.inForce = none → fails false true 0x0B4) ∧
      (∀ r, s.nvm.inForce = some r →
        fails true true 0x0B0 ∧
        (s.nvm.mode ≠ .broken → fails false false 0x0B2 ∧
          (s.stretchBars = true → fails false true 0x060) ∧
          (let step := min r.last (j.resumeAt.getD r.last)
           s.stretchBars = false → ∃ t, Goes (.restoreDone false true) s t ∧ t.job.closed = step ∧ t.job.asked = step ∧ t.job.closing = [] ∧
             t.cons.committed = step ∧ t.nvm.stepCommit = step ∧ t.nvm.mode = .idle ∧
             t.job.phase = if s.diesBusy then .waitDie else .ready))))
/-! ### The host interface -/

/-- R438, R439, R454, R577, R660: a host write or read that a link takes is carried out by the range that holds it, or
answered with the code of the first reason against it; a completion answers the device's transfer under its tag, and an
error completion or the lack of a link ends what the transfer was for. The model's choices of log entries 56 and 150
stand in it. -/
def Obligations.HostRequestsAreServedOrAnsweredWithTheirCode : Prop :=
  (∀ (s : State) (link : HostLink) (h : HostHead) (data : List (BitVec 8)), s.takesRequest link = true →
    let tag := h.tag.toNat
    let u := s.holdRequest link tag
    let a := h.addr.toNat
    let n := h.len.toNat
    let cls := h.cls.toNat % 4
    let write := Instr.mwr link h data
    let read := Instr.mrd link h
    let ends (i : Instr) (code : Nat) (bs : List (BitVec 8)) := ∃ t c, Goes i s t ∧ t.hif.cpls = s.hif.cpls ++ [c] ∧
      c.link = link.val ∧ c.tag = tag ∧ c.code = code ∧ c.bytes = bs ∧
      t.hif.outstanding.length = s.hif.outstanding.length ∧ t.cores = s.cores ∧ t.plos = s.plos ∧ t.mesh = s.mesh
    (headBad h true = true → ends write 0x0CE [] ∧ ends read 0x0CE []) ∧
    (headBad h true = false → data.length ≠ n → ends write 0x0CE []) ∧
    (headBad h true = false → data.length = n →
      (rangeOf a n = none → ends write 0x0C9 [] ∧ ends read 0x0C9 []) ∧
      (rangeOf a n = some .plos →
        (cls = 0 → ends write 0x0C8 [] ∧ ends read 0x0C8 []) ∧
        (cls ≠ 0 → s.touchesLost a n = true → ends write 0x081 [] ∧ ends read 0x081 []) ∧
        (cls ≠ 0 → s.touchesLost a n = false →
          Goes write s (u.askStack (.host link tag false 0) cls a n (some (data, []))) ∧
          Goes read s (u.askStack (.host link tag true (a % 8)) cls a n none))) ∧
      (rangeOf a n = some .pads → ends read 0x095 [] ∧ (a % 64 ≠ 0 ∨ n % 64 ≠ 0 → ends write 0x0C8 []) ∧
        (a % 64 = 0 → n % 64 = 0 →
          ∃ t, Goes write s t ∧ t.mesh.nextFlit = s.mesh.nextFlit + n / 64 ∧ t.srams = s.srams ∧
            (∀ i < n / 64, ∃ f, tfind t.mesh.flits (s.mesh.nextFlit + i) = some f ∧ f.kind = 3 ∧ f.cls = cls ∧
              f.dest = (a - 0x400000000000 + 64 * i) / spadSize ∧
              f.arg = (a - 0x400000000000 + 64 * i) % spadSize / 64 % 32768 ∧ f.bytes = (data.drop (64 * i)).take 64) ∧
            ∃ c, t.hif.cpls = s.hif.cpls ++ [c] ∧ c.tag = tag ∧ c.code = 0)) ∧
      (rangeOf a n = some .hole → ends write 0x096 [] ∧ ends read 0x096 []) ∧
      (rangeOf a n = some .ctl →
        let q := if n = 4 then u.read32 (hostAgent link) (a - ctlBase)
          else if n = 8 then u.read64 (hostAgent link) (a - ctlBase) else (u, 0)
        Goes read s (q.1.answer link tag 0 (leBytes n q.2)) ∧
        Goes write s ((if n = 4 then u.write32 (hostAgent link) (a - ctlBase) (leNat data)
          else if n = 8 then u.write64 (hostAgent link) (a - ctlBase) (leNat data) else u).answer link tag 0 [])) ∧
      (rangeOf a n = some .queues →
        ends read 0 ((List.range n).map fun i => s.queueByte (a - queueBase + i)) ∧
        (Memory.wf s.hif.cmds = true →
          ∃ t, Goes write s t ∧ t.hif.status = s.hif.status ∧ ∀ x, Memory.read t.hif.cmds x =
            if a - queueBase ≤ x ∧ x < a - queueBase + n ∧ x < 0x1000000 ∧ x % 0x40000 / 64 < (s.queue (x / 0x40000)).size
            then byteAt data (x - (a - queueBase)) else Memory.read s.hif.cmds x)))) ∧
  (∀ (s : State) (link : HostLink) (h : HostHead) (data : List (BitVec 8)) (x : Xfer), (s.port (32 + link)).up = true →
    headBad h false = false → tfind s.hif.xfers h.tag.toNat = some x → x.link = link.val →
    let u := { s with hif := { s.hif with xfers := tdel s.hif.xfers h.tag.toNat } }
    (h.code = 0#16 → (x.data ≠ none ∨ data.length = x.len) →
      (x.use = .start ∨ x.use = .event → Goes (.hostCpl link h data) s u) ∧
      (∀ q c, x.use = .copy q → s.copyOf q = some c → c.out = false → c.check = 0 →
        Goes (.hostCpl link h data) s ((u.modCopy q fun c => { c with bytes := [] }).askStack (.copy q) (s.queue q).cls
          (c.stack + c.moved) x.len (some (data, []))))) ∧
    (h.code ≠ 0#16 →
      (∀ q i, x.use = .copy q → s.turn q = some i →
        ∃ t, Goes (.hostCpl link h data) s t ∧ (t.status q i).st = .failed ∧ (t.status q i).code = 0x0C5) ∧
      (x.use = .result → s.job.live = true →
        ∃ t, Goes (.hostCpl link h data) s t ∧ t.job.endCode = some 0x0C5 ∧ t.job.running = false))) ∧
  (∀ (s : State) (tag : BitVec 16) (x : Xfer), tfind s.hif.xfers tag.toNat = some x →
    (x.link < 2 → Goes (.hostLinkWaitTimeout tag) s s) ∧
    (2 ≤ x.link → ∀ q i, x.use = .copy q → s.turn q = some i →
      ∃ t, Goes (.hostLinkWaitTimeout tag) s t ∧ (t.status q i).st = .failed ∧ (t.status q i).code = 0x0C6))

/-- R445 to R447, R450 to R453, R455, R456, R465, R466: a doorbell within the depth sets TAIL; QCTL is written while no
command of the queue is short of its end; the device takes the slot at HEAD as ACCEPTED, or REJECTED with its code; a
NOP and a SNAPSHOT are DONE as they begin, a COPY and an IMAGE_WRITE begin or fail; an ABORT ends an accepted command as
ABORTED, or finds none. The model's choice of log entry 145 stands in it. -/
def Obligations.QueueCommandsAreTakenAndRun : Prop :=
  ∀ (s : State) (q : Queue),
    let r := s.queue q
    let done (t : State) (i code : Nat) := (t.status q i).st = (if code = 0 then .done else .failed) ∧
      (t.status q i).code = code ∧ i ∉ (t.queue q).live
    (∀ tail : BitVec 12,
      (tail.toNat < r.size → Goes (.doorbell q tail) s (s.modQueue q fun r => { r with tail := tail.toNat })) ∧
      (r.size ≤ tail.toNat → Goes (.doorbell q tail) s s)) ∧
    (∀ v : BitVec 32,
      let depth := bitsOf v.toNat 0 4
      let on := bitOf v.toNat 31
      ((r.live ≠ [] ∨ depth < 4 ∨ 12 < depth) → Goes (.hifQctlWrite q v) s s) ∧
      (r.live = [] → 4 ≤ depth → depth ≤ 12 →
        ∃ t, Goes (.hifQctlWrite q v) s t ∧ (t.queue q).enable = on ∧ (t.queue q).cls = bitsOf v.toNat 29 2 ∧
          (t.queue q).depth = depth ∧ (∀ j, j ≠ q.val → t.queue j = s.queue j) ∧
          (on = true → r.enable = false → (t.queue q).head = 0 ∧ (t.queue q).tail = 0 ∧ ∀ i < 4096, t.status q i = {}) ∧
          (¬ (on = true ∧ r.enable = false) → (t.queue q).head = r.head ∧ (t.queue q).tail = r.tail ∧
            t.hif.status = s.hif.status))) ∧
    (s.canTake q = true →
      let c := s.headCmd q
      let code := s.rejectCode q c
      (opOf c ≠ 2 ∨ code ≠ 0 →
        ∀ i, i = (if opOf c = 2 then Instr.abort q else Instr.slotTake q) →
        ∃ t, Goes i s t ∧ t.status q r.head = { st := if code = 0 then .accepted else .rejected, code := code, seq := leField c 2 2 } ∧
          (t.queue q).head = (r.head + 1) % r.size ∧ (t.queue q).live = (if code = 0 then r.live ++ [r.head] else r.live) ∧
          t.ownCmd q r.head = c ∧
          t.hif.starts = (if code = 0 ∧ opOf c = 1 then s.hif.starts ++ [(q.val, r.head)] else s.hif.starts)) ∧
      (opOf c = 2 → code = 0 → argOf c 0 ≠ allOnes64 → r.head < 4096 →
        let tq := bitsOf (argOf c 0) 0 6
        let ti := bitsOf (argOf c 0) 16 12
        let w := s.status tq ti
        (tq ≠ q.val ∨ ti ≠ r.head) →
        (w.seq = bitsOf (argOf c 0) 32 16 → w.st = .accepted →
          ∃ t, Goes (.abort q) s t ∧ (t.status tq ti).st = .aborted ∧ (t.status tq ti).code = 0x0CB ∧ done t r.head 0) ∧
        (w.seq ≠ bitsOf (argOf c 0) 32 16 ∨ w.st.free = true →
          ∃ t, Goes (.abort q) s t ∧ done t r.head 0x0C3 ∧ t.status tq ti = w))) ∧
    (∀ i, s.turnOf q 0 = some i → ∃ t, Goes (.queueNop q) s t ∧ done t i 0 ∧ t.cores = s.cores ∧ t.job = s.job) ∧
    (∀ i, s.turnOf q 4 = some i → ∃ t, Goes (.snapshot q) s t ∧ done t i 0 ∧ t.nvm = { s.nvm with snapAsked := true }) ∧
    (∀ i, s.turnOf q 3 = some i →
      let c := s.ownCmd q i
      let check := bitsOf (argOf c 3) 1 2
      let gw7 := if s.linkFor (s.queueGw7 q) = 2 then s.queueGw7 q else decide (s.linkFor (s.queueGw7 q) = 1)
      let unit := s.cvu (if gw7 then 7 else 0)
      (check = 0 ∨ unit.busy = none ∨ unit.queue.length < 8 →
        ∃ t k, Goes (.copy q) s t ∧ (t.status q i).st = .running ∧ t.copyOf q = some k ∧ k.slot = i ∧ k.host = argOf c 0 ∧
          k.stack = argOf c 1 ∧ k.total = argOf c 2 ∧ k.moved = 0 ∧ k.out = bitOf (argOf c 3) 0 ∧ k.check = check ∧
          (k.waitCvu = true ↔ check ≠ 0 ∧ unit.busy ≠ none)) ∧
      (check ≠ 0 → unit.busy ≠ none → 8 ≤ unit.queue.length → ∃ t, Goes (.copy q) s t ∧ done t i 0x098)) ∧
    (∀ i image extents, s.turnOf q 5 = some i → s.anyLink = true →
      (∃ t, Goes (.imageWrite q none (some extents)) s t ∧ done t i 0x0C5) ∧
      (∃ t, Goes (.imageWrite q (some image) (some extents)) s t ∧ (t.status q i).st = .running ∧
        t.nvm.imageNew = s.nvm.imageNew ++ [(q.val, i, argOf (s.ownCmd q i) 0, ⟨image, extents⟩)] ∧
        (t.status q i).progress = min 0xFFFFFF (imageSize image extents / 1024)))

/-- R53, R54, R444, R461 to R463, R466 to R468, R661: the START whose turn it is loads its job or fails with its code; a
job whose cores have all stopped drains from the boundary on, and ends once its results are out, with ST_TICK_HELD where a core of it was held at D (R237); the ABORT's deadline
fences what is not swept; a fit test ends with the program going on or the job ended; a gateway's queues move to the
other one. The model's choices of log entries 138 and 146 stand in it. -/
def Obligations.JobsLoadDrainAndEnd : Prop :=
  (∀ (s : State) (q : Queue) (i : Nat) (desc image : Option (List (BitVec 8))) (fitPass : Bool) (left : Nat) (c : Instr),
    s.startTurn = some (q.val, i) → s.startBusy = false →
    c = .start q desc image fitPass left ∨ c = .startBegin desc image fitPass left →
    let u := s.beginStart q i
    let fit := if fitPass then some left else none
    let fails (code : Nat) := ∃ t, Goes c s t ∧ (t.status q i).st = .failed ∧ (t.status q i).code = code ∧
      t.job.phase = .none_ ∧ t.cores = s.cores
    (s.panel.mode ≠ .ready → s.panel.mode ≠ .relay → s.panel.mode ≠ .test → fails 0x0C2) ∧
    (s.panel.mode = .relay → Goes c s s) ∧
    (s.panel.mode = .ready →
      (s.cons.mode = .fenced → fails 0x0E1) ∧
      (s.cons.mode ≠ .fenced → s.anyLink = true →
        (desc = none → fails 0x0C5) ∧
        (∀ d, desc = some d →
          let j := parseJob d
          let m := u.imageBytes j (image.getD [])
          (d.length ≠ 4096 ∨ descBad d = true → fails 0x0CA) ∧
          (d.length = 4096 → descBad d = false →
            (recSetBad j.recSet = true → fails 0x0B3) ∧
            (recSetBad j.recSet = false → (j.record = true → sumOf (j.recSet.map (·.2)) ≤ s.nvm.slotBytes) →
              (j.src = 0 → image ≠ none) →
              (u.imageCode m fit ≠ 0 → fails (u.imageCode m fit)) ∧
              (u.imageCode m fit = 0 → j.resume = false →
                ∃ t, Goes c s t ∧ t.job.spec = j ∧ t.job.image = m ∧ t.job.queue = q.val ∧ t.job.slot = i ∧
                  (t.status q i).st = .running ∧ t.job.hdr.mapGen = s.panel.mapGen.toNat ∧
                  t.job.phase = (if (List.range 16).any (fun n => (s.stack n).sweeping) then .waitSweep
                    else if s.diesBusy then .waitDie else .ready) ∧
                  (t.job.phase = .ready → ∀ p, (s.core p).stat.valid = true → t.core p = (s.core p).load m)))))))) ∧
  (∀ s : State, s.job.phase = .running →
    (s.allStopped = true →
      ∃ t, Goes .jobDrain s t ∧ t.job.phase = .drain ∧ t.job.running = false ∧ t.clock.now = max s.clock.now s.boundary ∧
        (t.status s.job.queue s.job.slot).phase = 5 ∧ t.cores = s.cores) ∧
    (s.allStopped = false → Goes .jobDrain s s)) ∧
  (∀ s : State, s.job.phase = .drain → s.job.left = [] → s.panel.moving = [] → s.servedSites ≠ [] →
    ∃ t, Goes .resultCopyDone s t ∧ t.job.phase = .sweep ∧ t.job.running = false ∧
      t.job.endCode = some (if s.job.faultCode ≠ 0 then s.job.faultCode else if s.clock.heldJob then 0x063 else 0)) ∧
  (∀ s : State, s.job.phase = .sweep → s.job.cause = .abort →
    ∃ t, Goes .abortSweepDeadline s t ∧ t.clock.now = max s.clock.now (s.job.abortAt + s.cyclesOf (1400 * usec)) ∧
      ∀ site, (s.dieSweep site).left ≠ [] → (t.dieSweep site).st = 3 ∧ (t.dieSweep site).left = [] ∧
        tget .off t.panel.die site = .fenced) ∧
  (∀ (s : State) (added : Nat), s.job.phase = .relay →
    (∃ t, Goes (.fitTestComplete false added) s t ∧ t.job.endCode = some 0x022 ∧ t.job.running = false) ∧
    (s.job.hdr.slack < added → ∃ t, Goes (.fitTestComplete true added) s t ∧ t.job.endCode = some 0x022) ∧
    (added ≤ s.job.hdr.slack → s.job.afterTest = .restoring →
      ∃ t, Goes (.fitTestComplete true added) s t ∧ t.job.phase = .restoring ∧ t.job.hdr.margin = s.job.hdr.slack - added ∧
        t.panel.mapGen = (if s.panel.moving ≠ [] ∨ s.panel.commitDue = true then s.panel.mapGen + 1#32 else s.panel.mapGen) ∧
        t.panel.mode = (if s.job.started then .running else .ready) ∧ t.panel.moving = [] ∧ t.job.endCode = s.job.endCode) ∧
    (added ≤ s.job.hdr.slack → s.job.started = true → s.job.running = true → s.job.afterTest = .running → s.cons.mode ≠ .member →
      s.job.spec.record = true → s.nvm.valid = true → 0 < s.cons.committed →
      ∃ t, Goes (.fitTestComplete true added) s t ∧ t.job.phase = .restoring ∧ t.job.resumeAt = some s.cons.committed ∧
        t.job.hdr.margin = s.job.hdr.slack - added ∧ t.panel.mode = .running ∧ t.panel.moving = [])) ∧
  (∀ (s : State) (gw7 : Bool), s.routerUp (if gw7 then 130 else 13) = false → s.routerUp (if gw7 then 13 else 130) = true →
    ∃ t, Goes (.queueTakeover gw7) s t ∧
      ∀ q < 64, s.queueGw7 q = gw7 → t.queueGw7 q = !gw7 ∧ (t.queue q).moved = true ∧ (t.queue q).head = (s.queue q).head)
/-! ### Mailboxes and their services -/

/-- R470 to R476, R601, R233: a read of a free MBX_LOCK claims it and the owner's write frees it; the owner rings with a
service, which tells a host receiver and which firmware answers with ST_MBX_SERVICE when it does not serve it; the
receiver answers; the data words are the owner's, and while a request is pending the receiver's; a dead owner's
mailboxes are freed; ECHO, VERSION and OVERRUN are answered. The model's choice of log entry 148 stands in it. -/
def Obligations.MailboxesAreClaimedRungAndAnswered : Prop :=
  ∀ (s : State) (m : Mbx) (agent n : Nat) (value : BitVec 32) (rcode : BitVec 16) (w : Fin 16),
    let b := s.box m
    let put (c : MbxRec) : State := { s with hif := { s.hif with mbx := tput s.hif.mbx m c } }
    let firmware := b.receiver = 0x10 ∨ b.receiver = 0x11
    (mayUse m agent = false → Goes (.mbxLockRead m agent) s s ∧ Goes (.mbxLockWrite m agent n) s s ∧
      Goes (.mbxDbWrite m agent n) s s ∧ Goes (.mbxAckWrite m agent rcode) s s ∧ Goes (.mbxDataWrite m agent w value) s s) ∧
    (mayUse m agent = true →
      (b.owner = 0 → Goes (.mbxLockRead m agent) s (put { b with owner := agent })) ∧
      (b.owner ≠ 0 → Goes (.mbxLockRead m agent) s s) ∧
      (b.owner = agent → ∃ t, Goes (.mbxLockWrite m agent agent) s t ∧
        t.box m = { b with owner := 0, pending := false, data := [] } ∧ ∀ j, j ≠ m.val → t.box j = s.box j) ∧
      (b.owner ≠ agent ∨ n ≠ agent → Goes (.mbxLockWrite m agent n) s s) ∧
      (b.owner = agent → b.pending = false →
        ∃ t, Goes (.mbxDbWrite m agent n) s t ∧ (t.box m).service = n % 65536 ∧ (t.box m).owner = agent ∧
          (t.box m).data = b.data ∧
          (b.receiver < 3 → (t.box m).pending = true ∧ (t.box m).done = false ∧
            ∃ e, t.evq.travelling = s.evq.travelling ++ [e] ∧ e.code = 0x0801 ∧ e.unit = m.val) ∧
          (firmware → served m (n % 65536) = false → (t.box m).pending = false ∧ (t.box m).done = true ∧
            (t.box m).rcode = 0x0CC) ∧
          (firmware → served m (n % 65536) = true → (t.box m).pending = true ∧ (t.box m).done = false ∧ t.evq = s.evq)) ∧
      (b.owner ≠ agent ∨ b.pending = true → Goes (.mbxDbWrite m agent n) s s) ∧
      (b.receiver = agent → b.pending = true →
        Goes (.mbxAckWrite m agent rcode) s (put { b with rcode := rcode.toNat, done := true, pending := false })) ∧
      (b.receiver ≠ agent ∨ b.pending = false → Goes (.mbxAckWrite m agent rcode) s s) ∧
      ((if b.pending then b.receiver = agent else b.owner = agent) →
        Goes (.mbxDataWrite m agent w value) s (put { b with data := mset 0#32 b.data w value })) ∧
      (¬ (if b.pending then b.receiver = agent else b.owner = agent) → Goes (.mbxDataWrite m agent w value) s s)) ∧
    (agent ≠ 0 → (agent = 1 ∨ agent = 2 → s.anyLink = false) →
      ∃ t, Goes (.mbxForced agent) s t ∧ ∀ j, (s.box j).owner = agent →
        (t.box j).owner = 0 ∧ (t.box j).pending = false ∧ (t.box j).data = []) ∧
    (8 ≤ m.val →
      (s.asked m 1 = true → Goes (.echo m) s (put { b with rcode := 0, done := true, pending := false })) ∧
      (∀ k i, s.asked m 2 = true → tfind s.sec.inForce 1 = some (k, i) →
        Goes (.version m) s (put { b with
          rcode := 0, done := true, pending := false
          data := putWordsFrom b.data 0
            [leField i.version 0 4, leField i.version 4 4, leField i.version 8 4, leField i.version 12 4, s.panel.mapGen.toNat] })) ∧
      (s.asked m 3 = true →
        (s.panel.mode ≠ .ready → Goes (.overrun m) s (put { b with rcode := 0x0CD, done := true, pending := false })) ∧
        (s.panel.mode = .ready →
          let v := b.word 0
          ∃ t, Goes (.overrun m) s t ∧ t.box m = { b with rcode := 0, done := true, pending := false } ∧
            t.clock.stretch = !bitOf v 0 ∧ t.clock.hdr = s.clock.hdr ∧ (bitOf v 0 = false →
              t.clock.stretchLen = 256 * if bitsOf v 8 4 = 0 then 16 else bitsOf v 8 4))))

/-- R488, R492, R493, R583 to R587, R601, R603 to R614: each service that stands before firmware is carried out and
answered, or answered with the code of the first reason against it: the security services of MB0 to MB7, the group's,
and the tests of MB8 up. The model's choices of log entries 14, 162 and 163 stand in it. -/
def Obligations.ServicesAreCarriedOutOrRefusedByCode : Prop :=
  ∀ (s : State) (m : Mbx) (header token desc : Option (List (BitVec 8))) (whole keyOk sigOk : Bool) (digest : List (BitVec 8))
    (slot : Fin 4),
    let b := s.box m
    let answers (i : Instr) (code : Nat) := Goes i s (s.ackBox m code)
    let answered (t : State) (code : Nat) := (t.box m).rcode = code ∧ (t.box m).done = true ∧ (t.box m).pending = false
    let sends (t : State) (addr : Nat) (bs : List (BitVec 8)) := ∃ x, tfind t.hif.xfers s.hif.nextTag = some x ∧
      x.use = .mbx m ∧ x.addr = addr ∧ x.data = some (bs.take 256)
    let report := s.report (b.bytes 0 8)
    let fw := Instr.fwUpdate m header whole digest keyOk sigOk
    let ext := Instr.extLoad m header whole digest keyOk sigOk
    let unlock := Instr.debugUnlock m token keyOk sigOk
    (s.secAsked m 0x30 = true →
      (s.sec.scanned = true → answers (.ident m) 0x125) ∧
      (s.sec.scanned = false → ∃ t, Goes (.ident m) s t ∧ sends t (b.addr 0) certificate ∧
        (t.box m).data = putWordsFrom b.data 0 (wordsLe deviceId 4))) ∧
    (s.secAsked m 0x31 = true →
      (s.sec.scanned = true → answers (.attest m) 0x125) ∧
      (s.sec.scanned = false → ∃ t, Goes (.attest m) s t ∧
        (t.box m).data = putWordsFrom b.data 0 [(report ++ signature report).length] ∧
        ∃ k x, tfind t.hif.xfers k = some x ∧ x.use = .mbx m)) ∧
    (s.secAsked m 0x32 = true →
      let code := s.sec.imageCode false (some (b.word 2)) header whole keyOk sigOk
      (s.secBusy m = true → answers fw 0x123) ∧
      (s.secBusy m = false → code ≠ 0 → answers fw code) ∧
      (∀ h, s.secBusy m = false → header = some h → code = 0 →
        let i := parseFw h digest
        let k := s.sec.freeSlot i.type
        ∃ t, Goes fw s t ∧ answered t 0 ∧ tfind t.sec.images (2 * i.type + k) = some i ∧
          tfind t.sec.images (16 + 2 * i.type + k) = some i ∧ t.sec.inForce = s.sec.inForce)) ∧
    (s.secAsked m 0x33 = true → s.secBusy m = false →
      let code := s.sec.imageCode true none header whole keyOk sigOk
      (s.sec.ownerSet = false → answers ext 0x126) ∧
      (s.sec.ownerSet = true → code ≠ 0 → answers ext code) ∧
      (∀ h, s.sec.ownerSet = true → header = some h → code = 0 →
        ∃ t, Goes ext s t ∧ answered t 0 ∧ tfind t.sec.exts (b.word 2 % 4) = some (parseFw h digest) ∧
          t.sec.extFault = s.sec.extFault &&& ~~~(1#4 <<< (b.word 2 % 4)))) ∧
    (s.secAsked m 0x34 = true → ∃ t, Goes (.extUnload m) s t ∧ answered t 0 ∧ t.sec.exts = tdel s.sec.exts (b.word 0 % 4)) ∧
    (s.secAsked m 0x35 = true →
      (s.secBusy m = true → answers (.ownerEnroll m) 0x123) ∧
      (s.secBusy m = false → s.sec.ownerSet = true → answers (.ownerEnroll m) 0x124) ∧
      (s.secBusy m = false → s.sec.ownerSet = false → ∃ t, Goes (.ownerEnroll m) s t ∧ answered t 0 ∧
        t.sec.ownerSet = true ∧ t.sec.bankA.owner = some (b.bytes 0 12) ∧ t.sec.bankB.owner = some (b.bytes 0 12))) ∧
    (s.secAsked m 0x36 = true →
      (s.sec.scanned = true → answers (.debugChallenge m) 0x125) ∧
      (s.sec.scanned = false → ∃ t, Goes (.debugChallenge m) s t ∧ answered t 0 ∧
        t.sec.challenge = some (challengeBytes s.sec.challenges) ∧
        (t.box m).data = putWordsFrom b.data 0 (wordsLe (challengeBytes s.sec.challenges) 4))) ∧
    (s.secAsked m 0x37 = true →
      (s.panel.mode ≠ .ready → answers unlock 0x0CD) ∧
      (s.panel.mode = .ready → s.secBusy m = false →
        (s.sec.challenge = none → answers unlock 0x124) ∧
        (∀ c, s.sec.challenge = some c →
          (s.sec.tokenCode c token keyOk sigOk ≠ 0 → answers unlock (s.sec.tokenCode c token keyOk sigOk)) ∧
          (s.sec.tokenCode c token keyOk sigOk = 0 →
            let scan := leField (token.getD []) 36 1 == 2
            ∃ t, Goes unlock s t ∧ answered t 0 ∧ t.panel.mode = .test ∧ t.sec.challenge = none ∧ t.sec.seedLocked = true ∧
              t.sec.debug = (s.sec.debug || !scan) ∧ t.sec.scan = (s.sec.scan || scan))))) ∧
    (tmem s.sec.exts slot = true → ∃ t e, Goes (.extFault slot) s t ∧ t.sec.exts = tdel s.sec.exts slot ∧
      t.sec.extFault = s.sec.extFault ||| (1#4 <<< slot.val) ∧ t.evq.travelling = s.evq.travelling ++ [e] ∧ e.code = 0x0D02) ∧
    (m.val < 8 → s.asked m 0x10 = true →
      (s.panel.mode ≠ .ready → answers (.groupSet m desc) 0x0CD) ∧
      (s.panel.mode = .ready →
        let rank := bitsOf (b.word 2) 0 12
        (desc = none → answers (.groupSet m desc) 0x0C5) ∧
        (∀ d, desc = some d →
          (groupBad d rank s.zfp.devNum = true → answers (.groupSet m desc) 0x0E2) ∧
          (groupBad d rank s.zfp.devNum = false → ∃ t, Goes (.groupSet m desc) s t ∧ answered t 0 ∧ t.cons.mode = .member ∧
            t.cons.group = leField d 8 4 ∧ t.cons.view = leField d 0xC 4 ∧ t.cons.rank = rank ∧
            t.cons.inc = leField d (0x44 + 8 * rank) 4 ∧ t.cons.spare = decide (s.cons.mode = .fenced) ∧
            t.cons.members = groupMembers d s.clock.now (if s.cons.mode = .fenced then some rank else none))))) ∧
    (m.val < 8 → s.asked m 0x11 = true →
      (s.panel.mode ≠ .ready → answers (.groupLeave m) 0x0CD) ∧
      (s.panel.mode = .ready → ∃ t, Goes (.groupLeave m) s t ∧ answered t 0 ∧ t.cons = s.cons)) ∧
    (8 ≤ m.val → s.asked m 0x20 = true →
      (s.panel.mode ≠ .ready → answers (.selftest m []) 0x0CD) ∧
      (s.panel.mode = .ready → s.lostDies = [] → ∃ t, Goes (.selftest m []) s t ∧ answered t 0 ∧
        ∀ n < 16, (s.stack n).mode ≠ .lost → (t.stack n).sweeping = true)) ∧
    (8 ≤ m.val → s.asked m 0x21 = true →
      let site := bitsOf (b.word 0) 0 8
      let role := s.roleOf site
      (s.panel.mode ≠ .ready ∨ 144 ≤ site ∨ (role ≠ .spare ∧ role ≠ .retired) → answers (.dietest m) 0x0CD) ∧
      (s.panel.mode = .ready → site < 144 → (role = .spare ∨ role = .retired) →
        ∃ t, Goes (.dietest m) s t ∧ t.panel.mode = .test ∧ t.routerUp site = false ∧ tget .off t.panel.die site = .test ∧
          t.boot.test = some ⟨m, site, bitOf (b.word 0) 8, role⟩)) ∧
    (∀ x ok, s.boot.test = some x → x.mbx = m.val → isGw x.site = false →
      ∃ t, Goes (.dieTestEnd [] ok) s t ∧ t.boot.test = none ∧ answered t (if ok then 0 else 0x4111) ∧
        t.roleOf x.site = (if s.roleOf x.site = .dark then .dark else if x.role = .spare ∧ ok = true then .spare else .retired) ∧
        t.panel.mode = if s.panel.mode ≠ .test ∨ s.sec.debug = true ∨ s.sec.scan = true then s.panel.mode else .ready)
/-! ### The step group and the stewards -/

/-- R486, R495, R497, R498, R501, R502, R504, R507, R509: an accepted STATE packet of each sub-kind, and a BEACON, have
their effect on the view and the steps: a trigger starts a change, a PROPOSE is answered, ACKs from more than half of
the live ranks and a COMMIT change the view, a FENCED notice of the own incarnation fences, a GSTEP raises the group's
step, and the partner's notices count; the first beacon of a rank that has joined names its device (R488). The model's choices of log entries 154, 156 and
255 stand in it. -/
def Obligations.GroupPacketsKeepTheViewAndTheSteps : Prop :=
  (∀ (s : State) (rx sub : Nat) (p : Packet), s.takeState rx sub = (s.dropRx rx, some p) →
    let c := s.cons
    let step := leField p.inl 16 8
    let named := statePacketRanks p
    (∀ i cause ranks from_ join,
      ((sub = 1 ∧ i = Instr.suspect rx ∧ cause = 1 ∧ ranks = named ∧ join = none ∧ s.senderRank p = some from_) ∨
        (sub = 6 ∧ i = .join rx ∧ cause = 5 ∧ ranks = [from_] ∧ from_ = leField p.inl 8 2 ∧ join = some (p.srcDev, leField p.inl 12 4) ∧
          ((s.member from_).dev = p.srcDev ∨ (s.member from_).dev = 0xFFFF ∧ from_ < 4096) ∧
          c.heldInc p.srcDev = some (leField p.inl 12 4)) ∨
        (sub = 7 ∧ i = .leave rx ∧ cause = leField p.inl 10 1 ∧ (cause = 1 ∨ cause = 4 ∨ cause = 6) ∧ ranks = [from_] ∧ join = none ∧
          s.senderRank p = some from_) ∨
        (sub = 8 ∧ i = .rewind rx ∧ cause = 2 ∧ ranks = [from_] ∧ join = none ∧ s.senderRank p = some from_)) →
      c.inGroup = true → c.mode = .member → c.rank ∈ c.actors → c.proposal = none →
      c.stillDue ⟨cause, ranks, join⟩ = true → 2 ≤ c.live.length →
      ∃ t r, Goes i s t ∧ t.cons.mode = .changing ∧ t.cons.proposal = some r ∧ r.view = (c.view + 1) % 2 ^ 32 ∧
        r.cause = cause ∧ r.ranks = ranks ∧ r.join = join ∧ r.step = c.groupStep ∧ r.acks = [c.rank] ∧ t.cons.view = c.view ∧
        t.cons.members = c.members ∧ t.job = s.job) ∧
    (sub = 2 → s.fromActor p = true →
      ∃ t, Goes (.propose rx) s t ∧ t.cons.mode = .changing ∧ t.cons.view = c.view ∧ t.stew.c0 = [] ∧ t.job = s.job) ∧
    (sub = 3 → ∀ pr r, c.proposal = some pr → s.senderRank p = some r → (s.member r).live = true →
      leField p.inl 4 4 = c.view → r ∉ pr.acks →
      (2 * (pr.acks.length + 1) ≤ c.live.length → c.mode = .changing →
        ∃ t, Goes (.ack rx) s t ∧ t.cons = { c with proposal := some { pr with acks := r :: pr.acks } } ∧ t.job = s.job) ∧
      (c.live.length < 2 * (pr.acks.length + 1) → c.waiting = [] →
        ∃ t, Goes (.ack rx) s t ∧ t.cons.view = pr.view ∧ t.cons.lastCause = pr.cause ∧ t.cons.proposal = none ∧
          t.cons.resume = pr.step)) ∧
    (sub = 4 → s.fromActor p = true → c.waiting = [] →
      ∃ t, Goes (.commit rx) s t ∧ t.cons.view = leField p.inl 4 4 ∧ t.cons.lastCause = leField p.inl 10 1 ∧
        t.cons.resume = step ∧ t.cons.proposal = none) ∧
    (sub = 5 → c.inGroup = true →
      (leField p.inl 12 4 = c.inc → ∃ t, Goes (.fenced rx) s t ∧ t.cons.mode = .fenced ∧ t.cons.proposal = none ∧
        (s.job.live = true → t.job.running = false) ∧ ∃ e ∈ t.evq.travelling, e.code = 0x0902) ∧
      (leField p.inl 12 4 ≠ c.inc → Goes (.fenced rx) s (s.dropRx rx))) ∧
    (sub = 9 → c.inGroup = true → s.senderRank p = c.coord → c.coord ≠ none → c.coord ≠ some c.rank →
      ∃ t, Goes (.gstep rx) s t ∧ t.cons.groupStep = max c.groupStep step ∧ t.cons.view = c.view ∧ t.job = s.job) ∧
    (s.partnerDev = some p.srcDev →
      (sub = 10 → ∃ t, Goes (.stepLog rx) s t ∧ t.cons.logged = max c.logged step ∧ c.committed ≤ t.cons.committed ∧
        t.cons.view = c.view) ∧
      (sub = 11 → ∃ t, Goes (.apply rx) s t ∧ t.cons = { c with partnerApplied := max c.partnerApplied step } ∧
        t.job = s.job))) ∧
  (∀ (s : State) (rx : Nat) (x : RxPacket), s.rxFor rx 3 = some x → (s.dropRx rx).arrivalDrop x = none →
    let d := x.pkt.inl
    let r := leField d 4 2
    x.pkt.arg = s.cons.group → s.cons.inGroup = true → ((s.member r).dev = x.pkt.srcDev ∨ (s.member r).dev = 0xFFFF) →
    (s.member r).live = true →
    ∃ t, Goes (.beacon rx) s t ∧ (t.member r).dev = x.pkt.srcDev ∧ (t.member r).closed = leField d 8 8 ∧ (t.member r).committed = leField d 16 8 ∧
      (t.member r).seen = s.clock.now ∧ (t.member r).live = true ∧ t.cons.view = s.cons.view ∧ t.job = s.job) ∧
  (∀ s : State, s.cons.inGroup = true → s.cons.silentOff = false → (s.member s.cons.rank).live = true →
    ∃ t, Goes .beaconPeriod s t ∧ t.cons.lastClosed = s.job.closed ∧ t.cons.lastCommitted = s.cons.committed ∧
      t.cons.view = s.cons.view ∧ t.job = s.job)

/-- R57, R391, R478, R479, R485, R494, R497, R499, R505, R510: a steward's first miss restarts it and a second one takes
its unit; a restarted one is back; with no active panel steward for long, beacons stop; a gateway whose router fails
takes its ports and channels along. The engine's time limits: a silent neighbour is suspected, a SUSPECT goes again, a
change that gathers no majority fences, a straggler is marked, and an unanswered request is sent again. The model's
choices of log entries 153 and 155 stand in it. -/
def Obligations.StewardsAndEnginesActOnTheirTimeLimits : Prop :=
  ∀ (s : State) (agent rank n : Nat) (fit : Bool) (added : Nat),
    let w := s.wdt agent
    let c := s.cons
    let event (t : State) (code : Nat) := ∃ e ∈ t.evq.travelling, e.code = code
    (isStewardAgent agent = true → w.out = false →
      (w.restarting = false → w.backAt = none →
        ∃ t, Goes (.stewardWdt agent) s t ∧ t.wdt agent = { w with restarting := true } ∧ event t 0x0901 ∧ t.cores = s.cores) ∧
      (w.restarting = true →
        ∃ t, Goes (.stewardWdt agent) s t ∧ (t.wdt agent).out = true ∧ (t.wdt agent).restarting = false ∧
          (0x30 ≤ agent → agent < 0x40 → (t.stack (agent - 0x30)).mode = .lost) ∧
          (0x20 ≤ agent → agent < 0x28 → ∀ k < 4, (t.port (4 * (agent - 0x20) + k)).mode = .down)) ∧
      (w.restarting = true → 0x20 ≤ agent → agent < 0x100 →
        ∃ t, Goes (.stewardRestartDone agent []) s t ∧ (t.wdt agent).restarting = false ∧
          (t.wdt agent).backAt = some s.clock.now ∧ t.cores = s.cores) ∧
      (w.restarting = true → agent < 0x20 → s.stew.active = none →
        ∃ t, Goes (.stewardRestartDone agent []) s t ∧ (t.wdt agent).restarting = false ∧
          t.stew.active = some (agent == 0x11) ∧ t.cons.gw7 = (agent == 0x11))) ∧
    (s.stew.active = none → ∃ t, Goes .panelStewardSilence s t ∧ t.cons = { c with silentOff := true } ∧
      t.clock.now = max s.clock.now (s.stew.offAt + s.cyclesOf (20000 * usec))) ∧
    (s.stew.active ≠ none → Goes .panelStewardSilence s s) ∧
    (∀ gw : Gateway, s.routerUp (gwSite gw) = true → s.job.phase ≠ .relay →
      (s.job.live = false → ∃ t, Goes (.gatewayRouterFail gw fit added) s t ∧ t.routerUp (gwSite gw) = false ∧
        (∀ k < 4, (t.port (4 * gw + k)).mode = .down ∧ (t.chan (4 * gw + k)).mode = .out) ∧
        (t.wdt (0x20 + gw)).out = true ∧ t.cores = s.cores) ∧
      (s.job.bound = true → ∃ t, Goes (.gatewayRouterFail gw false added) s t ∧ t.job.endCode = some 0x022)) ∧
    (c.inGroup = true → rank ∈ c.monitors → rank ∉ c.suspected →
      ∃ t, Goes (.beaconSilence rank) s t ∧ t.cons.suspected = c.suspected ++ [rank] ∧ t.cons.suspectAt = t.clock.now ∧
        t.clock.now = max s.clock.now ((s.member rank).seen + s.cyclesOf (c.silence * c.beaconUs * usec))) ∧
    (∀ r rest, c.suspected = r :: rest →
      (∃ t, Goes .suspectRetry s t ∧ t.clock.now = max s.clock.now (c.suspectAt + s.cyclesOf (2000 * usec)) ∧
        t.cons.suspected = c.suspected ∧
        t.cons.suspects = (if (∃ x ∈ c.live, x ≠ r ∧ some x ≠ c.suspectTo r) ∧ c.suspects < 0x3FF then c.suspects + 1
          else c.suspects)) ∧
      (c.inGroup = true → ∃ t, Goes .suspectTimeout s t ∧ t.cons.mode = .fenced ∧ event t 0x0902 ∧
        t.clock.now = max s.clock.now (c.suspectAt + s.cyclesOf (4000 * usec)))) ∧
    (∀ p, c.proposal = some p → ∃ t, Goes .proposeTimeout s t ∧ t.cons.mode = .fenced ∧ event t 0x0902 ∧
      t.clock.now = max s.clock.now (p.at_ + s.cyclesOf (2000 * usec))) ∧
    (s.isCoord = true → c.straggle ≠ 0 → (s.member rank).live = true → (s.rankSteps rank).1 < c.allClosed + 1 →
      max c.learned s.job.firstTick + c.deadline + c.straggle ≤ s.clock.tick.toNat → c.pair = false →
      ∃ t, Goes (.stragglerCheck rank) s t ∧ (t.member rank).straggler = true ∧ (t.member rank).noted = c.allClosed + 1 ∧
        t.cons.stragglers = (if (s.member rank).straggler = false ∧ c.stragglers < 0x3FF then c.stragglers + 1
          else c.stragglers) ∧
        ((s.member rank).noted ≠ c.allClosed + 1 → event t 0x0905)) ∧
    (∀ r, tfind s.stew.c0 n = some r → ∃ t, Goes (.c0RequestTimeout n) s t ∧
      t.clock.now = max s.clock.now (r.at_ + s.cyclesOf (100 * usec)) ∧
      tfind t.stew.c0 n = some { r with at_ := t.clock.now } ∧ t.cons = s.cons)
/-! ### Power -/

/-- R511, R639, R648: the input's level decides: a normal input changes nothing else, a small excursion limits the step
and is told once, an undervoltage ends the job and an overvoltage stops every stage 1, after which the media, the map
records and the fuses are what is left; above the absolute maximum the spec gives no behaviour, and the model stops. The
stop and the recovery follow. The model's choices of log entries 171 and 172 stand in it. -/
def Obligations.TheInputsLevelDecides : Prop :=
  ∀ (s : State) (volts : BitVec 16),
    let v := volts.toNat
    let p := s.pwr
    let i := Instr.inputVoltageEvent volts
    let off (t : State) := t.pwr.stopped = true ∧ t.pwr.stopping = false ∧ t.panel.mode = .starting ∧ t.panel.copyA = s.panel.copyA ∧
      t.panel.copyB = s.panel.copyB ∧ t.cores = [] ∧ t.srams = {} ∧ t.plos = State.reset.plos ∧ t.hif = State.reset.hif ∧
      t.zfp = State.reset.zfp ∧ t.job = State.reset.job ∧ t.cons = State.reset.cons ∧ t.nvm.slots = s.nvm.slots ∧
      t.nvm.images = s.nvm.images ∧ t.sec.bankA = s.sec.bankA ∧ t.sec.bankB = s.sec.bankB ∧ t.sec.life = s.sec.life ∧
      t.nvm.sys = s.nvm.sys ∧ t.pending = s.pending
    (7500 < v → exec i s = .fault .absoluteMaximum) ∧
    (6800 < v → v ≤ 7500 → ∃ t, Goes i s t ∧ off t ∧ t.pwr.vin = v) ∧
    (5400 ≤ v → v ≤ 6400 → Goes i s { s with pwr := { p with vin := v, level := .normal, told := false } }) ∧
    ((5000 ≤ v ∧ v < 5400) ∨ (6400 < v ∧ v ≤ 6800) →
      ∃ t, Goes i s t ∧ t.pwr.vin = v ∧ t.pwr.level = .beyond ∧ t.job = s.job ∧ t.cores = s.cores ∧ t.panel = s.panel ∧
        t.mc.tripLow = false ∧
        (p.stopped = true → t.pwr.excursion = p.excursion ∧ t.evq = s.evq) ∧
        (p.stopped = false → t.pwr.excursion = true ∧ t.pwr.told = true ∧ 2 ≤ t.stepWanted ∧
          (p.told = true → t.evq = s.evq) ∧ (p.told = false → ∃ e ∈ t.evq.travelling, e.code = 0x0A01))) ∧
    (v < 5000 → ∃ t, Goes i s t ∧ t.pwr.vin = v ∧ t.pwr.level = .under ∧
      (p.stopped = true → t.job = s.job ∧ t.pwr.stopping = p.stopping) ∧
      (p.stopped = false → t.pwr.stopping = true ∧ (s.job.live = true → t.job.endCode = some 0x0F2))) ∧
    (p.stopping = true → ∃ t, Goes .stage1Stop s t ∧ off t ∧ t.pwr.vin = p.vin) ∧
    (p.stopping = false → Goes .stage1Stop s s) ∧
    (p.level = .normal → Goes .inputRecovery s { s with pwr := { p with excursion := false, stopped := false } }) ∧
    (p.level ≠ .normal → Goes .inputRecovery s s)

/-- R513, R520, R525 to R529, R532: a sample over a limit lowers the cap's step, and 100,000 samples in a row below 90 %
of the cap raise it; a droop trip is counted and told, and the job resumes; a lost controller derates its erg and a
second one darkens it; load migrates away while no job runs; a short takes its erg. The model's choices of log entries
169 and 170 stand in it. -/
def Obligations.CapDroopsAndControllersTakeEffect : Prop :=
  ∀ (s : State) (a b m iin : BitVec 16) (mj : Nat) (site : Site) (sensor : Fin 64) (erg : Erg) (ctrl : Fin 4),
    let p := s.pwr
    let r := s.ergPwr erg
    let event (t : State) (code : Nat) := ∃ e ∈ t.evq.travelling, e.code = code
    let same (t : State) := t.job = s.job ∧ t.cores = s.cores ∧ t.panel = s.panel ∧ t.plos = s.plos ∧ t.srams = s.srams
    (∃ t, Goes (.powerSample a b m iin mj) s t ∧ same t ∧ t.pwr.avg1s = a.toNat ∧ t.pwr.avg10ms = m.toNat ∧ t.pwr.iin = iin.toNat ∧
      t.pwr.energy = (p.energy + mj) % 2 ^ 64 ∧ t.pwr.ergs = p.ergs ∧
      (p.cap < a.toNat ∨ 16500 < b.toNat → t.pwr.capLow = 0 ∧
        (s.clk.step < s.stepWanted → t.pwr.capStep = p.capStep ∧ t.evq = s.evq) ∧
        (s.stepWanted ≤ s.clk.step → t.pwr.capStep = min 5 (s.clk.step + 1) ∧ event t 0x0A02)) ∧
      (a.toNat ≤ p.cap → b.toNat ≤ 16500 → t.evq = s.evq ∧
        (10 * a.toNat < 9 * p.cap → p.capLow < 99999 → t.pwr.capLow = p.capLow + 1 ∧ t.pwr.capStep = p.capStep) ∧
        (10 * a.toNat < 9 * p.cap → 99999 ≤ p.capLow → t.pwr.capLow = 0 ∧ t.pwr.capStep = p.capStep - 1) ∧
        (9 * p.cap ≤ 10 * a.toNat → t.pwr.capLow = 0 ∧ t.pwr.capStep = p.capStep))) ∧
    (let x := s.ergPwr (ergOf site)
      ∃ t, Goes (.droopTrip site sensor) s t ∧ event t 0x0A03 ∧
        (t.ergPwr (ergOf site)).trips = (if x.trips < 0xFF then x.trips + 1 else x.trips) ∧
        (x.trips = 0xFF → (t.ergPwr (ergOf site)).droopOvf = true) ∧
        (s.job.running = false → same t) ∧
        (s.job.running = true → s.job.phase = .running → s.cons.mode ≠ .member →
          (s.job.spec.record = true → s.nvm.valid = true → 0 < s.cons.committed →
            t.job.phase = .restoring ∧ t.job.running = false ∧ t.job.resumeAt = some s.cons.committed) ∧
          (s.job.spec.record = false → t.job.endCode = some ST_CORE_HW))) ∧
    (let y : ErgPwr := { r with ctrlOk := r.ctrlOk &&& ~~~(1#4 <<< ctrl.val) };
      ((r.mode ≠ .up ∧ r.mode ≠ .derated) ∨ r.ctrlOk.getLsbD ctrl = false → Goes (.controllerFail erg ctrl) s s) ∧
      ((r.mode = .up ∨ r.mode = .derated) → r.ctrlOk.getLsbD ctrl = true →
        (2 < y.ctrls → ∃ t, Goes (.controllerFail erg ctrl) s t ∧ same t ∧ event t 0x0A06 ∧
          t.ergPwr erg = { y with mode := .derated, limit := 360 * y.ctrls } ∧ t.pwr.migrate = p.migrate ++ [erg.val] ∧
          (p.derated = [] → s.clk.pending = false → t.pwr.floor = min 5 (s.clk.step + 1)) ∧
          (p.derated ≠ [] → t.pwr.floor = p.floor)) ∧
        (y.ctrls ≤ 2 → ∃ t, Goes (.controllerFail erg ctrl) s t ∧ event t 0x0A07 ∧ (t.ergPwr erg).mode = .dark ∧
          (t.ergPwr erg).ctrlOk = 0#4 ∧ erg.val ∈ t.pwr.dark ∧ erg.val ∉ t.pwr.migrate))) ∧
    (s.startBusy = true ∨ p.migrate = [] → Goes .deratedMigration s s) ∧
    (s.startBusy = false → p.migrate ≠ [] → ∃ t, Goes .deratedMigration s t ∧ t.pwr.migrate = [] ∧ t.pwr.floor ≤ p.floor ∧
      t.pwr.ergs = p.ergs ∧ t.job = s.job) ∧
    (r.mode = .dark ∨ r.mode = .shorted → Goes (.ergShort erg) s s) ∧
    (r.mode ≠ .dark → r.mode ≠ .shorted → ∃ t, Goes (.ergShort erg) s t ∧ event t 0x0A08 ∧ (t.ergPwr erg).mode = .shorted ∧
      (t.ergPwr erg).ctrlOk = 0#4 ∧ erg.val ∈ t.pwr.dark ∧ erg.val ∈ t.pwr.shorted)

/-- R521 to R524: at the end of a window the erg's readings are kept, the forecasts of the next eight windows are made
from the cores' hints, and the phases and the feed-forward offset are set from them; a window above its forecast is
counted, and a sensor's sixteenth window in a row beyond its bound is an anomaly. The model's choices of log entries 16,
176 and 177 stand in it. -/
def Obligations.ForecastWindowsJudgeAndForecast : Prop :=
  ∀ (s : State) (erg : Erg) (current vmin vbus iin : Nat) (droops : List Droop),
    let e := erg.val
    let r := s.ergPwr e
    let w := 64 * (s.clock.now / 64 + 1)
    s.job.live = true →
    ∃ t, Goes (.forecastWindow erg current vmin vbus iin droops) s t ∧
      (let x := t.ergPwr e;
        x.iout = current ∧ x.vmin = vmin ∧ x.vbus = vbus ∧ x.iin = iin ∧ x.limit = 360 * r.ctrls ∧
        x.windows = ((List.range 8).map fun k => t.forecast e (w + 64 * k)) ∧
        x.phases = min (8 * r.ctrls) (Config.phasesFor (x.windows.headD 0)) ∧
        x.feed = Config.feedForward (r.windows.headD 0) (x.windows.headD 0) ∧ x.trips = r.trips ∧ x.mode = r.mode ∧
        x.ctrlOk = r.ctrlOk ∧
        (1000 * current ≤ r.windows.headD 0 + 312500 → x.unhinted = r.unhinted ∧ x.noted = r.noted) ∧
        (r.windows.headD 0 + 312500 < 1000 * current → x.unhinted = (if r.unhinted < 0x7FFF then r.unhinted + 1 else r.unhinted) ∧
          (s.job.running = true → r.noted = false → x.noted = true ∧ ∃ n ∈ t.evq.travelling, n.code = 0x0A04)) ∧
        (4 * current ≤ 1250 ∨ droops = [] → x.anomalies = r.anomalies ∧ x.runs = r.runs ∧ t.pwr.replace = s.pwr.replace) ∧
        (∀ d, droops = [d] → 1250 < 4 * current → d.site < 144 → ergOf d.site = e → d.sensor < 64 →
          2 * d.droop > 3 * d.expected + 10000 → tget 0 r.runs (64 * d.site + d.sensor) = 15 →
          x.anomalies = (if r.anomalies < 0x7FFF then r.anomalies + 1 else r.anomalies) ∧ x.lastSite = d.site ∧
            x.lastSensor = d.sensor ∧ (∃ n ∈ t.evq.travelling, n.code = 0x0A05) ∧
            (tget 0 s.pwr.anoms d.site = 2 → d.site ∈ t.pwr.replace))) ∧
      t.job = s.job ∧ t.cores = s.cores ∧ t.panel = s.panel ∧ t.plos = s.plos ∧ t.srams = s.srams ∧ t.clk = s.clk
/-! ### Clocks, frequency steps and heat -/

/-- R535 to R542: a lost reference input moves the selection to the other or to holdover, and a returned one back; a gateway without PLL
lock forwards no clock until it relocks; a die whose primary is lost takes its secondary, or is declared dead; firmware lays a
clock plan only if with it every die that takes clock has what R537 asks for; a returned clock lets a die's positions rejoin, but
not a gateway's (R57). -/
def Obligations.ClocksFailOverAndReturn : Prop :=
  ∀ (s : State) (b secGood : Bool) (g : Gateway) (site : Site) (links : BitVec 4) (plan : List (Nat × Nat × Option Nat)),
    let c := s.clk
    let mine : RefSel := if b then .refB else .refA
    let other : RefSel := if b then .refA else .refB
    let good (x : Bool) := if x then c.bOk else c.aOk
    let event (t : State) (code : Nat) := ∃ e ∈ t.evq.travelling, e.code = code
    let same (t : State) := t.job = s.job ∧ t.cores = s.cores ∧ t.panel = s.panel ∧ t.plos = s.plos ∧ t.pwr = s.pwr
    let d := s.dieClk site
    (good b = false → Goes (.refclkLoss b) s s) ∧
    (good b = true → ∃ t, Goes (.refclkLoss b) s t ∧ same t ∧ t.clk.aOk = (c.aOk && b) ∧ t.clk.bOk = (c.bOk && !b) ∧
      (good (!b) = false → t.clk.sel = .holdover ∧ t.clk.holdAt = s.clock.now ∧ event t 0x0B01) ∧
      (good (!b) = true → c.sel = mine → t.clk.sel = other ∧ event t 0x0B01) ∧
      (good (!b) = true → c.sel ≠ mine → t.clk.sel = c.sel ∧ t.evq = s.evq)) ∧
    Goes (.refclkReturn true) s { s with clk := { c with bOk := true, sel := if c.aOk then .refA else .refB } } ∧
    Goes (.refclkReturn false) s { s with clk := { c with aOk := true, sel := .refA } } ∧
    (g.val ∈ c.pllOut ∨ s.routerUp (gwSite g) = false → Goes (.pllLockLoss g) s s) ∧
    (g.val ∉ c.pllOut → s.routerUp (gwSite g) = true →
      ∃ t, Goes (.pllLockLoss g) s t ∧ same t ∧ g.val ∈ t.clk.pllOut ∧ t.clk.relayDue = true ∧ event t 0x0B02 ∧
        ∀ k < 4, ∀ n, neighbour (gwSite g) k = some n → (t.dieClk n).link.getLsbD (facing k) = false ∧
          ((s.dieClk n).st = .primary → (s.dieClk n).pri = facing k → (s.dieClk n).sec < 4 → (s.dieClk n).sec ≠ facing k →
            (t.dieClk n).st = .secondary)) ∧
    (g.val ∉ c.pllOut → Goes (.pllRelock g) s s) ∧
    (g.val ∈ c.pllOut → ∃ t, Goes (.pllRelock g) s t ∧ same t ∧ t.evq = s.evq ∧ g.val ∉ t.clk.pllOut ∧
      ∀ k < 4, ∀ n, neighbour (gwSite g) k = some n → (t.dieClk n).link.getLsbD (facing k) = true) ∧
    (isGw site = true ∨ d.st = .off ∨ d.st = .lost → Goes (.primaryClockLoss site secGood links) s s) ∧
    (isGw site = false → d.st = .primary → secGood = true → d.sec ≠ d.pri →
      ∃ t, Goes (.primaryClockLoss site secGood links) s t ∧ same t ∧ t.dieClk site = { d with link := links, st := .secondary } ∧
        t.clk.relayDue = true) ∧
    (isGw site = false → (d.st = .primary ∧ (secGood = false ∨ d.sec = d.pri)) ∨ d.st = .secondary →
      ∃ t, Goes (.primaryClockLoss site secGood links) s t ∧ (t.dieClk site).st = .lost ∧ (t.dieClk site).link = links ∧
        (s.inService site = true → t.roleOf site = .retired ∧ (links = 0#4 → t.routerUp site = false))) ∧
    (s.planFits plan = true ↔ (∀ e ∈ plan, e.1 < 144 ∧ isGw e.1 = false) ∧
      ∀ e ∈ s.wholePlan plan, planGood s.fed (s.wholePlan plan) e = true) ∧
    (s.planFits plan = false → Goes (.clockPlanRelay plan) s s) ∧
    (s.planFits plan = true →
      ∃ t, Goes (.clockPlanRelay plan) s t ∧ same t ∧ t.clk.relayDue = false ∧ (c.relayDue = true → event t 0x0B02) ∧
        (c.relayDue = false → t.evq = s.evq) ∧
        ∀ e ∈ plan, (∀ e' ∈ plan, e'.1 = e.1 → e' = e) → (s.dieClk e.1).st ≠ .lost →
          (t.dieClk e.1).st = .primary ∧ (t.dieClk e.1).pri = e.2.1 ∧ (t.dieClk e.1).sec = e.2.2.getD e.2.1) ∧
    (links = 0#4 → Goes (.clockReturn site links) s s) ∧
    (links ≠ 0#4 → ∃ t, Goes (.clockReturn site links) s t ∧ same t ∧ t.dieClk site = { d with link := links } ∧
      (isGw site = true ∨ s.routerUp site = true ∨ s.roleOf site = .dark → t.clk.rejoin = c.rejoin) ∧
      (isGw site = false → s.routerUp site = false → s.roleOf site ≠ .dark → site.val ∈ t.clk.rejoin))

/-- R543 to R546, R518: host software's limit is taken where it names a step; firmware schedules the step that the limits call for, with the
lead of R545, lowers a pending change where it can and holds back one that cannot be in time; in the first cycle of
its tick, and in no later one, the step takes effect with the setpoints of the new one. -/
def Obligations.StepChangesAreScheduledAndTakeEffect : Prop :=
  ∀ (s : State) (value : BitVec 32),
    let c := s.clk
    let r := bitsOf value.toNat 16 4
    let want := s.stepWanted
    let lead := s.leadTick want
    let same (t : State) := t.job = s.job ∧ t.cores = s.cores ∧ t.panel = s.panel ∧ t.clock = s.clock
    (r ≤ 5 → Goes (.stepRequest value) s { s with clk := { c with req := r } }) ∧
    (5 < r → Goes (.stepRequest value) s s) ∧
    (c.pending = false → want = c.step → Goes .stepChangeRequest s s) ∧
    (c.pending = false → want ≠ c.step → ∃ t, Goes .stepChangeRequest s t ∧ same t ∧ t.evq = s.evq ∧
      t.clk = { c with next := want, pending := true, atTick := BitVec.ofNat 64 lead } ∧
      ∀ e x, tfind s.pwr.ergs e = some x → x.mode = .up → (t.ergPwr e).setpoint = setpointOf (min want c.step)) ∧
    (c.pending = true → want ≤ c.next ∨ (∃ d, c.drop = some d ∧ want ≤ d.1) → Goes .stepChangeRequest s s) ∧
    (c.pending = true → c.next < want → (∀ d, c.drop = some d → d.1 < want) →
      (lead ≤ c.atTick.toNat → ∃ t, Goes .stepChangeRequest s t ∧ same t ∧ t.clk = { c with next := want, drop := none }) ∧
      (c.atTick.toNat < lead → ∃ t, Goes .stepChangeRequest s t ∧ same t ∧
        t.clk = { c with drop := some (want, max lead (c.atTick.toNat + 1)) })) ∧
    (s.clock.now ≠ s.clock.start ∨ c.pending = false ∨ s.clock.tick.toNat < c.atTick.toNat → Goes .stepChange s s) ∧
    (s.clock.now = s.clock.start → c.pending = true → c.atTick.toNat ≤ s.clock.tick.toNat → ∃ t, Goes .stepChange s t ∧ same t ∧ t.clk.step = c.next ∧
      (∃ e ∈ t.evq.travelling, e.code = 0x0B03) ∧
      (c.drop = none → t.clk = { c with step := c.next, pending := false } ∧
        ∀ e x, tfind s.pwr.ergs e = some x → x.mode = .up → (t.ergPwr e).setpoint = setpointOf c.next) ∧
      (∀ d, c.drop = some d → t.clk =
        { c with step := c.next, next := d.1, pending := true, atTick := BitVec.ofNat 64 d.2, drop := none }))

/-- R547 to R550, R553 to R558: a forecast warns, throttles by a step, parks at the slowest, lets go again after 100
cool ones, and stretches half-dies outside normal service; a trip parks the erg or loses the stack and pulls THERMTRIP#;
a parked erg's supply returns once cool, and its sites are swept before they serve; each row in service begins a rotation; the cold plate's state follows its samples. The
model's choices of log entries 169, 184 and 186 stand in it. -/
def Obligations.HeatParksStretchesAndRotates : Prop :=
  ∀ (s : State) (js : List Junction) (unit : Fin 160) (tj : BitVec 8) (erg : Erg) (inlet outlet : Option (BitVec 8)),
    let c := s.clk
    let event (t : State) (code : Nat) := ∃ e ∈ t.evq.travelling, e.code = code
    let normal := s.panel.mode = .ready ∨ s.panel.mode = .running
    let hot (j : Junction) := 105 ≤ junctionHot j + cooler j.unit
    let parked (t : State) (e : Nat) := e ∈ t.clk.parked ∨ (t.ergPwr e).mode = .dark ∨ (t.ergPwr e).mode = .shorted
    let still := ∀ j ∈ js, s.mayStretch j.unit = false ∧ (s.dieClk j.unit).stretchW = 0 ∧ (s.dieClk j.unit).stretchE = 0
    let calm (t : State) := t.job = s.job ∧ t.panel = s.panel ∧ t.plos = s.plos ∧ (still → t.cores = s.cores)
    ((∀ j ∈ js, j.unit < 160) →
      (∃ t, Goes (.thermalForecast js) s t ∧
        (¬ normal → t.clk.thmLimit = c.thmLimit ∧ calm t) ∧
        (normal → (∃ j ∈ js, hot j) → t.clk.cool100 = 0 ∧
          (c.thmLimit < 5 → t.clk.thmLimit = c.thmLimit + 1 ∧ event t 0x0B05 ∧ calm t) ∧
          (5 ≤ c.thmLimit → ∀ j ∈ js, j.unit < 144 → 105 ≤ j.fc → parked t (unitErg j.unit))) ∧
        (normal → (∀ j ∈ js, ¬ hot j) → calm t ∧
          ((∃ j ∈ js, 100 ≤ j.fcFaster + cooler j.unit) → t.clk.cool100 = 0 ∧ t.clk.thmLimit = c.thmLimit) ∧
          ((∀ j ∈ js, j.fcFaster + cooler j.unit < 100) →
            (c.cool100 < 99 → t.clk.cool100 = c.cool100 + 1 ∧ t.clk.thmLimit = c.thmLimit) ∧
            (99 ≤ c.cool100 → t.clk.cool100 = 0 ∧ t.clk.thmLimit = c.thmLimit - 1))) ∧
        (∀ j ∈ js, 95 ≤ junctionHot j + cooler j.unit → (tget {} t.clk.ergs (unitErg j.unit)).warned = true ∧
          ((tget {} c.ergs (unitErg j.unit)).warned = false → event t 0x0B04)) ∧
        (∀ j, js = [j] → j.unit < 144 → (t.dieClk j.unit).tj = min 255 j.tj ∧ (t.dieClk j.unit).fc = min 255 j.fc ∧
          (t.dieClk j.unit).stretchW = (if s.mayStretch j.unit then stretchK (s.dieClk j.unit).stretchW j.west else 0) ∧
          (t.dieClk j.unit).stretchE = (if s.mayStretch j.unit then stretchK (s.dieClk j.unit).stretchE j.east else 0)))) ∧
    (tj.toNat + cooler unit < 115 → Goes (.thermalTrip unit tj) s s) ∧
    (115 ≤ tj.toNat + cooler unit → ∃ t, Goes (.thermalTrip unit tj) s t ∧ t.mc.tripLow = true ∧ event t 0x0B06 ∧
      (144 ≤ unit.val → (t.stack (unit.val - 144)).mode = .lost) ∧
      (unit.val < 144 → unitErg unit ∈ t.clk.tripped ∧ parked t (unitErg unit))) ∧
    (erg.val ∉ c.parked ∨ erg.val ∈ c.tripped ∨ s.startBusy = true ∨ (tget {} c.ergs erg).cool < 1000 ∨
      (s.ergPwr erg).mode ≠ .off → Goes (.ergUnpark erg) s s) ∧
    (erg.val ∈ c.parked → erg.val ∉ c.tripped → s.startBusy = false → 1000 ≤ (tget {} c.ergs erg).cool → (s.ergPwr erg).mode = .off →
      ∃ t, Goes (.ergUnpark erg) s t ∧ erg.val ∉ t.clk.parked ∧ t.clk.relayDue = true ∧
        (t.ergPwr erg).mode = (if (s.ergPwr erg).ctrls = 4 then .up else .derated) ∧
        (t.ergPwr erg).setpoint = setpointOf c.step ∧ (∀ x ∈ ergSites erg, isGw x = false → t.routerUp x = true) ∧
        (∀ x ∈ ergSites erg, isGw x = false → tget .retired s.panel.before x ≠ .retired → (t.dieSweep x).cause = .back ∧
          (t.dieSweep x).left = List.range 104 ∧ t.panel.role = s.panel.role ∧ t.panel.ldSite = s.panel.ldSite)) ∧
    ((∀ l row, s.restOf l row ≤ 12) → ∃ t, Goes .rotationInterval s t ∧ t.job = s.job ∧ t.panel.ldSite = s.panel.ldSite ∧
      t.panel.rest = s.panel.rest ∧
      ∀ ld site, (ld, site) ∈ s.panel.ldSite → (∀ e ∈ s.panel.ldSite, e.1 = ld ∨ e.2 = site → e = (ld, site)) →
        (tget .off s.panel.die site = .ready ∨ tget .off s.panel.die site = .running) → ∀ row < 8,
        s.rowFaultOf site row = none → tfind s.panel.moves (8 * site + row) = none →
        (s.core (pcoreAt site row (s.restOf ld row))).stat.run = .resting →
        ∃ m, tfind t.panel.moves (8 * site + row) = some m ∧ m.phase = .checking ∧ m.rest = s.restOf ld row ∧
          (m.src + 1 = m.rest ∨ m.src = m.rest + 1) ∧ m.src ≤ 12 ∧
          (t.core (pcoreAt site row m.rest)).stat.run = .selfcheck) ∧
    (∃ t, Goes (.waterSample inlet outlet) s t ∧ calm t ∧ t.cores = s.cores ∧
      let i := (inlet.map BitVec.toNat).getD c.inlet
      let o := (outlet.map BitVec.toNat).getD c.outlet
      let both := inlet ≠ none ∧ outlet ≠ none
      let busy := 3000 < s.pwr.avg1s
      t.clk.inlet = i ∧ t.clk.outlet = o ∧ t.clk.thmLimit = c.thmLimit ∧
      (¬ both ∨ 100 < i ∨ (busy ∧ flowBelow 1 (o - i) = true) → t.clk.cooling = .lost) ∧
      (both → i ≤ 100 → 80 < i ∨ (busy ∧ flowBelow 2 (o - i) = true) → (busy → flowBelow 1 (o - i) = false) →
        c.cooling ≠ .lost → t.clk.cooling = .degraded) ∧
      (both → i ≤ 80 → ¬ busy → (c.cooling = .ok → t.clk.cooling = .ok) ∧ (c.cooling = .degraded → 999 ≤ c.worseGone →
        t.clk.cooling = .ok) ∧ (c.cooling = .lost → c.lostGone < 999 → t.clk.cooling = .lost)) ∧
      (t.clk.cooling ≠ c.cooling → t.clk.cooling ≠ .ok → event t 0x0B09) ∧
      (t.clk.cooling = c.cooling ∨ t.clk.cooling = .ok → t.evq = s.evq))
/-! ### Bring-up and broadcast -/

/-- R559, R562, R563, R217, R595, R42, R59, R567, R566, R412: a cold start begins only with the input in range and
nothing started; with no root of trust it ends at step 4, with no usable map record at step 10; otherwise the map is
confirmed and the panel is READY, or SHORT where dies stay unbound. New link settings take the next generation, and both
sides of the system area keep them. The model's choices of log entries 198 and 200 stand in it. -/
def Obligations.ColdStartConfirmsTheMapOrStops : Prop :=
  ∀ (s : State) (f : StartFacts) (es : List (Nat × Nat × List (BitVec 8))),
    let i := Instr.coldStart f
    let event (t : State) (code : Nat) := ∃ e ∈ t.evq.travelling, e.code = code
    let ready := s.panel.mode = .starting ∧ s.pwr.level = .normal ∧ s.pwr.stopped = false ∧ s.pwr.stopping = false ∧
      s.boot.boot = []
    let sec := (s.firmware f).sec.levelBanks
    let image := (sec.choose f.spoiled 1).isSome = true
    (¬ ready → Goes i s s) ∧
    (ready →
      ((f.rootA = false ∧ f.rootB = false) ∨ ¬ image → ∃ t, Goes i s t ∧ t.panel.mode = .starting ∧ t.stew.active = s.stew.active ∧
        (∀ g, g = 0 ∨ g = 7 → tget {} t.boot.boot g = { step := 4, full := t.trainsFull f, code := 0x110, ms := min 0xFFF f.time }) ∧
        (∃ e ∈ t.evq.buffer, e.code = 0x0C01) ∧ t.sec.bankA = t.sec.bankB ∧ t.mc.straps = f.straps.toNat) ∧
      (f.stage1Out = [] → f.ctrls = [] → f.rootA = true → image →
        (s.startRecord f = none → ∃ t, Goes i s t ∧ t.panel.mode = .starting ∧ t.panel.confirmed = s.panel.confirmed ∧
          t.stew.active = some false ∧ (tget {} t.boot.boot 0).step = 10 ∧ (tget {} t.boot.boot 0).code = 0 ∧ event t 0x0102) ∧
        (∀ r b, s.startRecord f = some (r, b) → ∃ t, Goes i s t ∧ t.panel.confirmed = true ∧
          t.panel.mode = (if t.panel.away.isEmpty then .ready else .short) ∧ (t.panel.away ≠ [] → event t 0x0103) ∧ event t 0x0104 ∧
          (tget {} t.boot.boot 0).step = 0xF ∧ (tget {} t.boot.boot 0).code = 0 ∧ t.clock.tick = 0#64 ∧
          t.clock.start = s.clock.now ∧ t.sec.bankA = t.sec.bankB ∧
          (f.silent = [] → f.bist = [] → t.stew.active = some false)))) ∧
    (∃ t, Goes (.settingsWrite es) s t ∧ t.boot.sgen = (if s.boot.sgen = 2 ^ 32 - 1 then 1 else s.boot.sgen + 1) ∧
      t.job = s.job ∧ t.cores = s.cores ∧ t.panel = s.panel ∧
      (∀ e, es = [e] →
        (settingsUnit e.1 e.2.1 = true → e.2.2.length = 12 → t.boot.settings = tput s.boot.settings (256 * e.1 + e.2.1) e.2.2) ∧
        (settingsUnit e.1 e.2.1 = false ∨ e.2.2.length ≠ 12 → t.boot.settings = s.boot.settings)) ∧
      (s.nvm.sysOut = [] → ∀ side : Bool, ∀ p ∈ settingsParts t.boot.sgen t.boot.settings, (2, p) ∈ tget [] t.nvm.sys (b2n side)) ∧
      (let limit := leField (tget [] t.boot.settings (256 * 0x5001 + 0xFF)) 0 4
       (limit = 0 → t.nvm.chans = s.nvm.chans) ∧
       (limit ≠ 0 → ∀ c x, tfind s.nvm.chans c = some x → t.chan c = { x with endurance := limit })))

/-- R572 to R577, R579 to R582, R243: a live retrain ends UP, UP_HALF or FAILED; a D2D link's retrain is counted and a failed
one retires a site; a die that returns from compute reset is READY, and one that does not return in time is dead. The
model's choices of log entries 196 and 213 stand in it. -/
def Obligations.RetrainsAndComputeResetsEnd : Prop :=
  ∀ (s : State) (link : Fin 96) (pass full : Bool) (lanes : BitVec 8) (peer : BitVec 16) (site : Site) (dir : Fin 4)
    (errors : BitVec 16) (imageOk bistOk : Bool),
    let k := link.val
    let i := Instr.retrainDone link pass full lanes peer
    let event (t : State) (code : Nat) := ∃ e ∈ t.evq.travelling, e.code = code
    let d := tget .off s.panel.die site
    (k < 34 →
      ((s.port k).mode ≠ .training ∨ (s.port k).live = false → Goes i s s) ∧
      ((s.port k).mode = .training → (s.port k).live = true →
        (pass = true ∨ full = true → ∃ t, Goes i s t ∧ (t.port k).live = false ∧ (t.port k).lanesOk = lanes ∧
          (t.port k).mode = (if lanes.toNat = allLanes k then .up else if halfGood k lanes.toNat then .upHalf else .failed)) ∧
        (pass = false → full = false → ∃ t, Goes i s t ∧ (t.port k).mode = .failed ∧ (t.port k).live = false ∧ event t 0x0C02))) ∧
    (34 ≤ k → k < 64 → Goes i s s) ∧
    (64 ≤ k →
      (((s.chan (k - 64)).mode ≠ .up ∧ (s.chan (k - 64)).mode ≠ .training) ∨ s.gwServes ((k - 64) / 4) = false → Goes i s s) ∧
      ((s.chan (k - 64)).mode = .up ∨ (s.chan (k - 64)).mode = .training → s.gwServes ((k - 64) / 4) = true →
        (pass = true ∨ full = true → ∃ t, Goes i s t ∧ t.chan (k - 64) = { s.chan (k - 64) with mode := .up } ∧ t.evq = s.evq) ∧
        (pass = false → full = false → ∃ t, Goes i s t ∧ (t.chan (k - 64)).mode = .failed ∧ event t 0x0C02))) ∧
    (neighbour site dir = none → Goes (.d2dRetrain site dir pass errors) s s) ∧
    (∀ n, neighbour site dir = some n →
      let q := tget {} s.boot.qual (4 * site + dir)
      let v := s.linkVictim site n
      (s.startBusy = true ∨ s.routerUp site = false ∨ s.routerUp n = false → Goes (.d2dRetrain site dir pass errors) s s) ∧
      (s.startBusy = false → s.routerUp site = true → s.routerUp n = true →
        ∃ t, Goes (.d2dRetrain site dir pass errors) s t ∧
          tget {} t.boot.qual (4 * site + dir) =
            { st := if pass then .pass else .fail, retrains := min 0xFF (q.retrains + 1), errors := min 0xFFFF errors.toNat } ∧
          (pass = true → t.panel = s.panel ∧ t.evq = s.evq ∧ t.cores = s.cores) ∧
          (pass = false → event t 0x0C02 ∧ (isGw v = false → s.roleOf v ≠ .dark → t.roleOf v = .retired ∧ t.routerUp v = false)))) ∧
    (d ≠ .computeReset ∨ imageOk = false ∨ bistOk = false → Goes (.computeResetDone site imageOk bistOk) s s) ∧
    (d = .computeReset → imageOk = true → bistOk = true → ∃ t, Goes (.computeResetDone site imageOk bistOk) s t ∧
      tget .off t.panel.die site = .ready ∧ t.panel.resetAt = tdel s.panel.resetAt site ∧ t.clock = s.clock ∧
      (s.job.phase ≠ .waitDie → t.job = s.job ∧ t.cores = s.cores) ∧
      (s.job.phase = .waitDie → s.stretchBars = false → t.job.phase = (if t.diesBusy then .waitDie else .ready)) ∧
      (s.job.phase = .waitDie → s.stretchBars = true → s.job.started = false → t.job.phase = .none_)) ∧
    (d ≠ .computeReset ∨ tfind s.panel.resetAt site = none → Goes (.computeResetTimeout site) s s) ∧
    (∀ at_, d = .computeReset → tfind s.panel.resetAt site = some at_ → ∃ t, Goes (.computeResetTimeout site) s t ∧
      t.clock.now = max s.clock.now (at_ + s.cyclesOf (5000 * usec)) ∧
      (s.inService site = true → t.roleOf site = .retired ∧ tget .off t.panel.die site = .fenced))

/-- R588 to R593, R353: a gateway opens one transfer at a time, with its unit computing the CHECK; a receiver keeps the packets that it hears, a code image's
going into instruction memory; at the end it reports what it misses; a transfer closes once every report is whole, goes
into up to three repair rounds, and after them gives up the receivers that are not whole. The model's choices of log
entries 214 and 256 stand in it. -/
def Obligations.BroadcastTransfersReachTheirReceivers : Prop :=
  ∀ (s : State) (g : Gateway) (obj : BitVec 8) (image : Nat) (object : List (BitVec 8)) (sites plos heard : List Nat)
    (unit : Fin 160) (num : BitVec 15) (bytes : List (BitVec 8)),
    let packets := (object.length + 255) / 256
    let o := obj.toNat
    let n := num.toNat
    let xfer := tget 0 s.boot.nextXfer g
    let check : CvuReq := { node := nodeAt (gwSite g) 1, rseq := xfer % 65536, mode := 1, alg := true, expect := none }
    let a := Instr.bcastAnnounce g obj image object sites plos heard
    let data := Instr.bcastData g unit num bytes
    let put (t : BcastRec) : State := { s with boot := { s.boot with xfers := tput s.boot.xfers g t } }
    let kept := (bytes ++ List.replicate 256 0#8).take 256
    (s.gwServes g = false ∨ s.xferAt g ≠ none ∨ o < 1 ∨ 7 < o ∨ packets < 1 ∨ 32766 < packets → Goes a s s) ∧
    (s.gwServes g = true → s.xferAt g = none → 1 ≤ o → o ≤ 7 → 1 ≤ packets → packets ≤ 32766 →
      ((s.cvu g).busy ≠ none → 8 ≤ (s.cvu g).queue.length → Goes a s (s.cvuRefused g)) ∧
      ((s.cvu g).busy = none ∨ (s.cvu g).queue.length < 8 → ∃ t x, Goes a s t ∧ t.xferAt g = some x ∧ x.xfer = xfer ∧ x.obj = o ∧ x.object = object ∧ x.round = 0 ∧
        x.mapGen = (if o = 5 ∨ o = 7 then s.job.hdr.mapGen else 0) ∧ tget 0 t.boot.nextXfer g = (xfer + 1) % 2 ^ 32 ∧
        (∀ u, tfind x.recv u = some {} ↔ (u ∈ sites ∧ u < 144) ∨ (144 ≤ u ∧ u - 144 ∈ plos ∧ u < 160)) ∧
        (∀ u ∈ sites, u < 144 → u ∈ heard → s.hears u = true →
          tget {} t.boot.bcast u = { result := 1, rounds := 0, xfer := xfer % 65536 }) ∧ t.cores = s.cores ∧ t.job = s.job ∧
        ((s.cvu g).busy = none → (s.cvu g).queue = [] → s.zfp.sends = [] → s.zfp.committing = false →
          t.cvu g = (({ s.cvu g with busy := some check } : CvuRec).post check 1 object.length (crc64 object).toNat).next))) ∧
    (s.xferAt g = none → Goes data s s ∧ Goes (.bcastEnd g unit) s s ∧ Goes (.bcastReport g unit) s s ∧ Goes (.reportWaitExpiry g) s s) ∧
    (∀ x, s.xferAt g = some x →
      (tfind x.recv unit = none → Goes data s s ∧ Goes (.bcastEnd g unit) s s ∧ Goes (.bcastReport g unit) s s) ∧
      (∀ r, tfind x.recv unit = some r →
        (x.packets ≤ n ∨ s.hears unit = false ∨ r.whole = true → Goes data s s) ∧
        (n < x.packets → s.hears unit = true → r.whole = false →
          let y : BcastRec := { x with recv := tput x.recv unit { r with got := tput r.got n kept } }
          (x.obj ≠ 5 ∨ 144 ≤ unit.val ∨ 256 ≤ n → Goes data s (put y)) ∧
          (x.obj = 5 → unit.val < 144 → n < 256 → ∃ t, Goes data s t ∧ t.boot = (put y).boot ∧ t.cores = s.cores ∧
            ∀ p ∈ s.imageCores unit x.image, ∀ i < 8, BitVec.ofNat 256 (leField kept (32 * i) 32) ≠ 0#256 →
              tget 0#256 t.srams.imem (imKey p (8 * n + i)) = BitVec.ofNat 256 (leField kept (32 * i) 32))) ∧
        (s.hears unit = false ∨ r.whole = true → Goes (.bcastEnd g unit) s s) ∧
        (s.hears unit = true → r.whole = false → ∃ t, Goes (.bcastEnd g unit) s t ∧
          t.xferAt g = some { x with recv := tput x.recv unit (x.judge r) } ∧
          (unit.val < 144 → (tget {} t.boot.bcast unit).result = (if (x.judge r).whole then 2 else 1) ∧
            (tget {} t.boot.bcast unit).xfer = x.xfer % 65536)) ∧
        (r.ready = none → Goes (.bcastReport g unit) s s) ∧
        (∀ y, r.ready = some y → ∃ t, Goes (.bcastReport g unit) s t ∧
          let rs := tput x.recv unit { r with ready := none, reported := some y }
          ((∀ e ∈ rs, e.2.done = true) → t.boot = { s.boot with xfers := tdel s.boot.xfers g } ∧ t.cores = s.cores) ∧
          ((∃ e ∈ rs, e.2.done = false) → t.xferAt g = some { x with recv := rs }))) ∧
      (let rs := tfilter (fun u _ => !s.gone u) x.recv
       ((∀ e ∈ rs, e.2.done = true) → ∃ t, Goes (.reportWaitExpiry g) s t ∧ t.boot = { s.boot with xfers := tdel s.boot.xfers g }) ∧
       ((∃ e ∈ rs, e.2.done = false) →
        (x.round < 3 → ∃ t y, Goes (.reportWaitExpiry g) s t ∧ t.xferAt g = some y ∧ y.round = x.round + 1 ∧
          y.object = x.object ∧ t.evq = s.evq ∧
          ∀ e ∈ rs, e.2.done = false → e.1 < 144 → (tget {} t.boot.bcast e.1).rounds = x.round + 1) ∧
        (3 ≤ x.round → ∃ t, Goes (.reportWaitExpiry g) s t ∧ t.boot.xfers = tdel s.boot.xfers g ∧
          (∃ e ∈ t.evq.travelling, e.code = 0x0C03) ∧
          ∀ e ∈ rs, e.2.done = false → (e.1 < 144 → (tget {} t.boot.bcast e.1).result = 3) ∧
            (144 ≤ e.1 → (t.stack (e.1 - 144)).mode = .lost)))))
/-! ### Registers and upkeep -/

/-- R9 to R14, R550, R623, R625, R626: writes take effect in whole, in range and where the writer may write; the low
word of a read latches the high one, and the low word of a write is held for the high one; an overflow flag is cleared
with the event counters of its register. The model's choices of log entries 51, 52 and 54 stand in it. -/
def Obligations.RegisterAccessesFollowTheirRules : Prop :=
  ∀ (s : State) (a : RegAccess) (value : BitVec 32),
    let v := value.toNat
    let write := Instr.registerWrite a value
    let may := mayWrite a.agent a.off = true
    let only (t : State) := t.cores = s.cores ∧ t.panel = s.panel ∧ t.job = s.job ∧ t.plos = s.plos ∧ t.srams = s.srams ∧ t.hif = s.hif ∧
      t.clock = s.clock ∧ t.latches = s.latches
    (mayWrite a.agent a.off = false → Goes (.ovfClear a) s s) ∧
    (a.off % 4 ≠ 0 ∨ s.partAt a.off = .absent → Goes write s s) ∧
    (may →
      (a.off = 0x300010 → Goes (.ovfClear a) s { s with clk := { s.clk with rotOvf := false, skips := 0 } }) ∧
      (a.off = 0x103010 → Goes (.ovfClear a) s { s with evq := { s.evq with ovf := false, lost := 0 } }) ∧
      (∀ k < 7, a.off = 0x2010 + 4 * k → ∃ t, Goes (.ovfClear a) s t ∧ only t ∧
        t.bgAct k = { s.bgAct k with ovf := false, missed := 0 }) ∧
      (∀ p < 32, a.off = 0x400008 + 0x400 * p → ∃ t, Goes (.ovfClear a) s t ∧ only t ∧
        t.port p = { s.port p with fecOvf := false, corr := 0, uncorr := 0 }) ∧
      (∀ p < 32, a.off = 0x400010 + 0x400 * p → ∃ t, Goes (.ovfClear a) s t ∧ only t ∧
        t.port p = { s.port p with retryOvf := false, replays := 0, downs := 0 }) ∧
      (∀ c < 32, a.off = 0x500008 + 0x100 * c → ∃ t, Goes (.ovfClear a) s t ∧ only t ∧
        t.chan c = { s.chan c with ovf := false, tier1 := 0, tier2 := 0, tier3 := 0, tier4 := 0, uncorr := 0 }) ∧
      (∀ e < 16, a.off = 0x20100C + 0x40 * e → ∃ t, Goes (.ovfClear a) s t ∧ only t ∧
        t.ergPwr e = { s.ergPwr e with droopOvf := false, unhinted := 0, trips := 0 }) ∧
      (a.off = 0x200008 →
        (2000 ≤ v % 65536 ∧ v % 65536 ≤ 15000 → Goes write s { s with pwr := { s.pwr with cap := v % 65536 } }) ∧
        (v % 65536 < 2000 ∨ 15000 < v % 65536 → Goes write s s)) ∧
      (a.off = 0x2000 →
        (s.panel.mode = .ready ∧ v % 64 ≠ 0 → Goes write s { s with bg := { s.bg with spacing := v % 64 } }) ∧
        (s.panel.mode ≠ .ready ∨ v % 64 = 0 → Goes write s s)) ∧
      (a.off = 0x300004 →
        (bitsOf v 16 4 ≤ 5 → Goes write s { s with clk := { s.clk with req := bitsOf v 16 4 } }) ∧
        (5 < bitsOf v 16 4 → Goes write s s)) ∧
      (a.off = 0x300010 → s.panel.mode = .ready → bitOf v 15 = false →
        Goes write s { s with clk := { s.clk with rotMs := bitsOf v 16 16 } }) ∧
      (a.off = 0x300010 → s.panel.mode ≠ .ready → bitOf v 15 = false → Goes write s s) ∧
      (a.off = 0x408010 → Goes write s { s with zfp := { s.zfp with check := BitVec.ofNat 32 v } })) ∧
    (∀ w, a.off % 4 = 0 → lockAt a.off = none → mayRead a.agent a.off = true → mbxShut a.agent a.off = false →
      (s.syncReg a.off).reg a.off = some (8, w) →
      Goes (.lowWordRead a) s { s.syncReg a.off with
        latches := { s.latches with latch := tput s.latches.latch a.agent (a.off, BitVec.ofNat 32 (w / 2 ^ 32)) } }) ∧
    (a.off % 4 = 0 → lockAt a.off = none → mayRead a.agent a.off = false → Goes (.lowWordRead a) s s) ∧
    (∀ w, s.reg a.off = some (8, w) →
      (isRw64 a.off = true → may → Goes (.lowWordWrite a value) s
        { s with latches := { s.latches with heldLow := tput s.latches.heldLow a.agent (a.off, value) } }) ∧
      (isRw64 a.off = false ∨ ¬ may → Goes (.lowWordWrite a value) s
        { s with latches := { s.latches with heldLow := tdel s.latches.heldLow a.agent } })) ∧
    (a.off = 0x103004 → ∃ t, Goes (.highWordWrite a value) s t ∧ t.panel = s.panel ∧ t.cores = s.cores ∧
      (∀ low, s.latches.heldFor a.agent 0x103000 = some low →
        t.evq = { s.evq with base := (low + v * 2 ^ 32) / 4096 * 4096 } ∧
        t.latches = { s.latches with heldLow := tdel s.latches.heldLow a.agent }) ∧
      (s.latches.heldFor a.agent 0x103000 = none →
        t.evq = { s.evq with base := (s.evq.base % 2 ^ 32 + v * 2 ^ 32) / 4096 * 4096 } ∧ t.latches = s.latches)) ∧
    (a.off = 0x40800C → ∃ t, Goes (.highWordWrite a value) s t ∧ t.evq = s.evq ∧ t.cores = s.cores ∧
      (∀ low, s.latches.heldFor a.agent 0x408008 = some low → t.zfp = { s.zfp with flipTick := BitVec.ofNat 64 (low + v * 2 ^ 32) } ∧
        t.latches = { s.latches with heldLow := tdel s.latches.heldLow a.agent }))

/-- R627 to R632, R396: EVQ_CTL starts an empty ring of a legal size and is fixed while it is enabled; an EVENT flit
reaches the active panel steward, which buffers it or counts it as lost; the steward writes its next entry, EV_EVQ_LOST
before any other after a loss. The model's choices of log entries 59 and 60 stand in it. -/
def Obligations.EventsAreQueuedAndWritten : Prop :=
  ∀ (s : State) (value : BitVec 32),
    let v := value.toNat
    let q := s.evq
    let ctl := Instr.evqCtlWrite value
    let n := v % 16
    (q.enable = true → Goes ctl s { s with evq := { q with enable := bitOf v 31 } }) ∧
    (q.enable = false →
      (n < 8 → Goes ctl s s) ∧
      (8 ≤ n → bitOf v 31 = true → Goes ctl s { s with evq := { q with enable := true, size := n, head := 0, tail := 0, seq := 0 } }) ∧
      (8 ≤ n → bitOf v 31 = false → Goes ctl s { s with evq := { q with size := n } })) ∧
    Goes (.evqHeadWrite value) s { s with evq := { q with head := v % 32768 } } ∧
    (q.travelling = [] ∨ s.stew.active = none → Goes .eventFlit s s) ∧
    (∀ e rest, q.travelling = e :: rest → s.stew.active ≠ none →
      (q.buffer.length + e.entries.length ≤ 1024 → forwardClass e.code = none →
        Goes .eventFlit s { s with evq := { q with travelling := rest, buffer := q.buffer ++ e.entries } }) ∧
      (1024 < q.buffer.length + e.entries.length → ∃ t, Goes .eventFlit s t ∧ t.evq.buffer = q.buffer ∧
        t.evq.lostSince = q.lostSince + e.entries.length ∧ t.cores = s.cores ∧ t.job = s.job) ∧
      (q.buffer.length + e.entries.length ≤ 1024 → ∃ t, Goes .eventFlit s t ∧ t.evq.buffer = q.buffer ++ e.entries ∧
        t.evq.lostSince = q.lostSince ∧ t.cores = s.cores ∧ t.job = s.job)) ∧
    (s.mayWriteEvent = false ∨ s.stew.active = none → Goes .eventWrite s s) ∧
    (s.mayWriteEvent = true → s.stew.active ≠ none →
      (q.lostSince = 0 → q.buffer = [] → Goes .eventWrite s s) ∧
      (∀ e rest, q.buffer = e :: rest → q.lostSince = 0 ∨ e.second = true → ∃ t, Goes .eventWrite s t ∧
        t.evq = { q with buffer := rest, tail := (q.tail + 1) % 2 ^ q.size, seq := (q.seq + 1) % 65536 } ∧
        (∃ k x, tfind t.hif.xfers k = some x ∧ x.addr = q.base + 32 * q.tail + 4 ∧ x.data = some e.rest) ∧
        (∃ k x, tfind t.hif.xfers k = some x ∧ x.addr = q.base + 32 * q.tail ∧
          x.data = some (leBytes 2 e.code ++ leBytes 2 q.seq))) ∧
      (0 < q.lostSince → (∀ e ∈ q.buffer.head?, e.second = false) → ∃ t, Goes .eventWrite s t ∧
        t.evq = { q with lostSince := 0, tail := (q.tail + 1) % 2 ^ q.size, seq := (q.seq + 1) % 65536 } ∧
        ∃ k x, tfind t.hif.xfers k = some x ∧ x.addr = q.base + 32 * q.tail ∧ x.data = some (leBytes 2 0x0E04 ++ leBytes 2 q.seq)))

/-- R616 to R621, R82, R303, R645, R649: a unit of background work is served, scrub's corrections included, and a period that ends with work left is
counted and told; the module answers block reads at its own address and no write; a removed carrier takes its channels out of
service until the next cold start. -/
def Obligations.UpkeepAndTheModuleTakeEffect : Prop :=
  ∀ (s : State) (act : Fin 7) (served unit granule work : Nat) (u : BitVec 16) (addr : BitVec 7) (code : BitVec 8)
    (bytes : List (BitVec 8)) (bay : Fin 8),
    let k := act.val
    let a := s.bgAct k
    let bg := Instr.backgroundUnit act served unit granule
    (∃ t, Goes bg s t ∧ (t.bgAct k).work = a.work - served ∧ (t.bgAct k).left = a.left ∧ (t.bgAct k).missed = a.missed ∧
      (a.work ≤ served → (t.bgAct k).urgent = false) ∧ (served < a.work → (t.bgAct k).urgent = a.urgent) ∧
      ((t.bgAct k).total ≠ 0 → (t.bgAct k).donePct = 100 * (a.total - (a.work - served)) / a.total) ∧ (k ≠ 4 → t.job = s.job) ∧
      (k ≠ 0 → k ≠ 4 → t.cores = s.cores ∧ t.srams = s.srams ∧ t.plos = s.plos ∧
        (k = 5 → 0 < a.work → a.work ≤ served → t.nvm = { s.nvm with stripes := tmap (fun _ x => { x with lost := [] }) s.nvm.stripes }) ∧
        (k = 6 → 0 < a.work → a.work ≤ served → tget 0 t.mc.mirror 1 = s.panelStateReg ∧ tget 0 t.mc.mirror 6 = s.clk.waterReg)) ∧
      (k = 0 → granule < 34816 → 32768 ≤ granule → unit < 14976 → isGw (pSite unit) = false →
        let m := s.sync unit
        let c := (m.core unit).count.corr
        tget 0 m.srams.imemFlips (imKey unit (granule - 32768)) = 1 → twf 0 m.srams.imemFlips = true →
        tget 0 t.srams.imemFlips (imKey unit (granule - 32768)) = 0 ∧
        (t.core unit).count.corr = (if c < 0x7FFF then c + 1 else c))) ∧
    (∃ t, Goes (.periodEnd act u work) s t ∧ (t.bgAct k).work = a.work + work ∧ (t.bgAct k).total = a.work + work ∧
      (t.bgAct k).left = bgPeriod k s.nvm.patrolDays ∧ (t.bgAct k).urgent = false ∧ (t.bgAct k).donePct = 0 ∧
      t.cores = s.cores ∧ t.job = s.job ∧ t.panel = s.panel ∧
      (a.work = 0 → (t.bgAct k).missed = a.missed ∧ t.evq = s.evq) ∧
      (a.work ≠ 0 → (t.bgAct k).missed = (if a.missed < 0xFF then a.missed + 1 else a.missed) ∧
        ∃ e ∈ t.evq.travelling, e.code = 0x0E02 ∧ e.unit = k ∧ e.data = evData [(1, k), (2, u.toNat)])) ∧
    (let reads (x : Option (List (BitVec 8))) : Prop := Goes (.smbusBlockRead addr code) s { s with mc := { s.mc with reply := x } }
     (s.pwr.vin < 5400 ∨ addr.toNat ≠ 0x58 + s.mc.straps % 4 → reads none) ∧
     (5400 ≤ s.pwr.vin → addr.toNat = 0x58 + s.mc.straps % 4 →
       (code = 0#8 → reads (some (4#8 :: leBytes 4 panelIdReg))) ∧
       (code = 2#8 → reads (some (4#8 :: leBytes 4 s.pwr.inReg))) ∧
       (code.toNat ≤ 9 → code ≠ 0#8 → code ≠ 2#8 →
         reads (some (4#8 :: leBytes 4 (tget (s.mirrorReset code.toNat) s.mc.mirror code.toNat)))) ∧
       (9 < code.toNat → reads (some [0#8])))) ∧
    Goes (.smbusWrite addr code bytes) s { s with mc := { s.mc with reply := none } } ∧
    (∃ t, Goes (.carrierRemoved bay) s t ∧ bay.val ∈ t.mc.removed ∧ t.cores = s.cores ∧ t.job = s.job ∧
      ∀ j < 4, (t.chan (4 * bay.val + j)).mode = .out ∧ (t.chan (4 * bay.val + j)).targets = 0#8) ∧
    Goes (.carrierInserted bay) s s
/-! ### The whole machine -/

/-- One step runs the command at the front of the queue on the state with the queue's rest; with an empty queue one
cycle passes. The model's choice of log entry 1 stands in it. -/
def Obligations.TheFrontCommandIsExecuted : Prop :=
  (∀ (i : Instr) (s : State), step { s with pending := i :: s.pending } = exec i s) ∧
  (∀ s : State, s.pending = [] → step s = .next { s with clock := { s.clock with now := s.clock.now + 1 } })

/-- What the spec's register tables give for reset: nothing is started, no core, job, stream or command exists, and the
registers hold their reset values; every memory is in its canonical form and every register with a range is in it. The
model's choice of log entry 4 stands in it. -/
def Obligations.ResetIsAsTheSpecSays : Prop :=
  let s := State.reset
  s.panel.mode = .starting ∧ s.panel.confirmed = false ∧ s.clock.tick = 0#64 ∧ s.pwr.cap = 15000 ∧ s.pwr.energy = 0 ∧ s.clk.step = 0 ∧
    s.clk.req = 0 ∧ s.clk.rotMs = 20 ∧ s.bg.spacing = 4 ∧ s.evq.size = 8 ∧ s.evq.enable = false ∧ s.evq.seq = 0 ∧ s.nvm.patrolDays = 7 ∧
    s.zfp.devNum = 0xFFFF ∧ s.job.live = false ∧ s.pending = [] ∧ s.clock.hdr.len = 4096 ∧ s.clock.hdr.quiet = 4096 ∧
    (∀ p, (s.core p).fault.valid = false ∧ (s.core p).ctl.pc = 0) ∧ (∀ k, Memory.read s.srams.spad k = 0#8) ∧
    (∀ n, (s.stack n).mode = .off) ∧ (∀ q i, (s.status q i).st = .empty) ∧ (∀ m, (s.box m).owner = 0) ∧
    (∀ e, (s.ergPwr e).mode = .off) ∧ s.inRange ∧ s.memWf = true

/-- R513, R543, R619, R627, R217, R218: from every state, reached or not, a step takes exactly the front command off the
queue, leaves the registers with a range in it, and moves TICK only at a boundary, at a cold start or when the power
stops. The model's choice of log entry 1 stands in it. -/
def Obligations.EveryStepKeepsTheQueueTheRangesAndTheTick : Prop :=
  ∀ s t : State, step s = .next t →
    t.pending = s.pending.tail ∧ (s.inRange → t.inRange) ∧
    ((∀ i ∈ s.pending.head?, movesTick i = false) → t.clock.tick = s.clock.tick)

/-- From every state whose byte memories are in their canonical form, a step leaves them in it: scratchpads, stacks and
the queue space hold no byte twice, none out of order, and none that reads as an unlisted one. The model's choice of log
entry 3 stands in it. -/
def Obligations.EveryStepKeepsTheMemoriesCanonical : Prop :=
  ∀ s t : State, s.memWf = true → step s = .next t → t.memWf = true
end

