-- ==== Sys2Proof/Laws/Tab.lean ====
section
/-! SUPPORT. Reading and writing a sparse table, and the canonical form of byte memory. -/

namespace Sys2Proof.Machine

variable {α : Type}

/-- Keys strictly rising from `lo` on. -/
def Sorted : Nat → Tab α → Prop
  | _, [] => True
  | lo, (k, _) :: r => lo ≤ k ∧ Sorted (k + 1) r

@[simp] theorem tget_tput_self (d : α) (t : Tab α) (k : Nat) (v : α) : tget d (tput t k v) k = v := by
  induction t with
  | nil => simp [tput, tget]
  | cons e r ih =>
    obtain ⟨k', v'⟩ := e
    simp only [tput]
    split
    · simp [tget]
    · split
      · simp [tget]
      · rename_i h1 h2
        have : k' ≠ k := by omega
        simp [tget, this, ih]

theorem tget_tput_other (d : α) (t : Tab α) {k j : Nat} (v : α) (h : j ≠ k) : tget d (tput t k v) j = tget d t j := by
  induction t with
  | nil => simp [tput, tget, Ne.symm h]
  | cons e r ih =>
    obtain ⟨k', v'⟩ := e
    simp only [tput]
    split
    · simp [tget, Ne.symm h]
    · split
      · rename_i h1 h2
        subst h2
        simp [tget, Ne.symm h]
      · simp [tget, ih]

/-- A later write at the same key replaces an earlier one. -/
@[simp] theorem tput_tput (t : Tab α) (k : Nat) (v w : α) : tput (tput t k v) k w = tput t k w := by
  induction t with
  | nil => simp [tput]
  | cons e r ih =>
    obtain ⟨k', v'⟩ := e
    simp only [tput]
    split
    · simp [tput]
    · split
      · simp [tput]
      · rename_i h1 h2
        simp [tput, h1, h2, ih]

theorem wfFrom_sorted [DecidableEq α] {d : α} {lo : Nat} {t : Tab α} (h : wfFrom d lo t = true) : Sorted lo t := by
  induction t generalizing lo with
  | nil => trivial
  | cons e r ih =>
    obtain ⟨k, v⟩ := e
    simp only [wfFrom, Bool.and_eq_true, decide_eq_true_eq] at h
    exact ⟨h.1.1, ih h.2⟩

theorem wfFrom_mono [DecidableEq α] {d : α} {lo lo' : Nat} {t : Tab α} (hle : lo' ≤ lo) (h : wfFrom d lo t = true) :
    wfFrom d lo' t = true := by
  cases t with
  | nil => rfl
  | cons e r =>
    obtain ⟨k, v⟩ := e
    simp only [wfFrom, Bool.and_eq_true, decide_eq_true_eq] at h ⊢
    exact ⟨⟨by omega, h.1.2⟩, h.2⟩

theorem tget_below {d : α} {lo k : Nat} {t : Tab α} (h : Sorted lo t) (hk : k < lo) : tget d t k = d := by
  induction t generalizing lo with
  | nil => rfl
  | cons e r ih =>
    obtain ⟨k', v⟩ := e
    have h1 : k' ≠ k := by have := h.1; omega
    simp only [tget, h1, if_false]
    exact ih h.2 (by have := h.1; omega)

theorem wfFrom_tput [DecidableEq α] {d : α} {lo k : Nat} {v : α} {t : Tab α} (h : wfFrom d lo t = true) (hk : lo ≤ k)
    (hv : v ≠ d) : wfFrom d lo (tput t k v) = true := by
  induction t generalizing lo with
  | nil => simp [tput, wfFrom, hk, hv]
  | cons e r ih =>
    obtain ⟨k', v'⟩ := e
    simp only [wfFrom, Bool.and_eq_true, decide_eq_true_eq] at h
    simp only [tput]
    split
    · rename_i h1
      simp only [wfFrom, Bool.and_eq_true, decide_eq_true_eq]
      exact ⟨⟨hk, by simp [hv]⟩, ⟨by omega, h.1.2⟩, h.2⟩
    · split
      · rename_i h1 h2
        subst h2
        simp only [wfFrom, Bool.and_eq_true, decide_eq_true_eq]
        exact ⟨⟨hk, by simp [hv]⟩, h.2⟩
      · simp only [wfFrom, Bool.and_eq_true, decide_eq_true_eq]
        exact ⟨h.1, ih h.2 (by omega)⟩

theorem wfFrom_tdel [DecidableEq α] {d : α} {lo : Nat} {t : Tab α} (k : Nat) (h : wfFrom d lo t = true) :
    wfFrom d lo (tdel t k) = true := by
  induction t generalizing lo with
  | nil => simpa [tdel] using h
  | cons e r ih =>
    obtain ⟨k', v'⟩ := e
    have h0 := h
    simp only [wfFrom, Bool.and_eq_true, decide_eq_true_eq] at h
    simp only [tdel]
    split
    · exact wfFrom_mono (by omega) h.2
    · simp only [wfFrom, Bool.and_eq_true, decide_eq_true_eq]
      exact ⟨h.1, ih h.2⟩

theorem wfFrom_tfilter [DecidableEq α] {d : α} {lo : Nat} {t : Tab α} (p : Nat → α → Bool) (h : wfFrom d lo t = true) :
    wfFrom d lo (tfilter p t) = true := by
  induction t generalizing lo with
  | nil => simpa [tfilter] using h
  | cons e r ih =>
    obtain ⟨k', v'⟩ := e
    simp only [wfFrom, Bool.and_eq_true, decide_eq_true_eq] at h
    simp only [tfilter]
    split
    · simp only [wfFrom, Bool.and_eq_true, decide_eq_true_eq]
      exact ⟨h.1, ih h.2⟩
    · exact ih (wfFrom_mono (by omega) h.2)

theorem tget_tdel_self {d : α} {t : Tab α} (k : Nat) {lo : Nat} (h : Sorted lo t) : tget d (tdel t k) k = d := by
  induction t generalizing lo with
  | nil => rfl
  | cons e r ih =>
    obtain ⟨k', v'⟩ := e
    simp only [tdel]
    split
    · rename_i h1
      subst h1
      exact tget_below h.2 (by omega)
    · rename_i h1
      simp only [tget, h1, if_false]
      exact ih h.2

theorem tget_tdel_other {d : α} {t : Tab α} {k j : Nat} (h : j ≠ k) : tget d (tdel t k) j = tget d t j := by
  induction t with
  | nil => rfl
  | cons e r ih =>
    obtain ⟨k', v'⟩ := e
    simp only [tdel]
    split
    · rename_i h1
      subst h1
      simp [tget, Ne.symm h]
    · simp [tget, ih]

theorem tget_tfilter {d : α} {t : Tab α} (p : Nat → Bool) (k : Nat) :
    tget d (tfilter (fun k _ => p k) t) k = if p k then tget d t k else d := by
  induction t with
  | nil => simp [tfilter, tget]
  | cons e r ih =>
    obtain ⟨k', v⟩ := e
    by_cases hk : k' = k
    · subst hk
      by_cases hp : p k' = true <;> simp_all [tfilter, tget]
    · by_cases hp : p k' = true <;> simp_all [tfilter, tget]

theorem tget_append_listed {d : α} {t u : Tab α} {k : Nat} (h : tmem t k = true) : tget d (t ++ u) k = tget d t k := by
  induction t with
  | nil => simp [tmem] at h
  | cons e r ih =>
    obtain ⟨k', v⟩ := e
    by_cases hk : k' = k
    · simp [tget, hk]
    · simp_all [tget, tmem]

theorem tget_append_unlisted {d : α} {t u : Tab α} {k : Nat} (h : tmem t k = false) : tget d (t ++ u) k = tget d u k := by
  induction t with
  | nil => rfl
  | cons e r ih =>
    obtain ⟨k', v⟩ := e
    simp_all [tget, tmem]

theorem tmem_tfilter_false {t : Tab α} (p : Nat → Bool) {k : Nat} (h : p k = false) :
    tmem (tfilter (fun k _ => p k) t) k = false := by
  induction t with
  | nil => rfl
  | cons e r ih =>
    obtain ⟨k', v⟩ := e
    by_cases hp : p k' = true
    · have : k' ≠ k := by rintro rfl; simp [h] at hp
      simp [tfilter, hp, tmem, this, ih]
    · simp [tfilter, hp, ih]

theorem tmem_tfillIn (d : α) (f : Nat → α → α) (n lo : Nat) (t : Tab α) (k : Nat) :
    tmem (tfillIn d f n lo t) k = (decide (lo ≤ k) && decide (k < lo + n)) := by
  induction n generalizing lo with
  | zero => rw [Bool.eq_iff_iff]; simp [tfillIn, tmem]; try omega
  | succ n ih =>
    rw [Bool.eq_iff_iff]
    simp [tfillIn, tmem, ih]
    omega

theorem tget_tfillIn (d : α) (f : Nat → α → α) (n lo : Nat) (t : Tab α) (k : Nat) (h1 : lo ≤ k) (h2 : k < lo + n) :
    tget d (tfillIn d f n lo t) k = f k (tget d t k) := by
  induction n generalizing lo with
  | zero => omega
  | succ n ih =>
    by_cases hk : lo = k
    · simp [tfillIn, tget, hk]
    · simp only [tfillIn, tget, hk, if_false]
      exact ih (lo + 1) (by omega) (by omega)

/-- A fill changes the values of its own keys, and no other. -/
theorem tget_tfill (d : α) (f : Nat → α → α) (lo n : Nat) (t : Tab α) (k : Nat) :
    tget d (tfill d f lo n t) k = if lo ≤ k ∧ k < lo + n then f k (tget d t k) else tget d t k := by
  have hlow := tmem_tfilter_false (t := t) (fun k => decide (k < lo)) (k := k)
  unfold tfill
  by_cases h1 : k < lo
  · have hm : tmem (tfillIn d f n lo (tfilter (fun k _ => decide (lo ≤ k) && decide (k < lo + n)) t)) k = false := by
      rw [tmem_tfillIn]; simp; omega
    have hg : tmem (tfilter (fun k _ => decide (lo + n ≤ k)) t) k = false :=
      tmem_tfilter_false (fun k => decide (lo + n ≤ k)) (by simp; omega)
    rw [if_neg (by omega)]
    by_cases hl : tmem (tfilter (fun k _ => decide (k < lo)) t) k = true
    · rw [List.append_assoc, tget_append_listed hl, tget_tfilter]; simp [h1]
    · have hl' := eq_false_of_ne_true hl
      rw [List.append_assoc, tget_append_unlisted hl', tget_append_unlisted hm, tget_tfilter]
      have e := tget_append_unlisted (d := d) (u := []) hl'
      rw [List.append_nil, tget_tfilter] at e
      have h3 : ¬ lo + n ≤ k := by omega
      simp [h1] at e
      simp [h3, e, tget]
  · have hl := hlow (by simp; omega)
    rw [List.append_assoc, tget_append_unlisted hl]
    have hm := tmem_tfillIn d f n lo (tfilter (fun k _ => decide (lo ≤ k) && decide (k < lo + n)) t) k
    have h3 : lo ≤ k := by omega
    by_cases h2 : k < lo + n
    · rw [tget_append_listed (by rw [hm]; simp [h2, h3]), tget_tfillIn _ _ _ _ _ _ h3 h2, if_pos ⟨h3, h2⟩, tget_tfilter]
      simp [h2, h3]
    · rw [tget_append_unlisted (by rw [hm]; simp [h2]), if_neg (fun h => h2 h.2), tget_tfilter]
      have h4 : lo + n ≤ k := by omega
      simp [h4]

/-! ### Byte memory -/

/-- A write keeps the canonical form. -/
theorem Memory.write_wf {m : Memory} (a : Nat) (b : BitVec 8) (h : m.wf = true) : (m.write a b).wf = true := by
  unfold Memory.wf Memory.write mset twf at *
  split
  · exact wfFrom_tdel a h
  · rename_i hb
    exact wfFrom_tput h (Nat.zero_le a) hb

theorem Memory.writeBytes_wf {m : Memory} (a : Nat) (bs : List (BitVec 8)) (h : m.wf = true) :
    (m.writeBytes a bs).wf = true := by
  induction bs generalizing m a with
  | nil => exact h
  | cons b bs ih => exact ih (a + 1) (Memory.write_wf a b h)

theorem Memory.clear_wf {m : Memory} (lo hi : Nat) (h : m.wf = true) : (m.clear lo hi).wf = true :=
  wfFrom_tfilter _ h

/-- What was written is read back. -/
@[simp] theorem Memory.read_write_self {m : Memory} (a : Nat) (b : BitVec 8) (h : m.wf = true) :
    (m.write a b).read a = b := by
  unfold Memory.read Memory.write mset
  split
  · rename_i hb
    rw [hb]
    exact tget_tdel_self a (wfFrom_sorted (lo := 0) h)
  · exact tget_tput_self _ _ _ _

/-- Every other byte reads as before. -/
theorem Memory.read_write_other {m : Memory} {a j : Nat} (b : BitVec 8) (hj : j ≠ a) :
    (m.write a b).read j = m.read j := by
  unfold Memory.read Memory.write mset
  split
  · exact tget_tdel_other hj
  · exact tget_tput_other _ _ _ hj

/-- A byte outside the written ones reads as before. -/
theorem Memory.read_writeBytes_other {m : Memory} {a j : Nat} {bs : List (BitVec 8)} (hj : j < a ∨ a + bs.length ≤ j) :
    (m.writeBytes a bs).read j = m.read j := by
  induction bs generalizing m a with
  | nil => rfl
  | cons b bs ih =>
    simp only [List.length_cons] at hj
    rw [Memory.writeBytes, ih (by omega)]
    exact Memory.read_write_other b (by omega)

/-- Written bytes are read back in their order. -/
theorem Memory.readBytes_writeBytes {m : Memory} (a : Nat) (bs : List (BitVec 8)) (h : m.wf = true) :
    (m.writeBytes a bs).readBytes a bs.length = bs := by
  induction bs generalizing m a with
  | nil => rfl
  | cons b bs ih =>
    simp only [List.length_cons, Memory.readBytes, Memory.writeBytes, List.cons.injEq]
    refine ⟨?_, ih (a + 1) (Memory.write_wf a b h)⟩
    rw [Memory.read_writeBytes_other (by omega), Memory.read_write_self a b h]

end Sys2Proof.Machine
end

