-- ==== Sys2Proof/Laws/State.lean ====
section
/-! SUPPORT. What each primitive update of the state leaves alone, and what it writes. -/

namespace Sys2Proof.Machine

open Sys2Proof

/-! ### State.advance -/

@[simp] theorem State.advance_clock (s : State) (t : Nat) : (s.advance t).clock = { s.clock with now := max s.clock.now t } := rfl
@[simp] theorem State.advance_panel (s : State) (t : Nat) : (s.advance t).panel = s.panel := rfl
@[simp] theorem State.advance_cores (s : State) (t : Nat) : (s.advance t).cores = s.cores := rfl
@[simp] theorem State.advance_srams (s : State) (t : Nat) : (s.advance t).srams = s.srams := rfl
@[simp] theorem State.advance_ctx (s : State) (t : Nat) : (s.advance t).ctx = s.ctx := rfl
@[simp] theorem State.advance_ctxDue (s : State) (t : Nat) : (s.advance t).ctxDue = s.ctxDue := rfl
@[simp] theorem State.advance_loadLevel (s : State) (t : Nat) : (s.advance t).loadLevel = s.loadLevel := rfl
@[simp] theorem State.advance_hints (s : State) (t : Nat) : (s.advance t).hints = s.hints := rfl
@[simp] theorem State.advance_mesh (s : State) (t : Nat) : (s.advance t).mesh = s.mesh := rfl
@[simp] theorem State.advance_plos (s : State) (t : Nat) : (s.advance t).plos = s.plos := rfl
@[simp] theorem State.advance_win (s : State) (t : Nat) : (s.advance t).win = s.win := rfl
@[simp] theorem State.advance_zfp (s : State) (t : Nat) : (s.advance t).zfp = s.zfp := rfl
@[simp] theorem State.advance_nvm (s : State) (t : Nat) : (s.advance t).nvm = s.nvm := rfl
@[simp] theorem State.advance_cons (s : State) (t : Nat) : (s.advance t).cons = s.cons := rfl
@[simp] theorem State.advance_stew (s : State) (t : Nat) : (s.advance t).stew = s.stew := rfl
@[simp] theorem State.advance_inc (s : State) (t : Nat) : (s.advance t).inc = s.inc := rfl
@[simp] theorem State.advance_job (s : State) (t : Nat) : (s.advance t).job = s.job := rfl
@[simp] theorem State.advance_hif (s : State) (t : Nat) : (s.advance t).hif = s.hif := rfl
@[simp] theorem State.advance_pwr (s : State) (t : Nat) : (s.advance t).pwr = s.pwr := rfl
@[simp] theorem State.advance_clk (s : State) (t : Nat) : (s.advance t).clk = s.clk := rfl
@[simp] theorem State.advance_boot (s : State) (t : Nat) : (s.advance t).boot = s.boot := rfl
@[simp] theorem State.advance_mc (s : State) (t : Nat) : (s.advance t).mc = s.mc := rfl
@[simp] theorem State.advance_sec (s : State) (t : Nat) : (s.advance t).sec = s.sec := rfl
@[simp] theorem State.advance_bg (s : State) (t : Nat) : (s.advance t).bg = s.bg := rfl
@[simp] theorem State.advance_latches (s : State) (t : Nat) : (s.advance t).latches = s.latches := rfl
@[simp] theorem State.advance_evq (s : State) (t : Nat) : (s.advance t).evq = s.evq := rfl
@[simp] theorem State.advance_pending (s : State) (t : Nat) : (s.advance t).pending = s.pending := rfl

/-! ### State.raise -/

@[simp] theorem State.raise_clock (s : State) (code node unit : Nat) (vals : List (Nat × Nat)) : (s.raise code node unit vals).clock = s.clock := rfl
@[simp] theorem State.raise_panel (s : State) (code node unit : Nat) (vals : List (Nat × Nat)) : (s.raise code node unit vals).panel = s.panel := rfl
@[simp] theorem State.raise_cores (s : State) (code node unit : Nat) (vals : List (Nat × Nat)) : (s.raise code node unit vals).cores = s.cores := rfl
@[simp] theorem State.raise_srams (s : State) (code node unit : Nat) (vals : List (Nat × Nat)) : (s.raise code node unit vals).srams = s.srams := rfl
@[simp] theorem State.raise_ctx (s : State) (code node unit : Nat) (vals : List (Nat × Nat)) : (s.raise code node unit vals).ctx = s.ctx := rfl
@[simp] theorem State.raise_ctxDue (s : State) (code node unit : Nat) (vals : List (Nat × Nat)) : (s.raise code node unit vals).ctxDue = s.ctxDue := rfl
@[simp] theorem State.raise_loadLevel (s : State) (code node unit : Nat) (vals : List (Nat × Nat)) : (s.raise code node unit vals).loadLevel = s.loadLevel := rfl
@[simp] theorem State.raise_hints (s : State) (code node unit : Nat) (vals : List (Nat × Nat)) : (s.raise code node unit vals).hints = s.hints := rfl
@[simp] theorem State.raise_mesh (s : State) (code node unit : Nat) (vals : List (Nat × Nat)) : (s.raise code node unit vals).mesh = s.mesh := rfl
@[simp] theorem State.raise_plos (s : State) (code node unit : Nat) (vals : List (Nat × Nat)) : (s.raise code node unit vals).plos = s.plos := rfl
@[simp] theorem State.raise_win (s : State) (code node unit : Nat) (vals : List (Nat × Nat)) : (s.raise code node unit vals).win = s.win := rfl
@[simp] theorem State.raise_zfp (s : State) (code node unit : Nat) (vals : List (Nat × Nat)) : (s.raise code node unit vals).zfp = s.zfp := rfl
@[simp] theorem State.raise_nvm (s : State) (code node unit : Nat) (vals : List (Nat × Nat)) : (s.raise code node unit vals).nvm = s.nvm := rfl
@[simp] theorem State.raise_cons (s : State) (code node unit : Nat) (vals : List (Nat × Nat)) : (s.raise code node unit vals).cons = s.cons := rfl
@[simp] theorem State.raise_stew (s : State) (code node unit : Nat) (vals : List (Nat × Nat)) : (s.raise code node unit vals).stew = s.stew := rfl
@[simp] theorem State.raise_inc (s : State) (code node unit : Nat) (vals : List (Nat × Nat)) : (s.raise code node unit vals).inc = s.inc := rfl
@[simp] theorem State.raise_job (s : State) (code node unit : Nat) (vals : List (Nat × Nat)) : (s.raise code node unit vals).job = s.job := rfl
@[simp] theorem State.raise_hif (s : State) (code node unit : Nat) (vals : List (Nat × Nat)) : (s.raise code node unit vals).hif = s.hif := rfl
@[simp] theorem State.raise_pwr (s : State) (code node unit : Nat) (vals : List (Nat × Nat)) : (s.raise code node unit vals).pwr = s.pwr := rfl
@[simp] theorem State.raise_clk (s : State) (code node unit : Nat) (vals : List (Nat × Nat)) : (s.raise code node unit vals).clk = s.clk := rfl
@[simp] theorem State.raise_boot (s : State) (code node unit : Nat) (vals : List (Nat × Nat)) : (s.raise code node unit vals).boot = s.boot := rfl
@[simp] theorem State.raise_mc (s : State) (code node unit : Nat) (vals : List (Nat × Nat)) : (s.raise code node unit vals).mc = s.mc := rfl
@[simp] theorem State.raise_sec (s : State) (code node unit : Nat) (vals : List (Nat × Nat)) : (s.raise code node unit vals).sec = s.sec := rfl
@[simp] theorem State.raise_bg (s : State) (code node unit : Nat) (vals : List (Nat × Nat)) : (s.raise code node unit vals).bg = s.bg := rfl
@[simp] theorem State.raise_latches (s : State) (code node unit : Nat) (vals : List (Nat × Nat)) : (s.raise code node unit vals).latches = s.latches := rfl
@[simp] theorem State.raise_pending (s : State) (code node unit : Nat) (vals : List (Nat × Nat)) : (s.raise code node unit vals).pending = s.pending := rfl

/-! ### State.setCore -/

@[simp] theorem State.setCore_clock (s : State) (p : Nat) (c : CoreRec) : (s.setCore p c).clock = s.clock := rfl
@[simp] theorem State.setCore_panel (s : State) (p : Nat) (c : CoreRec) : (s.setCore p c).panel = s.panel := rfl
@[simp] theorem State.setCore_cores (s : State) (p : Nat) (c : CoreRec) : (s.setCore p c).cores = tput s.cores p c := rfl
@[simp] theorem State.setCore_srams (s : State) (p : Nat) (c : CoreRec) : (s.setCore p c).srams = s.srams := rfl
@[simp] theorem State.setCore_ctx (s : State) (p : Nat) (c : CoreRec) : (s.setCore p c).ctx = s.ctx := rfl
@[simp] theorem State.setCore_ctxDue (s : State) (p : Nat) (c : CoreRec) : (s.setCore p c).ctxDue = s.ctxDue := rfl
@[simp] theorem State.setCore_loadLevel (s : State) (p : Nat) (c : CoreRec) : (s.setCore p c).loadLevel = s.loadLevel := rfl
@[simp] theorem State.setCore_hints (s : State) (p : Nat) (c : CoreRec) : (s.setCore p c).hints = s.hints := rfl
@[simp] theorem State.setCore_mesh (s : State) (p : Nat) (c : CoreRec) : (s.setCore p c).mesh = s.mesh := rfl
@[simp] theorem State.setCore_plos (s : State) (p : Nat) (c : CoreRec) : (s.setCore p c).plos = s.plos := rfl
@[simp] theorem State.setCore_win (s : State) (p : Nat) (c : CoreRec) : (s.setCore p c).win = s.win := rfl
@[simp] theorem State.setCore_zfp (s : State) (p : Nat) (c : CoreRec) : (s.setCore p c).zfp = s.zfp := rfl
@[simp] theorem State.setCore_nvm (s : State) (p : Nat) (c : CoreRec) : (s.setCore p c).nvm = s.nvm := rfl
@[simp] theorem State.setCore_cons (s : State) (p : Nat) (c : CoreRec) : (s.setCore p c).cons = s.cons := rfl
@[simp] theorem State.setCore_stew (s : State) (p : Nat) (c : CoreRec) : (s.setCore p c).stew = s.stew := rfl
@[simp] theorem State.setCore_inc (s : State) (p : Nat) (c : CoreRec) : (s.setCore p c).inc = s.inc := rfl
@[simp] theorem State.setCore_job (s : State) (p : Nat) (c : CoreRec) : (s.setCore p c).job = s.job := rfl
@[simp] theorem State.setCore_hif (s : State) (p : Nat) (c : CoreRec) : (s.setCore p c).hif = s.hif := rfl
@[simp] theorem State.setCore_pwr (s : State) (p : Nat) (c : CoreRec) : (s.setCore p c).pwr = s.pwr := rfl
@[simp] theorem State.setCore_clk (s : State) (p : Nat) (c : CoreRec) : (s.setCore p c).clk = s.clk := rfl
@[simp] theorem State.setCore_boot (s : State) (p : Nat) (c : CoreRec) : (s.setCore p c).boot = s.boot := rfl
@[simp] theorem State.setCore_mc (s : State) (p : Nat) (c : CoreRec) : (s.setCore p c).mc = s.mc := rfl
@[simp] theorem State.setCore_sec (s : State) (p : Nat) (c : CoreRec) : (s.setCore p c).sec = s.sec := rfl
@[simp] theorem State.setCore_bg (s : State) (p : Nat) (c : CoreRec) : (s.setCore p c).bg = s.bg := rfl
@[simp] theorem State.setCore_latches (s : State) (p : Nat) (c : CoreRec) : (s.setCore p c).latches = s.latches := rfl
@[simp] theorem State.setCore_evq (s : State) (p : Nat) (c : CoreRec) : (s.setCore p c).evq = s.evq := rfl
@[simp] theorem State.setCore_pending (s : State) (p : Nat) (c : CoreRec) : (s.setCore p c).pending = s.pending := rfl

/-! ### State.modCore -/

@[simp] theorem State.modCore_clock (s : State) (p : Nat) (f : CoreRec → CoreRec) : (s.modCore p f).clock = s.clock := rfl
@[simp] theorem State.modCore_panel (s : State) (p : Nat) (f : CoreRec → CoreRec) : (s.modCore p f).panel = s.panel := rfl
@[simp] theorem State.modCore_srams (s : State) (p : Nat) (f : CoreRec → CoreRec) : (s.modCore p f).srams = s.srams := rfl
@[simp] theorem State.modCore_ctx (s : State) (p : Nat) (f : CoreRec → CoreRec) : (s.modCore p f).ctx = s.ctx := rfl
@[simp] theorem State.modCore_ctxDue (s : State) (p : Nat) (f : CoreRec → CoreRec) : (s.modCore p f).ctxDue = s.ctxDue := rfl
@[simp] theorem State.modCore_loadLevel (s : State) (p : Nat) (f : CoreRec → CoreRec) : (s.modCore p f).loadLevel = s.loadLevel := rfl
@[simp] theorem State.modCore_hints (s : State) (p : Nat) (f : CoreRec → CoreRec) : (s.modCore p f).hints = s.hints := rfl
@[simp] theorem State.modCore_mesh (s : State) (p : Nat) (f : CoreRec → CoreRec) : (s.modCore p f).mesh = s.mesh := rfl
@[simp] theorem State.modCore_plos (s : State) (p : Nat) (f : CoreRec → CoreRec) : (s.modCore p f).plos = s.plos := rfl
@[simp] theorem State.modCore_win (s : State) (p : Nat) (f : CoreRec → CoreRec) : (s.modCore p f).win = s.win := rfl
@[simp] theorem State.modCore_zfp (s : State) (p : Nat) (f : CoreRec → CoreRec) : (s.modCore p f).zfp = s.zfp := rfl
@[simp] theorem State.modCore_nvm (s : State) (p : Nat) (f : CoreRec → CoreRec) : (s.modCore p f).nvm = s.nvm := rfl
@[simp] theorem State.modCore_cons (s : State) (p : Nat) (f : CoreRec → CoreRec) : (s.modCore p f).cons = s.cons := rfl
@[simp] theorem State.modCore_stew (s : State) (p : Nat) (f : CoreRec → CoreRec) : (s.modCore p f).stew = s.stew := rfl
@[simp] theorem State.modCore_inc (s : State) (p : Nat) (f : CoreRec → CoreRec) : (s.modCore p f).inc = s.inc := rfl
@[simp] theorem State.modCore_job (s : State) (p : Nat) (f : CoreRec → CoreRec) : (s.modCore p f).job = s.job := rfl
@[simp] theorem State.modCore_hif (s : State) (p : Nat) (f : CoreRec → CoreRec) : (s.modCore p f).hif = s.hif := rfl
@[simp] theorem State.modCore_pwr (s : State) (p : Nat) (f : CoreRec → CoreRec) : (s.modCore p f).pwr = s.pwr := rfl
@[simp] theorem State.modCore_clk (s : State) (p : Nat) (f : CoreRec → CoreRec) : (s.modCore p f).clk = s.clk := rfl
@[simp] theorem State.modCore_boot (s : State) (p : Nat) (f : CoreRec → CoreRec) : (s.modCore p f).boot = s.boot := rfl
@[simp] theorem State.modCore_mc (s : State) (p : Nat) (f : CoreRec → CoreRec) : (s.modCore p f).mc = s.mc := rfl
@[simp] theorem State.modCore_sec (s : State) (p : Nat) (f : CoreRec → CoreRec) : (s.modCore p f).sec = s.sec := rfl
@[simp] theorem State.modCore_bg (s : State) (p : Nat) (f : CoreRec → CoreRec) : (s.modCore p f).bg = s.bg := rfl
@[simp] theorem State.modCore_latches (s : State) (p : Nat) (f : CoreRec → CoreRec) : (s.modCore p f).latches = s.latches := rfl
@[simp] theorem State.modCore_evq (s : State) (p : Nat) (f : CoreRec → CoreRec) : (s.modCore p f).evq = s.evq := rfl
@[simp] theorem State.modCore_pending (s : State) (p : Nat) (f : CoreRec → CoreRec) : (s.modCore p f).pending = s.pending := rfl

/-! ### State.modCtl -/

@[simp] theorem State.modCtl_clock (s : State) (p : Nat) (f : CoreCtl → CoreCtl) : (s.modCtl p f).clock = s.clock := rfl
@[simp] theorem State.modCtl_panel (s : State) (p : Nat) (f : CoreCtl → CoreCtl) : (s.modCtl p f).panel = s.panel := rfl
@[simp] theorem State.modCtl_srams (s : State) (p : Nat) (f : CoreCtl → CoreCtl) : (s.modCtl p f).srams = s.srams := rfl
@[simp] theorem State.modCtl_ctx (s : State) (p : Nat) (f : CoreCtl → CoreCtl) : (s.modCtl p f).ctx = s.ctx := rfl
@[simp] theorem State.modCtl_ctxDue (s : State) (p : Nat) (f : CoreCtl → CoreCtl) : (s.modCtl p f).ctxDue = s.ctxDue := rfl
@[simp] theorem State.modCtl_loadLevel (s : State) (p : Nat) (f : CoreCtl → CoreCtl) : (s.modCtl p f).loadLevel = s.loadLevel := rfl
@[simp] theorem State.modCtl_hints (s : State) (p : Nat) (f : CoreCtl → CoreCtl) : (s.modCtl p f).hints = s.hints := rfl
@[simp] theorem State.modCtl_mesh (s : State) (p : Nat) (f : CoreCtl → CoreCtl) : (s.modCtl p f).mesh = s.mesh := rfl
@[simp] theorem State.modCtl_plos (s : State) (p : Nat) (f : CoreCtl → CoreCtl) : (s.modCtl p f).plos = s.plos := rfl
@[simp] theorem State.modCtl_win (s : State) (p : Nat) (f : CoreCtl → CoreCtl) : (s.modCtl p f).win = s.win := rfl
@[simp] theorem State.modCtl_zfp (s : State) (p : Nat) (f : CoreCtl → CoreCtl) : (s.modCtl p f).zfp = s.zfp := rfl
@[simp] theorem State.modCtl_nvm (s : State) (p : Nat) (f : CoreCtl → CoreCtl) : (s.modCtl p f).nvm = s.nvm := rfl
@[simp] theorem State.modCtl_cons (s : State) (p : Nat) (f : CoreCtl → CoreCtl) : (s.modCtl p f).cons = s.cons := rfl
@[simp] theorem State.modCtl_stew (s : State) (p : Nat) (f : CoreCtl → CoreCtl) : (s.modCtl p f).stew = s.stew := rfl
@[simp] theorem State.modCtl_inc (s : State) (p : Nat) (f : CoreCtl → CoreCtl) : (s.modCtl p f).inc = s.inc := rfl
@[simp] theorem State.modCtl_job (s : State) (p : Nat) (f : CoreCtl → CoreCtl) : (s.modCtl p f).job = s.job := rfl
@[simp] theorem State.modCtl_hif (s : State) (p : Nat) (f : CoreCtl → CoreCtl) : (s.modCtl p f).hif = s.hif := rfl
@[simp] theorem State.modCtl_pwr (s : State) (p : Nat) (f : CoreCtl → CoreCtl) : (s.modCtl p f).pwr = s.pwr := rfl
@[simp] theorem State.modCtl_clk (s : State) (p : Nat) (f : CoreCtl → CoreCtl) : (s.modCtl p f).clk = s.clk := rfl
@[simp] theorem State.modCtl_boot (s : State) (p : Nat) (f : CoreCtl → CoreCtl) : (s.modCtl p f).boot = s.boot := rfl
@[simp] theorem State.modCtl_mc (s : State) (p : Nat) (f : CoreCtl → CoreCtl) : (s.modCtl p f).mc = s.mc := rfl
@[simp] theorem State.modCtl_sec (s : State) (p : Nat) (f : CoreCtl → CoreCtl) : (s.modCtl p f).sec = s.sec := rfl
@[simp] theorem State.modCtl_bg (s : State) (p : Nat) (f : CoreCtl → CoreCtl) : (s.modCtl p f).bg = s.bg := rfl
@[simp] theorem State.modCtl_latches (s : State) (p : Nat) (f : CoreCtl → CoreCtl) : (s.modCtl p f).latches = s.latches := rfl
@[simp] theorem State.modCtl_evq (s : State) (p : Nat) (f : CoreCtl → CoreCtl) : (s.modCtl p f).evq = s.evq := rfl
@[simp] theorem State.modCtl_pending (s : State) (p : Nat) (f : CoreCtl → CoreCtl) : (s.modCtl p f).pending = s.pending := rfl

/-! ### State.modPipe -/

@[simp] theorem State.modPipe_clock (s : State) (p : Nat) (f : CorePipe → CorePipe) : (s.modPipe p f).clock = s.clock := rfl
@[simp] theorem State.modPipe_panel (s : State) (p : Nat) (f : CorePipe → CorePipe) : (s.modPipe p f).panel = s.panel := rfl
@[simp] theorem State.modPipe_srams (s : State) (p : Nat) (f : CorePipe → CorePipe) : (s.modPipe p f).srams = s.srams := rfl
@[simp] theorem State.modPipe_ctx (s : State) (p : Nat) (f : CorePipe → CorePipe) : (s.modPipe p f).ctx = s.ctx := rfl
@[simp] theorem State.modPipe_ctxDue (s : State) (p : Nat) (f : CorePipe → CorePipe) : (s.modPipe p f).ctxDue = s.ctxDue := rfl
@[simp] theorem State.modPipe_loadLevel (s : State) (p : Nat) (f : CorePipe → CorePipe) : (s.modPipe p f).loadLevel = s.loadLevel := rfl
@[simp] theorem State.modPipe_hints (s : State) (p : Nat) (f : CorePipe → CorePipe) : (s.modPipe p f).hints = s.hints := rfl
@[simp] theorem State.modPipe_mesh (s : State) (p : Nat) (f : CorePipe → CorePipe) : (s.modPipe p f).mesh = s.mesh := rfl
@[simp] theorem State.modPipe_plos (s : State) (p : Nat) (f : CorePipe → CorePipe) : (s.modPipe p f).plos = s.plos := rfl
@[simp] theorem State.modPipe_win (s : State) (p : Nat) (f : CorePipe → CorePipe) : (s.modPipe p f).win = s.win := rfl
@[simp] theorem State.modPipe_zfp (s : State) (p : Nat) (f : CorePipe → CorePipe) : (s.modPipe p f).zfp = s.zfp := rfl
@[simp] theorem State.modPipe_nvm (s : State) (p : Nat) (f : CorePipe → CorePipe) : (s.modPipe p f).nvm = s.nvm := rfl
@[simp] theorem State.modPipe_cons (s : State) (p : Nat) (f : CorePipe → CorePipe) : (s.modPipe p f).cons = s.cons := rfl
@[simp] theorem State.modPipe_stew (s : State) (p : Nat) (f : CorePipe → CorePipe) : (s.modPipe p f).stew = s.stew := rfl
@[simp] theorem State.modPipe_inc (s : State) (p : Nat) (f : CorePipe → CorePipe) : (s.modPipe p f).inc = s.inc := rfl
@[simp] theorem State.modPipe_job (s : State) (p : Nat) (f : CorePipe → CorePipe) : (s.modPipe p f).job = s.job := rfl
@[simp] theorem State.modPipe_hif (s : State) (p : Nat) (f : CorePipe → CorePipe) : (s.modPipe p f).hif = s.hif := rfl
@[simp] theorem State.modPipe_pwr (s : State) (p : Nat) (f : CorePipe → CorePipe) : (s.modPipe p f).pwr = s.pwr := rfl
@[simp] theorem State.modPipe_clk (s : State) (p : Nat) (f : CorePipe → CorePipe) : (s.modPipe p f).clk = s.clk := rfl
@[simp] theorem State.modPipe_boot (s : State) (p : Nat) (f : CorePipe → CorePipe) : (s.modPipe p f).boot = s.boot := rfl
@[simp] theorem State.modPipe_mc (s : State) (p : Nat) (f : CorePipe → CorePipe) : (s.modPipe p f).mc = s.mc := rfl
@[simp] theorem State.modPipe_sec (s : State) (p : Nat) (f : CorePipe → CorePipe) : (s.modPipe p f).sec = s.sec := rfl
@[simp] theorem State.modPipe_bg (s : State) (p : Nat) (f : CorePipe → CorePipe) : (s.modPipe p f).bg = s.bg := rfl
@[simp] theorem State.modPipe_latches (s : State) (p : Nat) (f : CorePipe → CorePipe) : (s.modPipe p f).latches = s.latches := rfl
@[simp] theorem State.modPipe_evq (s : State) (p : Nat) (f : CorePipe → CorePipe) : (s.modPipe p f).evq = s.evq := rfl
@[simp] theorem State.modPipe_pending (s : State) (p : Nat) (f : CorePipe → CorePipe) : (s.modPipe p f).pending = s.pending := rfl

/-! ### State.modStat -/

@[simp] theorem State.modStat_clock (s : State) (p : Nat) (f : CoreStat → CoreStat) : (s.modStat p f).clock = s.clock := rfl
@[simp] theorem State.modStat_panel (s : State) (p : Nat) (f : CoreStat → CoreStat) : (s.modStat p f).panel = s.panel := rfl
@[simp] theorem State.modStat_srams (s : State) (p : Nat) (f : CoreStat → CoreStat) : (s.modStat p f).srams = s.srams := rfl
@[simp] theorem State.modStat_ctx (s : State) (p : Nat) (f : CoreStat → CoreStat) : (s.modStat p f).ctx = s.ctx := rfl
@[simp] theorem State.modStat_ctxDue (s : State) (p : Nat) (f : CoreStat → CoreStat) : (s.modStat p f).ctxDue = s.ctxDue := rfl
@[simp] theorem State.modStat_loadLevel (s : State) (p : Nat) (f : CoreStat → CoreStat) : (s.modStat p f).loadLevel = s.loadLevel := rfl
@[simp] theorem State.modStat_hints (s : State) (p : Nat) (f : CoreStat → CoreStat) : (s.modStat p f).hints = s.hints := rfl
@[simp] theorem State.modStat_mesh (s : State) (p : Nat) (f : CoreStat → CoreStat) : (s.modStat p f).mesh = s.mesh := rfl
@[simp] theorem State.modStat_plos (s : State) (p : Nat) (f : CoreStat → CoreStat) : (s.modStat p f).plos = s.plos := rfl
@[simp] theorem State.modStat_win (s : State) (p : Nat) (f : CoreStat → CoreStat) : (s.modStat p f).win = s.win := rfl
@[simp] theorem State.modStat_zfp (s : State) (p : Nat) (f : CoreStat → CoreStat) : (s.modStat p f).zfp = s.zfp := rfl
@[simp] theorem State.modStat_nvm (s : State) (p : Nat) (f : CoreStat → CoreStat) : (s.modStat p f).nvm = s.nvm := rfl
@[simp] theorem State.modStat_cons (s : State) (p : Nat) (f : CoreStat → CoreStat) : (s.modStat p f).cons = s.cons := rfl
@[simp] theorem State.modStat_stew (s : State) (p : Nat) (f : CoreStat → CoreStat) : (s.modStat p f).stew = s.stew := rfl
@[simp] theorem State.modStat_inc (s : State) (p : Nat) (f : CoreStat → CoreStat) : (s.modStat p f).inc = s.inc := rfl
@[simp] theorem State.modStat_job (s : State) (p : Nat) (f : CoreStat → CoreStat) : (s.modStat p f).job = s.job := rfl
@[simp] theorem State.modStat_hif (s : State) (p : Nat) (f : CoreStat → CoreStat) : (s.modStat p f).hif = s.hif := rfl
@[simp] theorem State.modStat_pwr (s : State) (p : Nat) (f : CoreStat → CoreStat) : (s.modStat p f).pwr = s.pwr := rfl
@[simp] theorem State.modStat_clk (s : State) (p : Nat) (f : CoreStat → CoreStat) : (s.modStat p f).clk = s.clk := rfl
@[simp] theorem State.modStat_boot (s : State) (p : Nat) (f : CoreStat → CoreStat) : (s.modStat p f).boot = s.boot := rfl
@[simp] theorem State.modStat_mc (s : State) (p : Nat) (f : CoreStat → CoreStat) : (s.modStat p f).mc = s.mc := rfl
@[simp] theorem State.modStat_sec (s : State) (p : Nat) (f : CoreStat → CoreStat) : (s.modStat p f).sec = s.sec := rfl
@[simp] theorem State.modStat_bg (s : State) (p : Nat) (f : CoreStat → CoreStat) : (s.modStat p f).bg = s.bg := rfl
@[simp] theorem State.modStat_latches (s : State) (p : Nat) (f : CoreStat → CoreStat) : (s.modStat p f).latches = s.latches := rfl
@[simp] theorem State.modStat_evq (s : State) (p : Nat) (f : CoreStat → CoreStat) : (s.modStat p f).evq = s.evq := rfl
@[simp] theorem State.modStat_pending (s : State) (p : Nat) (f : CoreStat → CoreStat) : (s.modStat p f).pending = s.pending := rfl

/-! ### State.modCtx -/

@[simp] theorem State.modCtx_clock (s : State) (k : Nat) (f : Ctx → Ctx) : (s.modCtx k f).clock = s.clock := rfl
@[simp] theorem State.modCtx_panel (s : State) (k : Nat) (f : Ctx → Ctx) : (s.modCtx k f).panel = s.panel := rfl
@[simp] theorem State.modCtx_cores (s : State) (k : Nat) (f : Ctx → Ctx) : (s.modCtx k f).cores = s.cores := rfl
@[simp] theorem State.modCtx_srams (s : State) (k : Nat) (f : Ctx → Ctx) : (s.modCtx k f).srams = s.srams := rfl
@[simp] theorem State.modCtx_ctxDue (s : State) (k : Nat) (f : Ctx → Ctx) : (s.modCtx k f).ctxDue = s.ctxDue := rfl
@[simp] theorem State.modCtx_loadLevel (s : State) (k : Nat) (f : Ctx → Ctx) : (s.modCtx k f).loadLevel = s.loadLevel := rfl
@[simp] theorem State.modCtx_hints (s : State) (k : Nat) (f : Ctx → Ctx) : (s.modCtx k f).hints = s.hints := rfl
@[simp] theorem State.modCtx_mesh (s : State) (k : Nat) (f : Ctx → Ctx) : (s.modCtx k f).mesh = s.mesh := rfl
@[simp] theorem State.modCtx_plos (s : State) (k : Nat) (f : Ctx → Ctx) : (s.modCtx k f).plos = s.plos := rfl
@[simp] theorem State.modCtx_win (s : State) (k : Nat) (f : Ctx → Ctx) : (s.modCtx k f).win = s.win := rfl
@[simp] theorem State.modCtx_zfp (s : State) (k : Nat) (f : Ctx → Ctx) : (s.modCtx k f).zfp = s.zfp := rfl
@[simp] theorem State.modCtx_nvm (s : State) (k : Nat) (f : Ctx → Ctx) : (s.modCtx k f).nvm = s.nvm := rfl
@[simp] theorem State.modCtx_cons (s : State) (k : Nat) (f : Ctx → Ctx) : (s.modCtx k f).cons = s.cons := rfl
@[simp] theorem State.modCtx_stew (s : State) (k : Nat) (f : Ctx → Ctx) : (s.modCtx k f).stew = s.stew := rfl
@[simp] theorem State.modCtx_inc (s : State) (k : Nat) (f : Ctx → Ctx) : (s.modCtx k f).inc = s.inc := rfl
@[simp] theorem State.modCtx_job (s : State) (k : Nat) (f : Ctx → Ctx) : (s.modCtx k f).job = s.job := rfl
@[simp] theorem State.modCtx_hif (s : State) (k : Nat) (f : Ctx → Ctx) : (s.modCtx k f).hif = s.hif := rfl
@[simp] theorem State.modCtx_pwr (s : State) (k : Nat) (f : Ctx → Ctx) : (s.modCtx k f).pwr = s.pwr := rfl
@[simp] theorem State.modCtx_clk (s : State) (k : Nat) (f : Ctx → Ctx) : (s.modCtx k f).clk = s.clk := rfl
@[simp] theorem State.modCtx_boot (s : State) (k : Nat) (f : Ctx → Ctx) : (s.modCtx k f).boot = s.boot := rfl
@[simp] theorem State.modCtx_mc (s : State) (k : Nat) (f : Ctx → Ctx) : (s.modCtx k f).mc = s.mc := rfl
@[simp] theorem State.modCtx_sec (s : State) (k : Nat) (f : Ctx → Ctx) : (s.modCtx k f).sec = s.sec := rfl
@[simp] theorem State.modCtx_bg (s : State) (k : Nat) (f : Ctx → Ctx) : (s.modCtx k f).bg = s.bg := rfl
@[simp] theorem State.modCtx_latches (s : State) (k : Nat) (f : Ctx → Ctx) : (s.modCtx k f).latches = s.latches := rfl
@[simp] theorem State.modCtx_evq (s : State) (k : Nat) (f : Ctx → Ctx) : (s.modCtx k f).evq = s.evq := rfl
@[simp] theorem State.modCtx_pending (s : State) (k : Nat) (f : Ctx → Ctx) : (s.modCtx k f).pending = s.pending := rfl

/-! ### State.modSrams -/

@[simp] theorem State.modSrams_clock (s : State) (f : Srams → Srams) : (s.modSrams f).clock = s.clock := rfl
@[simp] theorem State.modSrams_panel (s : State) (f : Srams → Srams) : (s.modSrams f).panel = s.panel := rfl
@[simp] theorem State.modSrams_cores (s : State) (f : Srams → Srams) : (s.modSrams f).cores = s.cores := rfl
@[simp] theorem State.modSrams_srams (s : State) (f : Srams → Srams) : (s.modSrams f).srams = f s.srams := rfl
@[simp] theorem State.modSrams_ctx (s : State) (f : Srams → Srams) : (s.modSrams f).ctx = s.ctx := rfl
@[simp] theorem State.modSrams_ctxDue (s : State) (f : Srams → Srams) : (s.modSrams f).ctxDue = s.ctxDue := rfl
@[simp] theorem State.modSrams_loadLevel (s : State) (f : Srams → Srams) : (s.modSrams f).loadLevel = s.loadLevel := rfl
@[simp] theorem State.modSrams_hints (s : State) (f : Srams → Srams) : (s.modSrams f).hints = s.hints := rfl
@[simp] theorem State.modSrams_mesh (s : State) (f : Srams → Srams) : (s.modSrams f).mesh = s.mesh := rfl
@[simp] theorem State.modSrams_plos (s : State) (f : Srams → Srams) : (s.modSrams f).plos = s.plos := rfl
@[simp] theorem State.modSrams_win (s : State) (f : Srams → Srams) : (s.modSrams f).win = s.win := rfl
@[simp] theorem State.modSrams_zfp (s : State) (f : Srams → Srams) : (s.modSrams f).zfp = s.zfp := rfl
@[simp] theorem State.modSrams_nvm (s : State) (f : Srams → Srams) : (s.modSrams f).nvm = s.nvm := rfl
@[simp] theorem State.modSrams_cons (s : State) (f : Srams → Srams) : (s.modSrams f).cons = s.cons := rfl
@[simp] theorem State.modSrams_stew (s : State) (f : Srams → Srams) : (s.modSrams f).stew = s.stew := rfl
@[simp] theorem State.modSrams_inc (s : State) (f : Srams → Srams) : (s.modSrams f).inc = s.inc := rfl
@[simp] theorem State.modSrams_job (s : State) (f : Srams → Srams) : (s.modSrams f).job = s.job := rfl
@[simp] theorem State.modSrams_hif (s : State) (f : Srams → Srams) : (s.modSrams f).hif = s.hif := rfl
@[simp] theorem State.modSrams_pwr (s : State) (f : Srams → Srams) : (s.modSrams f).pwr = s.pwr := rfl
@[simp] theorem State.modSrams_clk (s : State) (f : Srams → Srams) : (s.modSrams f).clk = s.clk := rfl
@[simp] theorem State.modSrams_boot (s : State) (f : Srams → Srams) : (s.modSrams f).boot = s.boot := rfl
@[simp] theorem State.modSrams_mc (s : State) (f : Srams → Srams) : (s.modSrams f).mc = s.mc := rfl
@[simp] theorem State.modSrams_sec (s : State) (f : Srams → Srams) : (s.modSrams f).sec = s.sec := rfl
@[simp] theorem State.modSrams_bg (s : State) (f : Srams → Srams) : (s.modSrams f).bg = s.bg := rfl
@[simp] theorem State.modSrams_latches (s : State) (f : Srams → Srams) : (s.modSrams f).latches = s.latches := rfl
@[simp] theorem State.modSrams_evq (s : State) (f : Srams → Srams) : (s.modSrams f).evq = s.evq := rfl
@[simp] theorem State.modSrams_pending (s : State) (f : Srams → Srams) : (s.modSrams f).pending = s.pending := rfl

/-! ### State.modPanel -/

@[simp] theorem State.modPanel_clock (s : State) (f : Panel → Panel) : (s.modPanel f).clock = s.clock := rfl
@[simp] theorem State.modPanel_panel (s : State) (f : Panel → Panel) : (s.modPanel f).panel = f s.panel := rfl
@[simp] theorem State.modPanel_cores (s : State) (f : Panel → Panel) : (s.modPanel f).cores = s.cores := rfl
@[simp] theorem State.modPanel_srams (s : State) (f : Panel → Panel) : (s.modPanel f).srams = s.srams := rfl
@[simp] theorem State.modPanel_ctx (s : State) (f : Panel → Panel) : (s.modPanel f).ctx = s.ctx := rfl
@[simp] theorem State.modPanel_ctxDue (s : State) (f : Panel → Panel) : (s.modPanel f).ctxDue = s.ctxDue := rfl
@[simp] theorem State.modPanel_loadLevel (s : State) (f : Panel → Panel) : (s.modPanel f).loadLevel = s.loadLevel := rfl
@[simp] theorem State.modPanel_hints (s : State) (f : Panel → Panel) : (s.modPanel f).hints = s.hints := rfl
@[simp] theorem State.modPanel_mesh (s : State) (f : Panel → Panel) : (s.modPanel f).mesh = s.mesh := rfl
@[simp] theorem State.modPanel_plos (s : State) (f : Panel → Panel) : (s.modPanel f).plos = s.plos := rfl
@[simp] theorem State.modPanel_win (s : State) (f : Panel → Panel) : (s.modPanel f).win = s.win := rfl
@[simp] theorem State.modPanel_zfp (s : State) (f : Panel → Panel) : (s.modPanel f).zfp = s.zfp := rfl
@[simp] theorem State.modPanel_nvm (s : State) (f : Panel → Panel) : (s.modPanel f).nvm = s.nvm := rfl
@[simp] theorem State.modPanel_cons (s : State) (f : Panel → Panel) : (s.modPanel f).cons = s.cons := rfl
@[simp] theorem State.modPanel_stew (s : State) (f : Panel → Panel) : (s.modPanel f).stew = s.stew := rfl
@[simp] theorem State.modPanel_inc (s : State) (f : Panel → Panel) : (s.modPanel f).inc = s.inc := rfl
@[simp] theorem State.modPanel_job (s : State) (f : Panel → Panel) : (s.modPanel f).job = s.job := rfl
@[simp] theorem State.modPanel_hif (s : State) (f : Panel → Panel) : (s.modPanel f).hif = s.hif := rfl
@[simp] theorem State.modPanel_pwr (s : State) (f : Panel → Panel) : (s.modPanel f).pwr = s.pwr := rfl
@[simp] theorem State.modPanel_clk (s : State) (f : Panel → Panel) : (s.modPanel f).clk = s.clk := rfl
@[simp] theorem State.modPanel_boot (s : State) (f : Panel → Panel) : (s.modPanel f).boot = s.boot := rfl
@[simp] theorem State.modPanel_mc (s : State) (f : Panel → Panel) : (s.modPanel f).mc = s.mc := rfl
@[simp] theorem State.modPanel_sec (s : State) (f : Panel → Panel) : (s.modPanel f).sec = s.sec := rfl
@[simp] theorem State.modPanel_bg (s : State) (f : Panel → Panel) : (s.modPanel f).bg = s.bg := rfl
@[simp] theorem State.modPanel_latches (s : State) (f : Panel → Panel) : (s.modPanel f).latches = s.latches := rfl
@[simp] theorem State.modPanel_evq (s : State) (f : Panel → Panel) : (s.modPanel f).evq = s.evq := rfl
@[simp] theorem State.modPanel_pending (s : State) (f : Panel → Panel) : (s.modPanel f).pending = s.pending := rfl

/-! ### State.modStacks -/

@[simp] theorem State.modStacks_clock (s : State) (f : Stacks → Stacks) : (s.modStacks f).clock = s.clock := rfl
@[simp] theorem State.modStacks_panel (s : State) (f : Stacks → Stacks) : (s.modStacks f).panel = s.panel := rfl
@[simp] theorem State.modStacks_cores (s : State) (f : Stacks → Stacks) : (s.modStacks f).cores = s.cores := rfl
@[simp] theorem State.modStacks_srams (s : State) (f : Stacks → Stacks) : (s.modStacks f).srams = s.srams := rfl
@[simp] theorem State.modStacks_ctx (s : State) (f : Stacks → Stacks) : (s.modStacks f).ctx = s.ctx := rfl
@[simp] theorem State.modStacks_ctxDue (s : State) (f : Stacks → Stacks) : (s.modStacks f).ctxDue = s.ctxDue := rfl
@[simp] theorem State.modStacks_loadLevel (s : State) (f : Stacks → Stacks) : (s.modStacks f).loadLevel = s.loadLevel := rfl
@[simp] theorem State.modStacks_hints (s : State) (f : Stacks → Stacks) : (s.modStacks f).hints = s.hints := rfl
@[simp] theorem State.modStacks_mesh (s : State) (f : Stacks → Stacks) : (s.modStacks f).mesh = s.mesh := rfl
@[simp] theorem State.modStacks_plos (s : State) (f : Stacks → Stacks) : (s.modStacks f).plos = f s.plos := rfl
@[simp] theorem State.modStacks_win (s : State) (f : Stacks → Stacks) : (s.modStacks f).win = s.win := rfl
@[simp] theorem State.modStacks_zfp (s : State) (f : Stacks → Stacks) : (s.modStacks f).zfp = s.zfp := rfl
@[simp] theorem State.modStacks_nvm (s : State) (f : Stacks → Stacks) : (s.modStacks f).nvm = s.nvm := rfl
@[simp] theorem State.modStacks_cons (s : State) (f : Stacks → Stacks) : (s.modStacks f).cons = s.cons := rfl
@[simp] theorem State.modStacks_stew (s : State) (f : Stacks → Stacks) : (s.modStacks f).stew = s.stew := rfl
@[simp] theorem State.modStacks_inc (s : State) (f : Stacks → Stacks) : (s.modStacks f).inc = s.inc := rfl
@[simp] theorem State.modStacks_job (s : State) (f : Stacks → Stacks) : (s.modStacks f).job = s.job := rfl
@[simp] theorem State.modStacks_hif (s : State) (f : Stacks → Stacks) : (s.modStacks f).hif = s.hif := rfl
@[simp] theorem State.modStacks_pwr (s : State) (f : Stacks → Stacks) : (s.modStacks f).pwr = s.pwr := rfl
@[simp] theorem State.modStacks_clk (s : State) (f : Stacks → Stacks) : (s.modStacks f).clk = s.clk := rfl
@[simp] theorem State.modStacks_boot (s : State) (f : Stacks → Stacks) : (s.modStacks f).boot = s.boot := rfl
@[simp] theorem State.modStacks_mc (s : State) (f : Stacks → Stacks) : (s.modStacks f).mc = s.mc := rfl
@[simp] theorem State.modStacks_sec (s : State) (f : Stacks → Stacks) : (s.modStacks f).sec = s.sec := rfl
@[simp] theorem State.modStacks_bg (s : State) (f : Stacks → Stacks) : (s.modStacks f).bg = s.bg := rfl
@[simp] theorem State.modStacks_latches (s : State) (f : Stacks → Stacks) : (s.modStacks f).latches = s.latches := rfl
@[simp] theorem State.modStacks_evq (s : State) (f : Stacks → Stacks) : (s.modStacks f).evq = s.evq := rfl
@[simp] theorem State.modStacks_pending (s : State) (f : Stacks → Stacks) : (s.modStacks f).pending = s.pending := rfl

/-! ### State.modNvm -/

@[simp] theorem State.modNvm_clock (s : State) (f : Nvm → Nvm) : (s.modNvm f).clock = s.clock := rfl
@[simp] theorem State.modNvm_panel (s : State) (f : Nvm → Nvm) : (s.modNvm f).panel = s.panel := rfl
@[simp] theorem State.modNvm_cores (s : State) (f : Nvm → Nvm) : (s.modNvm f).cores = s.cores := rfl
@[simp] theorem State.modNvm_srams (s : State) (f : Nvm → Nvm) : (s.modNvm f).srams = s.srams := rfl
@[simp] theorem State.modNvm_ctx (s : State) (f : Nvm → Nvm) : (s.modNvm f).ctx = s.ctx := rfl
@[simp] theorem State.modNvm_ctxDue (s : State) (f : Nvm → Nvm) : (s.modNvm f).ctxDue = s.ctxDue := rfl
@[simp] theorem State.modNvm_loadLevel (s : State) (f : Nvm → Nvm) : (s.modNvm f).loadLevel = s.loadLevel := rfl
@[simp] theorem State.modNvm_hints (s : State) (f : Nvm → Nvm) : (s.modNvm f).hints = s.hints := rfl
@[simp] theorem State.modNvm_mesh (s : State) (f : Nvm → Nvm) : (s.modNvm f).mesh = s.mesh := rfl
@[simp] theorem State.modNvm_plos (s : State) (f : Nvm → Nvm) : (s.modNvm f).plos = s.plos := rfl
@[simp] theorem State.modNvm_win (s : State) (f : Nvm → Nvm) : (s.modNvm f).win = s.win := rfl
@[simp] theorem State.modNvm_zfp (s : State) (f : Nvm → Nvm) : (s.modNvm f).zfp = s.zfp := rfl
@[simp] theorem State.modNvm_nvm (s : State) (f : Nvm → Nvm) : (s.modNvm f).nvm = f s.nvm := rfl
@[simp] theorem State.modNvm_cons (s : State) (f : Nvm → Nvm) : (s.modNvm f).cons = s.cons := rfl
@[simp] theorem State.modNvm_stew (s : State) (f : Nvm → Nvm) : (s.modNvm f).stew = s.stew := rfl
@[simp] theorem State.modNvm_inc (s : State) (f : Nvm → Nvm) : (s.modNvm f).inc = s.inc := rfl
@[simp] theorem State.modNvm_job (s : State) (f : Nvm → Nvm) : (s.modNvm f).job = s.job := rfl
@[simp] theorem State.modNvm_hif (s : State) (f : Nvm → Nvm) : (s.modNvm f).hif = s.hif := rfl
@[simp] theorem State.modNvm_pwr (s : State) (f : Nvm → Nvm) : (s.modNvm f).pwr = s.pwr := rfl
@[simp] theorem State.modNvm_clk (s : State) (f : Nvm → Nvm) : (s.modNvm f).clk = s.clk := rfl
@[simp] theorem State.modNvm_boot (s : State) (f : Nvm → Nvm) : (s.modNvm f).boot = s.boot := rfl
@[simp] theorem State.modNvm_mc (s : State) (f : Nvm → Nvm) : (s.modNvm f).mc = s.mc := rfl
@[simp] theorem State.modNvm_sec (s : State) (f : Nvm → Nvm) : (s.modNvm f).sec = s.sec := rfl
@[simp] theorem State.modNvm_bg (s : State) (f : Nvm → Nvm) : (s.modNvm f).bg = s.bg := rfl
@[simp] theorem State.modNvm_latches (s : State) (f : Nvm → Nvm) : (s.modNvm f).latches = s.latches := rfl
@[simp] theorem State.modNvm_evq (s : State) (f : Nvm → Nvm) : (s.modNvm f).evq = s.evq := rfl
@[simp] theorem State.modNvm_pending (s : State) (f : Nvm → Nvm) : (s.modNvm f).pending = s.pending := rfl

/-! ### State.modCons -/

@[simp] theorem State.modCons_clock (s : State) (f : Cons → Cons) : (s.modCons f).clock = s.clock := rfl
@[simp] theorem State.modCons_panel (s : State) (f : Cons → Cons) : (s.modCons f).panel = s.panel := rfl
@[simp] theorem State.modCons_cores (s : State) (f : Cons → Cons) : (s.modCons f).cores = s.cores := rfl
@[simp] theorem State.modCons_srams (s : State) (f : Cons → Cons) : (s.modCons f).srams = s.srams := rfl
@[simp] theorem State.modCons_ctx (s : State) (f : Cons → Cons) : (s.modCons f).ctx = s.ctx := rfl
@[simp] theorem State.modCons_ctxDue (s : State) (f : Cons → Cons) : (s.modCons f).ctxDue = s.ctxDue := rfl
@[simp] theorem State.modCons_loadLevel (s : State) (f : Cons → Cons) : (s.modCons f).loadLevel = s.loadLevel := rfl
@[simp] theorem State.modCons_hints (s : State) (f : Cons → Cons) : (s.modCons f).hints = s.hints := rfl
@[simp] theorem State.modCons_mesh (s : State) (f : Cons → Cons) : (s.modCons f).mesh = s.mesh := rfl
@[simp] theorem State.modCons_plos (s : State) (f : Cons → Cons) : (s.modCons f).plos = s.plos := rfl
@[simp] theorem State.modCons_win (s : State) (f : Cons → Cons) : (s.modCons f).win = s.win := rfl
@[simp] theorem State.modCons_zfp (s : State) (f : Cons → Cons) : (s.modCons f).zfp = s.zfp := rfl
@[simp] theorem State.modCons_nvm (s : State) (f : Cons → Cons) : (s.modCons f).nvm = s.nvm := rfl
@[simp] theorem State.modCons_cons (s : State) (f : Cons → Cons) : (s.modCons f).cons = f s.cons := rfl
@[simp] theorem State.modCons_stew (s : State) (f : Cons → Cons) : (s.modCons f).stew = s.stew := rfl
@[simp] theorem State.modCons_inc (s : State) (f : Cons → Cons) : (s.modCons f).inc = s.inc := rfl
@[simp] theorem State.modCons_job (s : State) (f : Cons → Cons) : (s.modCons f).job = s.job := rfl
@[simp] theorem State.modCons_hif (s : State) (f : Cons → Cons) : (s.modCons f).hif = s.hif := rfl
@[simp] theorem State.modCons_pwr (s : State) (f : Cons → Cons) : (s.modCons f).pwr = s.pwr := rfl
@[simp] theorem State.modCons_clk (s : State) (f : Cons → Cons) : (s.modCons f).clk = s.clk := rfl
@[simp] theorem State.modCons_boot (s : State) (f : Cons → Cons) : (s.modCons f).boot = s.boot := rfl
@[simp] theorem State.modCons_mc (s : State) (f : Cons → Cons) : (s.modCons f).mc = s.mc := rfl
@[simp] theorem State.modCons_sec (s : State) (f : Cons → Cons) : (s.modCons f).sec = s.sec := rfl
@[simp] theorem State.modCons_bg (s : State) (f : Cons → Cons) : (s.modCons f).bg = s.bg := rfl
@[simp] theorem State.modCons_latches (s : State) (f : Cons → Cons) : (s.modCons f).latches = s.latches := rfl
@[simp] theorem State.modCons_evq (s : State) (f : Cons → Cons) : (s.modCons f).evq = s.evq := rfl
@[simp] theorem State.modCons_pending (s : State) (f : Cons → Cons) : (s.modCons f).pending = s.pending := rfl

/-! ### State.modHif -/

@[simp] theorem State.modHif_clock (s : State) (f : Hif → Hif) : (s.modHif f).clock = s.clock := rfl
@[simp] theorem State.modHif_panel (s : State) (f : Hif → Hif) : (s.modHif f).panel = s.panel := rfl
@[simp] theorem State.modHif_cores (s : State) (f : Hif → Hif) : (s.modHif f).cores = s.cores := rfl
@[simp] theorem State.modHif_srams (s : State) (f : Hif → Hif) : (s.modHif f).srams = s.srams := rfl
@[simp] theorem State.modHif_ctx (s : State) (f : Hif → Hif) : (s.modHif f).ctx = s.ctx := rfl
@[simp] theorem State.modHif_ctxDue (s : State) (f : Hif → Hif) : (s.modHif f).ctxDue = s.ctxDue := rfl
@[simp] theorem State.modHif_loadLevel (s : State) (f : Hif → Hif) : (s.modHif f).loadLevel = s.loadLevel := rfl
@[simp] theorem State.modHif_hints (s : State) (f : Hif → Hif) : (s.modHif f).hints = s.hints := rfl
@[simp] theorem State.modHif_mesh (s : State) (f : Hif → Hif) : (s.modHif f).mesh = s.mesh := rfl
@[simp] theorem State.modHif_plos (s : State) (f : Hif → Hif) : (s.modHif f).plos = s.plos := rfl
@[simp] theorem State.modHif_win (s : State) (f : Hif → Hif) : (s.modHif f).win = s.win := rfl
@[simp] theorem State.modHif_zfp (s : State) (f : Hif → Hif) : (s.modHif f).zfp = s.zfp := rfl
@[simp] theorem State.modHif_nvm (s : State) (f : Hif → Hif) : (s.modHif f).nvm = s.nvm := rfl
@[simp] theorem State.modHif_cons (s : State) (f : Hif → Hif) : (s.modHif f).cons = s.cons := rfl
@[simp] theorem State.modHif_stew (s : State) (f : Hif → Hif) : (s.modHif f).stew = s.stew := rfl
@[simp] theorem State.modHif_inc (s : State) (f : Hif → Hif) : (s.modHif f).inc = s.inc := rfl
@[simp] theorem State.modHif_job (s : State) (f : Hif → Hif) : (s.modHif f).job = s.job := rfl
@[simp] theorem State.modHif_hif (s : State) (f : Hif → Hif) : (s.modHif f).hif = f s.hif := rfl
@[simp] theorem State.modHif_pwr (s : State) (f : Hif → Hif) : (s.modHif f).pwr = s.pwr := rfl
@[simp] theorem State.modHif_clk (s : State) (f : Hif → Hif) : (s.modHif f).clk = s.clk := rfl
@[simp] theorem State.modHif_boot (s : State) (f : Hif → Hif) : (s.modHif f).boot = s.boot := rfl
@[simp] theorem State.modHif_mc (s : State) (f : Hif → Hif) : (s.modHif f).mc = s.mc := rfl
@[simp] theorem State.modHif_sec (s : State) (f : Hif → Hif) : (s.modHif f).sec = s.sec := rfl
@[simp] theorem State.modHif_bg (s : State) (f : Hif → Hif) : (s.modHif f).bg = s.bg := rfl
@[simp] theorem State.modHif_latches (s : State) (f : Hif → Hif) : (s.modHif f).latches = s.latches := rfl
@[simp] theorem State.modHif_evq (s : State) (f : Hif → Hif) : (s.modHif f).evq = s.evq := rfl
@[simp] theorem State.modHif_pending (s : State) (f : Hif → Hif) : (s.modHif f).pending = s.pending := rfl

/-! ### State.modPwr -/

@[simp] theorem State.modPwr_clock (s : State) (f : Pwr → Pwr) : (s.modPwr f).clock = s.clock := rfl
@[simp] theorem State.modPwr_panel (s : State) (f : Pwr → Pwr) : (s.modPwr f).panel = s.panel := rfl
@[simp] theorem State.modPwr_cores (s : State) (f : Pwr → Pwr) : (s.modPwr f).cores = s.cores := rfl
@[simp] theorem State.modPwr_srams (s : State) (f : Pwr → Pwr) : (s.modPwr f).srams = s.srams := rfl
@[simp] theorem State.modPwr_ctx (s : State) (f : Pwr → Pwr) : (s.modPwr f).ctx = s.ctx := rfl
@[simp] theorem State.modPwr_ctxDue (s : State) (f : Pwr → Pwr) : (s.modPwr f).ctxDue = s.ctxDue := rfl
@[simp] theorem State.modPwr_loadLevel (s : State) (f : Pwr → Pwr) : (s.modPwr f).loadLevel = s.loadLevel := rfl
@[simp] theorem State.modPwr_hints (s : State) (f : Pwr → Pwr) : (s.modPwr f).hints = s.hints := rfl
@[simp] theorem State.modPwr_mesh (s : State) (f : Pwr → Pwr) : (s.modPwr f).mesh = s.mesh := rfl
@[simp] theorem State.modPwr_plos (s : State) (f : Pwr → Pwr) : (s.modPwr f).plos = s.plos := rfl
@[simp] theorem State.modPwr_win (s : State) (f : Pwr → Pwr) : (s.modPwr f).win = s.win := rfl
@[simp] theorem State.modPwr_zfp (s : State) (f : Pwr → Pwr) : (s.modPwr f).zfp = s.zfp := rfl
@[simp] theorem State.modPwr_nvm (s : State) (f : Pwr → Pwr) : (s.modPwr f).nvm = s.nvm := rfl
@[simp] theorem State.modPwr_cons (s : State) (f : Pwr → Pwr) : (s.modPwr f).cons = s.cons := rfl
@[simp] theorem State.modPwr_stew (s : State) (f : Pwr → Pwr) : (s.modPwr f).stew = s.stew := rfl
@[simp] theorem State.modPwr_inc (s : State) (f : Pwr → Pwr) : (s.modPwr f).inc = s.inc := rfl
@[simp] theorem State.modPwr_job (s : State) (f : Pwr → Pwr) : (s.modPwr f).job = s.job := rfl
@[simp] theorem State.modPwr_hif (s : State) (f : Pwr → Pwr) : (s.modPwr f).hif = s.hif := rfl
@[simp] theorem State.modPwr_pwr (s : State) (f : Pwr → Pwr) : (s.modPwr f).pwr = f s.pwr := rfl
@[simp] theorem State.modPwr_clk (s : State) (f : Pwr → Pwr) : (s.modPwr f).clk = s.clk := rfl
@[simp] theorem State.modPwr_boot (s : State) (f : Pwr → Pwr) : (s.modPwr f).boot = s.boot := rfl
@[simp] theorem State.modPwr_mc (s : State) (f : Pwr → Pwr) : (s.modPwr f).mc = s.mc := rfl
@[simp] theorem State.modPwr_sec (s : State) (f : Pwr → Pwr) : (s.modPwr f).sec = s.sec := rfl
@[simp] theorem State.modPwr_bg (s : State) (f : Pwr → Pwr) : (s.modPwr f).bg = s.bg := rfl
@[simp] theorem State.modPwr_latches (s : State) (f : Pwr → Pwr) : (s.modPwr f).latches = s.latches := rfl
@[simp] theorem State.modPwr_evq (s : State) (f : Pwr → Pwr) : (s.modPwr f).evq = s.evq := rfl
@[simp] theorem State.modPwr_pending (s : State) (f : Pwr → Pwr) : (s.modPwr f).pending = s.pending := rfl

/-! ### State.modClk -/

@[simp] theorem State.modClk_clock (s : State) (f : Clk → Clk) : (s.modClk f).clock = s.clock := rfl
@[simp] theorem State.modClk_panel (s : State) (f : Clk → Clk) : (s.modClk f).panel = s.panel := rfl
@[simp] theorem State.modClk_cores (s : State) (f : Clk → Clk) : (s.modClk f).cores = s.cores := rfl
@[simp] theorem State.modClk_srams (s : State) (f : Clk → Clk) : (s.modClk f).srams = s.srams := rfl
@[simp] theorem State.modClk_ctx (s : State) (f : Clk → Clk) : (s.modClk f).ctx = s.ctx := rfl
@[simp] theorem State.modClk_ctxDue (s : State) (f : Clk → Clk) : (s.modClk f).ctxDue = s.ctxDue := rfl
@[simp] theorem State.modClk_loadLevel (s : State) (f : Clk → Clk) : (s.modClk f).loadLevel = s.loadLevel := rfl
@[simp] theorem State.modClk_hints (s : State) (f : Clk → Clk) : (s.modClk f).hints = s.hints := rfl
@[simp] theorem State.modClk_mesh (s : State) (f : Clk → Clk) : (s.modClk f).mesh = s.mesh := rfl
@[simp] theorem State.modClk_plos (s : State) (f : Clk → Clk) : (s.modClk f).plos = s.plos := rfl
@[simp] theorem State.modClk_win (s : State) (f : Clk → Clk) : (s.modClk f).win = s.win := rfl
@[simp] theorem State.modClk_zfp (s : State) (f : Clk → Clk) : (s.modClk f).zfp = s.zfp := rfl
@[simp] theorem State.modClk_nvm (s : State) (f : Clk → Clk) : (s.modClk f).nvm = s.nvm := rfl
@[simp] theorem State.modClk_cons (s : State) (f : Clk → Clk) : (s.modClk f).cons = s.cons := rfl
@[simp] theorem State.modClk_stew (s : State) (f : Clk → Clk) : (s.modClk f).stew = s.stew := rfl
@[simp] theorem State.modClk_inc (s : State) (f : Clk → Clk) : (s.modClk f).inc = s.inc := rfl
@[simp] theorem State.modClk_job (s : State) (f : Clk → Clk) : (s.modClk f).job = s.job := rfl
@[simp] theorem State.modClk_hif (s : State) (f : Clk → Clk) : (s.modClk f).hif = s.hif := rfl
@[simp] theorem State.modClk_pwr (s : State) (f : Clk → Clk) : (s.modClk f).pwr = s.pwr := rfl
@[simp] theorem State.modClk_clk (s : State) (f : Clk → Clk) : (s.modClk f).clk = f s.clk := rfl
@[simp] theorem State.modClk_boot (s : State) (f : Clk → Clk) : (s.modClk f).boot = s.boot := rfl
@[simp] theorem State.modClk_mc (s : State) (f : Clk → Clk) : (s.modClk f).mc = s.mc := rfl
@[simp] theorem State.modClk_sec (s : State) (f : Clk → Clk) : (s.modClk f).sec = s.sec := rfl
@[simp] theorem State.modClk_bg (s : State) (f : Clk → Clk) : (s.modClk f).bg = s.bg := rfl
@[simp] theorem State.modClk_latches (s : State) (f : Clk → Clk) : (s.modClk f).latches = s.latches := rfl
@[simp] theorem State.modClk_evq (s : State) (f : Clk → Clk) : (s.modClk f).evq = s.evq := rfl
@[simp] theorem State.modClk_pending (s : State) (f : Clk → Clk) : (s.modClk f).pending = s.pending := rfl

/-! ### State.modBoot -/

@[simp] theorem State.modBoot_clock (s : State) (f : Boot → Boot) : (s.modBoot f).clock = s.clock := rfl
@[simp] theorem State.modBoot_panel (s : State) (f : Boot → Boot) : (s.modBoot f).panel = s.panel := rfl
@[simp] theorem State.modBoot_cores (s : State) (f : Boot → Boot) : (s.modBoot f).cores = s.cores := rfl
@[simp] theorem State.modBoot_srams (s : State) (f : Boot → Boot) : (s.modBoot f).srams = s.srams := rfl
@[simp] theorem State.modBoot_ctx (s : State) (f : Boot → Boot) : (s.modBoot f).ctx = s.ctx := rfl
@[simp] theorem State.modBoot_ctxDue (s : State) (f : Boot → Boot) : (s.modBoot f).ctxDue = s.ctxDue := rfl
@[simp] theorem State.modBoot_loadLevel (s : State) (f : Boot → Boot) : (s.modBoot f).loadLevel = s.loadLevel := rfl
@[simp] theorem State.modBoot_hints (s : State) (f : Boot → Boot) : (s.modBoot f).hints = s.hints := rfl
@[simp] theorem State.modBoot_mesh (s : State) (f : Boot → Boot) : (s.modBoot f).mesh = s.mesh := rfl
@[simp] theorem State.modBoot_plos (s : State) (f : Boot → Boot) : (s.modBoot f).plos = s.plos := rfl
@[simp] theorem State.modBoot_win (s : State) (f : Boot → Boot) : (s.modBoot f).win = s.win := rfl
@[simp] theorem State.modBoot_zfp (s : State) (f : Boot → Boot) : (s.modBoot f).zfp = s.zfp := rfl
@[simp] theorem State.modBoot_nvm (s : State) (f : Boot → Boot) : (s.modBoot f).nvm = s.nvm := rfl
@[simp] theorem State.modBoot_cons (s : State) (f : Boot → Boot) : (s.modBoot f).cons = s.cons := rfl
@[simp] theorem State.modBoot_stew (s : State) (f : Boot → Boot) : (s.modBoot f).stew = s.stew := rfl
@[simp] theorem State.modBoot_inc (s : State) (f : Boot → Boot) : (s.modBoot f).inc = s.inc := rfl
@[simp] theorem State.modBoot_job (s : State) (f : Boot → Boot) : (s.modBoot f).job = s.job := rfl
@[simp] theorem State.modBoot_hif (s : State) (f : Boot → Boot) : (s.modBoot f).hif = s.hif := rfl
@[simp] theorem State.modBoot_pwr (s : State) (f : Boot → Boot) : (s.modBoot f).pwr = s.pwr := rfl
@[simp] theorem State.modBoot_clk (s : State) (f : Boot → Boot) : (s.modBoot f).clk = s.clk := rfl
@[simp] theorem State.modBoot_boot (s : State) (f : Boot → Boot) : (s.modBoot f).boot = f s.boot := rfl
@[simp] theorem State.modBoot_mc (s : State) (f : Boot → Boot) : (s.modBoot f).mc = s.mc := rfl
@[simp] theorem State.modBoot_sec (s : State) (f : Boot → Boot) : (s.modBoot f).sec = s.sec := rfl
@[simp] theorem State.modBoot_bg (s : State) (f : Boot → Boot) : (s.modBoot f).bg = s.bg := rfl
@[simp] theorem State.modBoot_latches (s : State) (f : Boot → Boot) : (s.modBoot f).latches = s.latches := rfl
@[simp] theorem State.modBoot_evq (s : State) (f : Boot → Boot) : (s.modBoot f).evq = s.evq := rfl
@[simp] theorem State.modBoot_pending (s : State) (f : Boot → Boot) : (s.modBoot f).pending = s.pending := rfl

/-! ### State.modSec -/

@[simp] theorem State.modSec_clock (s : State) (f : Sec → Sec) : (s.modSec f).clock = s.clock := rfl
@[simp] theorem State.modSec_panel (s : State) (f : Sec → Sec) : (s.modSec f).panel = s.panel := rfl
@[simp] theorem State.modSec_cores (s : State) (f : Sec → Sec) : (s.modSec f).cores = s.cores := rfl
@[simp] theorem State.modSec_srams (s : State) (f : Sec → Sec) : (s.modSec f).srams = s.srams := rfl
@[simp] theorem State.modSec_ctx (s : State) (f : Sec → Sec) : (s.modSec f).ctx = s.ctx := rfl
@[simp] theorem State.modSec_ctxDue (s : State) (f : Sec → Sec) : (s.modSec f).ctxDue = s.ctxDue := rfl
@[simp] theorem State.modSec_loadLevel (s : State) (f : Sec → Sec) : (s.modSec f).loadLevel = s.loadLevel := rfl
@[simp] theorem State.modSec_hints (s : State) (f : Sec → Sec) : (s.modSec f).hints = s.hints := rfl
@[simp] theorem State.modSec_mesh (s : State) (f : Sec → Sec) : (s.modSec f).mesh = s.mesh := rfl
@[simp] theorem State.modSec_plos (s : State) (f : Sec → Sec) : (s.modSec f).plos = s.plos := rfl
@[simp] theorem State.modSec_win (s : State) (f : Sec → Sec) : (s.modSec f).win = s.win := rfl
@[simp] theorem State.modSec_zfp (s : State) (f : Sec → Sec) : (s.modSec f).zfp = s.zfp := rfl
@[simp] theorem State.modSec_nvm (s : State) (f : Sec → Sec) : (s.modSec f).nvm = s.nvm := rfl
@[simp] theorem State.modSec_cons (s : State) (f : Sec → Sec) : (s.modSec f).cons = s.cons := rfl
@[simp] theorem State.modSec_stew (s : State) (f : Sec → Sec) : (s.modSec f).stew = s.stew := rfl
@[simp] theorem State.modSec_inc (s : State) (f : Sec → Sec) : (s.modSec f).inc = s.inc := rfl
@[simp] theorem State.modSec_job (s : State) (f : Sec → Sec) : (s.modSec f).job = s.job := rfl
@[simp] theorem State.modSec_hif (s : State) (f : Sec → Sec) : (s.modSec f).hif = s.hif := rfl
@[simp] theorem State.modSec_pwr (s : State) (f : Sec → Sec) : (s.modSec f).pwr = s.pwr := rfl
@[simp] theorem State.modSec_clk (s : State) (f : Sec → Sec) : (s.modSec f).clk = s.clk := rfl
@[simp] theorem State.modSec_boot (s : State) (f : Sec → Sec) : (s.modSec f).boot = s.boot := rfl
@[simp] theorem State.modSec_mc (s : State) (f : Sec → Sec) : (s.modSec f).mc = s.mc := rfl
@[simp] theorem State.modSec_sec (s : State) (f : Sec → Sec) : (s.modSec f).sec = f s.sec := rfl
@[simp] theorem State.modSec_bg (s : State) (f : Sec → Sec) : (s.modSec f).bg = s.bg := rfl
@[simp] theorem State.modSec_latches (s : State) (f : Sec → Sec) : (s.modSec f).latches = s.latches := rfl
@[simp] theorem State.modSec_evq (s : State) (f : Sec → Sec) : (s.modSec f).evq = s.evq := rfl
@[simp] theorem State.modSec_pending (s : State) (f : Sec → Sec) : (s.modSec f).pending = s.pending := rfl

/-! ### State.modZfp -/

@[simp] theorem State.modZfp_clock (s : State) (f : Zfp → Zfp) : (s.modZfp f).clock = s.clock := rfl
@[simp] theorem State.modZfp_panel (s : State) (f : Zfp → Zfp) : (s.modZfp f).panel = s.panel := rfl
@[simp] theorem State.modZfp_cores (s : State) (f : Zfp → Zfp) : (s.modZfp f).cores = s.cores := rfl
@[simp] theorem State.modZfp_srams (s : State) (f : Zfp → Zfp) : (s.modZfp f).srams = s.srams := rfl
@[simp] theorem State.modZfp_ctx (s : State) (f : Zfp → Zfp) : (s.modZfp f).ctx = s.ctx := rfl
@[simp] theorem State.modZfp_ctxDue (s : State) (f : Zfp → Zfp) : (s.modZfp f).ctxDue = s.ctxDue := rfl
@[simp] theorem State.modZfp_loadLevel (s : State) (f : Zfp → Zfp) : (s.modZfp f).loadLevel = s.loadLevel := rfl
@[simp] theorem State.modZfp_hints (s : State) (f : Zfp → Zfp) : (s.modZfp f).hints = s.hints := rfl
@[simp] theorem State.modZfp_mesh (s : State) (f : Zfp → Zfp) : (s.modZfp f).mesh = s.mesh := rfl
@[simp] theorem State.modZfp_plos (s : State) (f : Zfp → Zfp) : (s.modZfp f).plos = s.plos := rfl
@[simp] theorem State.modZfp_win (s : State) (f : Zfp → Zfp) : (s.modZfp f).win = s.win := rfl
@[simp] theorem State.modZfp_zfp (s : State) (f : Zfp → Zfp) : (s.modZfp f).zfp = f s.zfp := rfl
@[simp] theorem State.modZfp_nvm (s : State) (f : Zfp → Zfp) : (s.modZfp f).nvm = s.nvm := rfl
@[simp] theorem State.modZfp_cons (s : State) (f : Zfp → Zfp) : (s.modZfp f).cons = s.cons := rfl
@[simp] theorem State.modZfp_stew (s : State) (f : Zfp → Zfp) : (s.modZfp f).stew = s.stew := rfl
@[simp] theorem State.modZfp_inc (s : State) (f : Zfp → Zfp) : (s.modZfp f).inc = s.inc := rfl
@[simp] theorem State.modZfp_job (s : State) (f : Zfp → Zfp) : (s.modZfp f).job = s.job := rfl
@[simp] theorem State.modZfp_hif (s : State) (f : Zfp → Zfp) : (s.modZfp f).hif = s.hif := rfl
@[simp] theorem State.modZfp_pwr (s : State) (f : Zfp → Zfp) : (s.modZfp f).pwr = s.pwr := rfl
@[simp] theorem State.modZfp_clk (s : State) (f : Zfp → Zfp) : (s.modZfp f).clk = s.clk := rfl
@[simp] theorem State.modZfp_boot (s : State) (f : Zfp → Zfp) : (s.modZfp f).boot = s.boot := rfl
@[simp] theorem State.modZfp_mc (s : State) (f : Zfp → Zfp) : (s.modZfp f).mc = s.mc := rfl
@[simp] theorem State.modZfp_sec (s : State) (f : Zfp → Zfp) : (s.modZfp f).sec = s.sec := rfl
@[simp] theorem State.modZfp_bg (s : State) (f : Zfp → Zfp) : (s.modZfp f).bg = s.bg := rfl
@[simp] theorem State.modZfp_latches (s : State) (f : Zfp → Zfp) : (s.modZfp f).latches = s.latches := rfl
@[simp] theorem State.modZfp_evq (s : State) (f : Zfp → Zfp) : (s.modZfp f).evq = s.evq := rfl
@[simp] theorem State.modZfp_pending (s : State) (f : Zfp → Zfp) : (s.modZfp f).pending = s.pending := rfl

/-! ### State.modEvq -/

@[simp] theorem State.modEvq_clock (s : State) (f : Evq → Evq) : (s.modEvq f).clock = s.clock := rfl
@[simp] theorem State.modEvq_panel (s : State) (f : Evq → Evq) : (s.modEvq f).panel = s.panel := rfl
@[simp] theorem State.modEvq_cores (s : State) (f : Evq → Evq) : (s.modEvq f).cores = s.cores := rfl
@[simp] theorem State.modEvq_srams (s : State) (f : Evq → Evq) : (s.modEvq f).srams = s.srams := rfl
@[simp] theorem State.modEvq_ctx (s : State) (f : Evq → Evq) : (s.modEvq f).ctx = s.ctx := rfl
@[simp] theorem State.modEvq_ctxDue (s : State) (f : Evq → Evq) : (s.modEvq f).ctxDue = s.ctxDue := rfl
@[simp] theorem State.modEvq_loadLevel (s : State) (f : Evq → Evq) : (s.modEvq f).loadLevel = s.loadLevel := rfl
@[simp] theorem State.modEvq_hints (s : State) (f : Evq → Evq) : (s.modEvq f).hints = s.hints := rfl
@[simp] theorem State.modEvq_mesh (s : State) (f : Evq → Evq) : (s.modEvq f).mesh = s.mesh := rfl
@[simp] theorem State.modEvq_plos (s : State) (f : Evq → Evq) : (s.modEvq f).plos = s.plos := rfl
@[simp] theorem State.modEvq_win (s : State) (f : Evq → Evq) : (s.modEvq f).win = s.win := rfl
@[simp] theorem State.modEvq_zfp (s : State) (f : Evq → Evq) : (s.modEvq f).zfp = s.zfp := rfl
@[simp] theorem State.modEvq_nvm (s : State) (f : Evq → Evq) : (s.modEvq f).nvm = s.nvm := rfl
@[simp] theorem State.modEvq_cons (s : State) (f : Evq → Evq) : (s.modEvq f).cons = s.cons := rfl
@[simp] theorem State.modEvq_stew (s : State) (f : Evq → Evq) : (s.modEvq f).stew = s.stew := rfl
@[simp] theorem State.modEvq_inc (s : State) (f : Evq → Evq) : (s.modEvq f).inc = s.inc := rfl
@[simp] theorem State.modEvq_job (s : State) (f : Evq → Evq) : (s.modEvq f).job = s.job := rfl
@[simp] theorem State.modEvq_hif (s : State) (f : Evq → Evq) : (s.modEvq f).hif = s.hif := rfl
@[simp] theorem State.modEvq_pwr (s : State) (f : Evq → Evq) : (s.modEvq f).pwr = s.pwr := rfl
@[simp] theorem State.modEvq_clk (s : State) (f : Evq → Evq) : (s.modEvq f).clk = s.clk := rfl
@[simp] theorem State.modEvq_boot (s : State) (f : Evq → Evq) : (s.modEvq f).boot = s.boot := rfl
@[simp] theorem State.modEvq_mc (s : State) (f : Evq → Evq) : (s.modEvq f).mc = s.mc := rfl
@[simp] theorem State.modEvq_sec (s : State) (f : Evq → Evq) : (s.modEvq f).sec = s.sec := rfl
@[simp] theorem State.modEvq_bg (s : State) (f : Evq → Evq) : (s.modEvq f).bg = s.bg := rfl
@[simp] theorem State.modEvq_latches (s : State) (f : Evq → Evq) : (s.modEvq f).latches = s.latches := rfl
@[simp] theorem State.modEvq_evq (s : State) (f : Evq → Evq) : (s.modEvq f).evq = f s.evq := rfl
@[simp] theorem State.modEvq_pending (s : State) (f : Evq → Evq) : (s.modEvq f).pending = s.pending := rfl

/-! ### State.modLatch -/

@[simp] theorem State.modLatch_clock (s : State) (f : Latches → Latches) : (s.modLatch f).clock = s.clock := rfl
@[simp] theorem State.modLatch_panel (s : State) (f : Latches → Latches) : (s.modLatch f).panel = s.panel := rfl
@[simp] theorem State.modLatch_cores (s : State) (f : Latches → Latches) : (s.modLatch f).cores = s.cores := rfl
@[simp] theorem State.modLatch_srams (s : State) (f : Latches → Latches) : (s.modLatch f).srams = s.srams := rfl
@[simp] theorem State.modLatch_ctx (s : State) (f : Latches → Latches) : (s.modLatch f).ctx = s.ctx := rfl
@[simp] theorem State.modLatch_ctxDue (s : State) (f : Latches → Latches) : (s.modLatch f).ctxDue = s.ctxDue := rfl
@[simp] theorem State.modLatch_loadLevel (s : State) (f : Latches → Latches) : (s.modLatch f).loadLevel = s.loadLevel := rfl
@[simp] theorem State.modLatch_hints (s : State) (f : Latches → Latches) : (s.modLatch f).hints = s.hints := rfl
@[simp] theorem State.modLatch_mesh (s : State) (f : Latches → Latches) : (s.modLatch f).mesh = s.mesh := rfl
@[simp] theorem State.modLatch_plos (s : State) (f : Latches → Latches) : (s.modLatch f).plos = s.plos := rfl
@[simp] theorem State.modLatch_win (s : State) (f : Latches → Latches) : (s.modLatch f).win = s.win := rfl
@[simp] theorem State.modLatch_zfp (s : State) (f : Latches → Latches) : (s.modLatch f).zfp = s.zfp := rfl
@[simp] theorem State.modLatch_nvm (s : State) (f : Latches → Latches) : (s.modLatch f).nvm = s.nvm := rfl
@[simp] theorem State.modLatch_cons (s : State) (f : Latches → Latches) : (s.modLatch f).cons = s.cons := rfl
@[simp] theorem State.modLatch_stew (s : State) (f : Latches → Latches) : (s.modLatch f).stew = s.stew := rfl
@[simp] theorem State.modLatch_inc (s : State) (f : Latches → Latches) : (s.modLatch f).inc = s.inc := rfl
@[simp] theorem State.modLatch_job (s : State) (f : Latches → Latches) : (s.modLatch f).job = s.job := rfl
@[simp] theorem State.modLatch_hif (s : State) (f : Latches → Latches) : (s.modLatch f).hif = s.hif := rfl
@[simp] theorem State.modLatch_pwr (s : State) (f : Latches → Latches) : (s.modLatch f).pwr = s.pwr := rfl
@[simp] theorem State.modLatch_clk (s : State) (f : Latches → Latches) : (s.modLatch f).clk = s.clk := rfl
@[simp] theorem State.modLatch_boot (s : State) (f : Latches → Latches) : (s.modLatch f).boot = s.boot := rfl
@[simp] theorem State.modLatch_mc (s : State) (f : Latches → Latches) : (s.modLatch f).mc = s.mc := rfl
@[simp] theorem State.modLatch_sec (s : State) (f : Latches → Latches) : (s.modLatch f).sec = s.sec := rfl
@[simp] theorem State.modLatch_bg (s : State) (f : Latches → Latches) : (s.modLatch f).bg = s.bg := rfl
@[simp] theorem State.modLatch_latches (s : State) (f : Latches → Latches) : (s.modLatch f).latches = f s.latches := rfl
@[simp] theorem State.modLatch_evq (s : State) (f : Latches → Latches) : (s.modLatch f).evq = s.evq := rfl
@[simp] theorem State.modLatch_pending (s : State) (f : Latches → Latches) : (s.modLatch f).pending = s.pending := rfl

/-! ### State.modAct -/

@[simp] theorem State.modAct_clock (s : State) (a : Nat) (f : BgAct → BgAct) : (s.modAct a f).clock = s.clock := rfl
@[simp] theorem State.modAct_panel (s : State) (a : Nat) (f : BgAct → BgAct) : (s.modAct a f).panel = s.panel := rfl
@[simp] theorem State.modAct_cores (s : State) (a : Nat) (f : BgAct → BgAct) : (s.modAct a f).cores = s.cores := rfl
@[simp] theorem State.modAct_srams (s : State) (a : Nat) (f : BgAct → BgAct) : (s.modAct a f).srams = s.srams := rfl
@[simp] theorem State.modAct_ctx (s : State) (a : Nat) (f : BgAct → BgAct) : (s.modAct a f).ctx = s.ctx := rfl
@[simp] theorem State.modAct_ctxDue (s : State) (a : Nat) (f : BgAct → BgAct) : (s.modAct a f).ctxDue = s.ctxDue := rfl
@[simp] theorem State.modAct_loadLevel (s : State) (a : Nat) (f : BgAct → BgAct) : (s.modAct a f).loadLevel = s.loadLevel := rfl
@[simp] theorem State.modAct_hints (s : State) (a : Nat) (f : BgAct → BgAct) : (s.modAct a f).hints = s.hints := rfl
@[simp] theorem State.modAct_mesh (s : State) (a : Nat) (f : BgAct → BgAct) : (s.modAct a f).mesh = s.mesh := rfl
@[simp] theorem State.modAct_plos (s : State) (a : Nat) (f : BgAct → BgAct) : (s.modAct a f).plos = s.plos := rfl
@[simp] theorem State.modAct_win (s : State) (a : Nat) (f : BgAct → BgAct) : (s.modAct a f).win = s.win := rfl
@[simp] theorem State.modAct_zfp (s : State) (a : Nat) (f : BgAct → BgAct) : (s.modAct a f).zfp = s.zfp := rfl
@[simp] theorem State.modAct_nvm (s : State) (a : Nat) (f : BgAct → BgAct) : (s.modAct a f).nvm = s.nvm := rfl
@[simp] theorem State.modAct_cons (s : State) (a : Nat) (f : BgAct → BgAct) : (s.modAct a f).cons = s.cons := rfl
@[simp] theorem State.modAct_stew (s : State) (a : Nat) (f : BgAct → BgAct) : (s.modAct a f).stew = s.stew := rfl
@[simp] theorem State.modAct_inc (s : State) (a : Nat) (f : BgAct → BgAct) : (s.modAct a f).inc = s.inc := rfl
@[simp] theorem State.modAct_job (s : State) (a : Nat) (f : BgAct → BgAct) : (s.modAct a f).job = s.job := rfl
@[simp] theorem State.modAct_hif (s : State) (a : Nat) (f : BgAct → BgAct) : (s.modAct a f).hif = s.hif := rfl
@[simp] theorem State.modAct_pwr (s : State) (a : Nat) (f : BgAct → BgAct) : (s.modAct a f).pwr = s.pwr := rfl
@[simp] theorem State.modAct_clk (s : State) (a : Nat) (f : BgAct → BgAct) : (s.modAct a f).clk = s.clk := rfl
@[simp] theorem State.modAct_boot (s : State) (a : Nat) (f : BgAct → BgAct) : (s.modAct a f).boot = s.boot := rfl
@[simp] theorem State.modAct_mc (s : State) (a : Nat) (f : BgAct → BgAct) : (s.modAct a f).mc = s.mc := rfl
@[simp] theorem State.modAct_sec (s : State) (a : Nat) (f : BgAct → BgAct) : (s.modAct a f).sec = s.sec := rfl
@[simp] theorem State.modAct_latches (s : State) (a : Nat) (f : BgAct → BgAct) : (s.modAct a f).latches = s.latches := rfl
@[simp] theorem State.modAct_evq (s : State) (a : Nat) (f : BgAct → BgAct) : (s.modAct a f).evq = s.evq := rfl
@[simp] theorem State.modAct_pending (s : State) (a : Nat) (f : BgAct → BgAct) : (s.modAct a f).pending = s.pending := rfl

/-! ### The record of a core -/

@[simp] theorem State.core_setCore_self (s : State) (p : Nat) (c : CoreRec) : (s.setCore p c).core p = c :=
  tget_tput_self _ _ _ _

theorem State.core_setCore_other (s : State) {p q : Nat} (c : CoreRec) (h : q ≠ p) : (s.setCore p c).core q = s.core q :=
  tget_tput_other _ _ _ h

/-- A later record of the same core replaces an earlier one. -/
@[simp] theorem State.setCore_setCore (s : State) (p : Nat) (c d : CoreRec) :
    (s.setCore p c).setCore p d = s.setCore p d := by
  simp [State.setCore]

@[simp] theorem State.core_modCore_self (s : State) (p : Nat) (f : CoreRec → CoreRec) :
    (s.modCore p f).core p = f (s.core p) := by
  simp [State.modCore]

theorem State.core_modCore_other (s : State) {p q : Nat} (f : CoreRec → CoreRec) (h : q ≠ p) :
    (s.modCore p f).core q = s.core q := by
  simp [State.modCore, State.core_setCore_other s _ h]

@[simp] theorem State.modCore_setCore (s : State) (p : Nat) (c : CoreRec) (f : CoreRec → CoreRec) :
    (s.setCore p c).modCore p f = s.setCore p (f c) := by
  simp [State.modCore]

end Sys2Proof.Machine
end

