-- ==== Sys2Proof/Laws/Issue.lean ====
section
/-! SUPPORT. What issuing a bundle does, step by step: meeting it, its first request cycle, its service and its issue. -/

namespace Sys2Proof.Machine

open Sys2Proof

/-- An access that asks for nothing. -/
def noAccess : Access := ⟨true, [], 0, 0, false, [], [], none⟩

@[simp] theorem satAdd_zero (mx v : Nat) : satAdd mx v 0 = v := by unfold satAdd; omega

/-- A bundle that is met is taken up in its ready cycle. -/
theorem issueBundle_of_meets {s u : State} {p : Nat} (k : Slots) (h : Meets s p u) : s.issueBundle p k = u.ready p k := by
  obtain ⟨r, hr, hu, hrun, hpage, hflip⟩ := h
  subst hu
  simp only [State.issueBundle, hr, hrun, if_true]
  unfold State.fetchCheck
  simp [hpage, hflip]

@[simp] theorem mkAccess_nop (r : CoreRegs) (g : BitVec 5) (reg : BitVec 6) (base : BitVec 4) (off : BitVec 16) :
    mkAccess r .nop g reg base off = noAccess := by
  simp [mkAccess, noAccess]

@[simp] theorem misaligned_noAccess : misaligned noAccess = false := by simp [misaligned, noAccess]

/-- A bundle whose slots are defined, whose units are free and whose accesses are aligned asks for its banks. -/
theorem firstRequest_defined {u : State} {p : Nat} {k : Slots} (hd : undefinedSlots k = [])
    (hb : busySlots (u.core p) u.clock.now k = [])
    (h4 : misaligned (mkAccess (u.core p).regs k.ld0 k.ld0G k.ld0Reg k.ld0Base k.ld0Off) = false)
    (h5 : misaligned (mkAccess (u.core p).regs k.ls1 k.ls1G k.ls1Reg k.ls1Base k.ls1Off) = false) :
    u.firstRequest p k = u.serveOrHold p u.clock.now k
      (mkAccess (u.core p).regs k.ld0 k.ld0G k.ld0Reg k.ld0Base k.ld0Off)
      (mkAccess (u.core p).regs k.ls1 k.ls1G k.ls1Reg k.ls1Base k.ls1Off) := by
  have hn : List.filter ([] : List Nat).contains (List.range 7) = [] := by decide
  simp [State.firstRequest, hd, hb, h4, h5, hn]

/-- No seif holds a bundle without a ROUTE action (R245). -/
@[simp] theorem seamHeld_nop (u : State) (p : Nat) (k : Slots) (h : k.route = .nop) : u.seamHeld p k = false := by
  simp [State.seamHeld, h]

/-- A bundle that asks for no bank and that no seif holds issues in its first request cycle. -/
theorem serveOrHold_noAccess (u : State) (p : Nat) (k : Slots) (hs : u.seamHeld p k = false) :
    u.serveOrHold p u.clock.now k noAccess noAccess = (u.setCore p (u.core p)).issue p k noAccess noAccess := by
  simp [State.serveOrHold, State.serveCycle, State.shiftHeld, noAccess, State.modCtl, State.modCore, hs]

@[simp] theorem loadCauses_nop (n : Nat) (reg : BitVec 6) (a : Access) : loadCauses n .nop reg a = [] := by
  simp [loadCauses]

@[simp] theorem loadResults_noAccess (op : MemOp) (reg : BitVec 6) : loadResults op reg noAccess = [] := by
  simp [loadResults, noAccess]

@[simp] theorem CorePipe.fly_nil (k : CorePipe) (t n : Nat) : k.fly t n [] = k := by simp [CorePipe.fly]

/-- Results in flight are all that a slot's results add to. -/
theorem CorePipe.fly_flights (k : CorePipe) (t n : Nat) (ws : List (Loc × Pending)) :
    ∃ fl, k.fly t n ws = { k with flights := fl } := by
  unfold CorePipe.fly
  split
  · exact ⟨k.flights, rfl⟩
  · exact ⟨_, rfl⟩

/-- The records of the cores are what CTRL operations read of them. -/
theorem ctrlEval_setCore_self (u : State) (p : Nat) (b : Bool) (op : CtrlOp) :
    (u.setCore p (u.core p)).ctrlEval p b op = u.ctrlEval p b op := by
  cases op
  case waitstr => simp only [State.ctrlEval, State.getCtx, State.core_setCore_self, State.setCore_ctx]; rfl
  all_goals simp [State.ctrlEval, State.csr, State.getCtx, State.cycle]

/-- The state of a core whose CTRL operation has the effect `e`, but for its results. -/
def CoreRec.withEffect (c : CoreRec) (e : CtrlEffect) : CoreRec :=
  { c with ctl := { c.ctl with accAct := c.ctl.accAct != e.swap, srState := e.seed.getD c.ctl.srState } }

/-- A bundle without accesses or ROUTE action whose slots are defined, whose units are free and which faults in nothing issues in
its ready cycle. -/
theorem issueBundle_plain {s u : State} {p : Nat} {k : Slots} (hm : Meets s p u) (hw : u.waits p k = false)
    (hd : undefinedSlots k = []) (hb : busySlots (u.core p) u.clock.now k = []) (h4 : k.ld0 = .nop) (h5 : k.ls1 = .nop)
    (hs : u.seamHeld p k = false) (hc : u.issueCauses p k noAccess noAccess = []) :
    s.issueBundle p k = (u.setCore p (u.core p)).issueNow p k noAccess noAccess := by
  rw [issueBundle_of_meets _ hm, State.ready, hw]
  simp only [Bool.false_eq_true, if_false]
  rw [firstRequest_defined hd hb (by rw [h4]; simp) (by rw [h5]; simp), h4, h5]
  simp only [mkAccess_nop]
  rw [serveOrHold_noAccess _ _ _ hs]
  have hi : (u.setCore p (u.core p)).issueCauses p k noAccess noAccess = u.issueCauses p k noAccess noAccess := by
    simp [State.issueCauses, ctrlEval_setCore_self]
  rw [State.issue, hi, hc]

@[simp] theorem routeCauses_nop (r : CoreRegs) (k : Slots) (h : k.route = .nop) : routeCauses r k = [] := by
  simp [routeCauses, routeBytes, routeLanes, CoreRegs.lanesOf, h]

@[simp] theorem routeAct_nop (s : State) (p t : Nat) (k : Slots) (h : k.route = .nop) : s.routeAct p t k = s := by
  simp [State.routeAct, h]

/-- A bundle that holds one CTRL operation which faults in nothing, and neither pages in nor gives a hint. `e` is the
operation's effect, nothing under a guard that keeps it from acting. -/
theorem issueBundle_ctrl {s u : State} {p : Nat} {h : Header} {op : CtrlOp} {g : BitVec 5} {e : CtrlEffect} (hm : Meets s p u)
    (hok : ctrlOk op = true) (hg : slotGuardOk (op == .nop) g = true)
    (hw : u.waits p { hdr := h, ctrl := op, ctrlG := g } = false)
    (he : (if (u.core p).regs.guard0 g then u.ctrlEval p h.tsm op else {}) = e)
    (hc : e.causes = []) (hp : e.page = none) (hh : e.hint = none) :
    s.issueBundle p { hdr := h, ctrl := op, ctrlG := g } =
      u.setCore p (((u.core p).withEffect e).passed h u.clock.now (e.goto.getD (nextPc h (u.core p).ctl.pc))
        ((u.core p).pipe.fly u.clock.now 1 e.writes).flights) := by
  have hd : undefinedSlots { hdr := h, ctrl := op, ctrlG := g } = [] := by
    have hb : slotGuardOk true 0#5 = true := by decide
    have hv : vecOk .nop {} = true := by decide
    simp [undefinedSlots, hok, hg, hb, hv, tensorOk, memIsStore, memRegOk, routeOk]
  have hv : ∀ r i x g, vecEval r i x .nop g {} = .writes [] := by intros; rfl
  have hi : u.issueCauses p { hdr := h, ctrl := op, ctrlG := g } noAccess noAccess = [] := by
    simp only [State.issueCauses, hv, routeCauses_nop, loadCauses_nop, List.append_nil]
    rw [← hc, ← he]
    split <;> rfl
  rw [issueBundle_plain hm hw hd (by simp [busySlots]) rfl rfl (seamHeld_nop _ _ _ rfl) hi]
  have hsr : ∀ x, srAfter .nop {} x = x := by intro x; rfl
  simp only [State.issueNow, State.core_setCore_self, ctrlEval_setCore_self, State.setCore_clock, he, hp, hh, hv, routeAct_nop,
    State.modCore_setCore]
  congr 1
  generalize u.core p = c
  obtain ⟨stat, fault, count, ctl, regs, pipe⟩ := c
  simp only [CoreRec.passed, CoreRec.withEffect, CorePipe.fly_nil, loadResults_noAccess, nextPc, hsr, CoreCtl.after]
  congr 1
  · cases h.stop <;> cases h.tsm <;> cases e.seed <;> cases e.goto <;> rfl
  · obtain ⟨fl, hfl⟩ := CorePipe.fly_flights pipe u.clock.now 1 e.writes
    rw [hfl]
    cases h.stop <;> cases h.tsm <;> rfl

/-- A bundle that holds one VECTOR operation on a free unit, with no poison at a place where it faults. -/
theorem issueBundle_vec {s u : State} {p : Nat} {h : Header} {op : VecOp} {g : BitVec 5} {x : VecArgs} {ws : List (Loc × Pending)}
    (hm : Meets s p u) (hok : vecOk op x = true) (hn : op ≠ .nop) (hg : guardOk g = true)
    (hf : (u.core p).pipe.vectorFree ≤ u.clock.now)
    (he : vecEval (u.core p).regs (u.core p).ctl.inactive (u.core p).ctl.srState op g x = .writes ws) :
    s.issueBundle p { hdr := h, vec := op, vecG := g, vargs := x } =
      (u.vecWrote p h op ws).modCtl p fun k => { k with srState := srAfter op x (u.core p).ctl.srState } := by
  have hnn : (op == VecOp.nop) = false := by simp [hn]
  have hd : undefinedSlots { hdr := h, vec := op, vecG := g, vargs := x } = [] := by
    simp [undefinedSlots, hok, hg, ctrlOk, tensorOk, memIsStore, memRegOk, routeOk, slotGuardOk, hnn]
  have hv : ∀ b, u.ctrlEval p b .nop = {} := by intro b; rfl
  have hi : u.issueCauses p { hdr := h, vec := op, vecG := g, vargs := x } noAccess noAccess = [] := by
    simp [State.issueCauses, he, hv]
  rw [issueBundle_plain hm rfl hd (by simp [busySlots]; omega) rfl rfl (seamHeld_nop _ _ _ rfl) hi]
  simp only [State.issueNow, State.core_setCore_self, ctrlEval_setCore_self, State.setCore_clock, hv, he, routeAct_nop, hn, if_false,
    State.modCore_setCore, ite_self, State.vecWrote, State.issued, State.modPipe, State.modCtl]
  congr 1
  generalize u.core p = c
  obtain ⟨stat, fault, count, ctl, regs, pipe⟩ := c
  simp only [CoreRec.passed, CorePipe.fly_nil, loadResults_noAccess, nextPc, CoreCtl.after]
  congr 1
  · cases h.stop <;> cases h.tsm <;> cases ctl.accAct <;> rfl
  · obtain ⟨fl, hfl⟩ := CorePipe.fly_flights pipe u.clock.now (vecLatency op) ws
    rw [hfl]
    cases h.stop <;> cases h.tsm <;> rfl

/-- A bundle that holds one MMA on a free unit. -/
theorem issueBundle_mma {s u : State} {p : Nat} {h : Header} {g va vb : BitVec 5} {af bf : BitVec 4} {sc : BitVec 3}
    {ag bg : BitVec 2} {z : Bool} (hm : Meets s p u) (hok : tensorOk (.mma va vb af bf sc ag bg z) = true) (hg : guardOk g = true)
    (hf : (u.core p).pipe.tensorFree ≤ u.clock.now) :
    s.issueBundle p { hdr := h, tensor := .mma va vb af bf sc ag bg z, tensorG := g } =
      (u.issued p h (nextPc h (u.core p).ctl.pc) (mmaLatency af.toNat bf.toNat)
        (if (u.core p).regs.guard0 g then
          mmaWrites (u.core p).regs (u.core p).ctl.active va vb af.toNat bf.toNat sc.toNat ag.toNat bg.toNat z
        else [])).modPipe p fun k => { k with tensorFree := u.clock.now + mmaOccupancy af.toNat bf.toNat } := by
  have hd : undefinedSlots { hdr := h, tensor := .mma va vb af bf sc ag bg z, tensorG := g } = [] := by
    have hv : vecOk .nop {} = true := by decide
    have hnn : (TensorOp.mma va vb af bf sc ag bg z == TensorOp.nop) = false := rfl
    simp [undefinedSlots, hok, hg, hv, hnn, ctrlOk, memIsStore, memRegOk, routeOk, slotGuardOk]
  have hv : ∀ b, u.ctrlEval p b .nop = {} := by intro b; rfl
  have hve : ∀ r i x g, vecEval r i x .nop g {} = .writes [] := by intros; rfl
  have hi : u.issueCauses p { hdr := h, tensor := .mma va vb af bf sc ag bg z, tensorG := g } noAccess noAccess = [] := by
    simp [State.issueCauses, hve, hv]
  rw [issueBundle_plain hm rfl hd (by simp [busySlots]; omega) rfl rfl (seamHeld_nop _ _ _ rfl) hi]
  have hsr : ∀ x, srAfter .nop {} x = x := by intro x; rfl
  simp only [State.issueNow, State.core_setCore_self, ctrlEval_setCore_self, State.setCore_clock, hv, hve, routeAct_nop,
    State.modCore_setCore, ite_self, State.issued, State.modPipe, reduceCtorEq, if_false, if_true, hsr]
  congr 1
  generalize u.core p = c
  obtain ⟨stat, fault, count, ctl, regs, pipe⟩ := c
  simp only [CoreRec.passed, CorePipe.fly_nil, loadResults_noAccess, nextPc, CoreCtl.after]
  congr 1
  · cases h.stop <;> cases h.tsm <;> cases ctl.accAct <;> rfl
  · generalize (if regs.guard0 g = true then _ else _ : List (Loc × Pending)) = ws
    obtain ⟨fl, hfl⟩ := CorePipe.fly_flights pipe u.clock.now (mmaLatency af.toNat bf.toNat) ws
    rw [hfl]

end Sys2Proof.Machine
end

