-- ==== Sys2Proof/Laws/Keeps.lean ====
section
/-! SUPPORT. What every operation of the machine leaves alone: the queue of commands, the ranges of the registers that have one, TICK
(where `b` is set), and the canonical form of the byte memories. -/

namespace Sys2Proof.Machine

open Sys2Proof

/-- `t` keeps of `s` the queue, the ranges, the canonical form and, where `b` is set, TICK. -/
def Keeps (b : Bool) (s t : State) : Prop :=
  t.pending = s.pending ∧ (s.inRange → t.inRange) ∧ (b = true → t.clock.tick = s.clock.tick) ∧ (s.memWf = true → t.memWf = true)

/-- Every next state that the outcome holds keeps it. -/
def OKeeps (b : Bool) (s : State) (o : Out) : Prop := ∀ t, o = .next t → Keeps b s t

theorem Keeps.refl (b : Bool) (s : State) : Keeps b s s := ⟨rfl, id, fun _ => rfl, id⟩

theorem Keeps.trans {b : Bool} {s t u : State} (h : Keeps b s t) (k : Keeps b t u) : Keeps b s u :=
  ⟨k.1.trans h.1, fun x => k.2.1 (h.2.1 x), fun x => (k.2.2.1 x).trans (h.2.2.1 x), fun x => k.2.2.2 (h.2.2.2 x)⟩

theorem OKeeps.next {b : Bool} {s t : State} (h : Keeps b s t) : OKeeps b s (.next t) := by
  intro u e; cases e; exact h

theorem OKeeps.fault {b : Bool} {s : State} (f : Fault) : OKeeps b s (.fault f) := by intro u e; cases e

theorem Keeps.ite {b : Bool} {s t u : State} {c : Prop} [Decidable c] (h : c → Keeps b s t) (k : ¬c → Keeps b s u) :
    Keeps b s (if c then t else u) := by
  split
  · exact h ‹_›
  · exact k ‹_›

theorem OKeeps.ite {b : Bool} {s : State} {t u : Out} {c : Prop} [Decidable c] (h : c → OKeeps b s t) (k : ¬c → OKeeps b s u) :
    OKeeps b s (if c then t else u) := by
  split
  · exact h ‹_›
  · exact k ‹_›

/-- A record update keeps what its tracked parts keep. -/
theorem Keeps.upd {b : Bool} {s0 s : State} {clock panel cores srams ctx ctxDue loadLevel hints mesh plos win zfp nvm cons stew inc job hif
      pwr clk boot mc sec bg latches evq pending}
    (hq : pending = s.pending) (ht : b = true → clock.tick = s.clock.tick)
    (h1 : (2000 ≤ s.pwr.cap ∧ s.pwr.cap ≤ 15000) → 2000 ≤ pwr.cap ∧ pwr.cap ≤ 15000)
    (h2 : (1 ≤ s.bg.spacing ∧ s.bg.spacing ≤ 63) → 1 ≤ bg.spacing ∧ bg.spacing ≤ 63)
    (h3 : (8 ≤ s.evq.size ∧ s.evq.size ≤ 15) → 8 ≤ evq.size ∧ evq.size ≤ 15) (h4 : s.clk.req ≤ 5 → clk.req ≤ 5)
    (m1 : Memory.wf s.srams.spad = true → Memory.wf srams.spad = true) (m2 : Memory.wf s.plos.mem = true → Memory.wf plos.mem = true)
    (m3 : Memory.wf s.hif.cmds = true → Memory.wf hif.cmds = true) (h : Keeps b s0 s) :
    Keeps b s0 (State.mk clock panel cores srams ctx ctxDue loadLevel hints mesh plos win zfp nvm cons stew inc job hif pwr clk boot mc sec
      bg latches evq pending) := by
  refine h.trans ⟨hq, fun r => ⟨h1 r.1, h2 r.2.1, h3 r.2.2.1, h4 r.2.2.2⟩, ht, fun w => ?_⟩
  simp only [State.memWf, Bool.and_eq_true] at w ⊢
  exact ⟨⟨m1 w.1.1, m2 w.1.2⟩, m3 w.2⟩

theorem foldl_keeps {α : Type} {b : Bool} {s0 s : State} (f : State → α → State) (l : List α)
    (hf : ∀ s x, Keeps b s0 s → Keeps b s0 (f s x)) (h : Keeps b s0 s) : Keeps b s0 (l.foldl f s) := by
  induction l generalizing s with
  | nil => exact h
  | cons x xs ih => exact ih (hf s x h)

/-! ### Byte memory -/

theorem wfFrom_ne {α : Type} [DecidableEq α] {d : α} {lo : Nat} {t : Tab α} (h : wfFrom d lo t = true) : ∀ e ∈ t, e.2 ≠ d := by
  induction t generalizing lo with
  | nil => intro e he; cases he
  | cons x r ih =>
    obtain ⟨k, v⟩ := x
    simp only [wfFrom, Bool.and_eq_true, Bool.not_eq_true', decide_eq_false_iff_not] at h
    intro e he
    rcases List.mem_cons.mp he with rfl | he
    · exact h.1.2
    · exact ih h.2 e he

theorem foldl_tput_wf {m : Memory} (f : Nat → Nat) (l : List (Nat × BitVec 8)) (hl : ∀ e ∈ l, e.2 ≠ Memory.blank) (h : m.wf = true) :
    Memory.wf (l.foldl (fun t e => tput t (f e.1) e.2) m) = true := by
  induction l generalizing m with
  | nil => exact h
  | cons e r ih =>
    exact ih (fun x hx => hl x (List.mem_cons_of_mem _ hx)) (wfFrom_tput h (Nat.zero_le _) (hl e List.mem_cons_self))

theorem Memory.tfilter_wf {m : Memory} (p : Nat → BitVec 8 → Bool) (h : m.wf = true) : Memory.wf (tfilter p m) = true :=
  wfFrom_tfilter p h

/-- R90: what is copied from one core's keys to another's keeps the canonical form. -/
theorem Memory.copyKeys_wf {m : Memory} (w src dst : Nat) (h : m.wf = true) : Memory.wf (copyKeys w src dst m) = true :=
  foldl_tput_wf (fun k => w * dst + k % w) _ (fun e he => wfFrom_ne h e (List.mem_filter.mp he).1) (Memory.tfilter_wf _ h)

theorem Memory.putCells_wf {m : Memory} (l : List (Nat × BitVec 8)) (hl : ∀ e ∈ l, e.2 ≠ Memory.blank) (h : m.wf = true) :
    Memory.wf (putCells m l) = true := by
  induction l generalizing m with
  | nil => exact h
  | cons e r ih => exact ih (fun x hx => hl x (List.mem_cons_of_mem _ hx)) (wfFrom_tput h (Nat.zero_le _) (hl e List.mem_cons_self))

/-- R318: the copy of a region keeps the canonical form. -/
theorem Memory.region_wf {m : Memory} (lo hi to_ a b : Nat) (h : m.wf = true) :
    Memory.wf (putCells (Memory.clear m a b) (shiftCells m lo hi to_)) = true := by
  refine Memory.putCells_wf _ (fun e he => ?_) (Memory.clear_wf a b h)
  obtain ⟨x, hx, rfl⟩ := List.mem_map.mp he
  exact wfFrom_ne h x (List.mem_filter.mp hx).1

/-- EVQ_CTL and EVQ_HEAD keep SIZE in its range (R627). -/
theorem Evq.writeCtl_size {e : Evq} (v : Nat) (h : 8 ≤ e.size ∧ e.size ≤ 15) : 8 ≤ (e.writeCtl v).size ∧ (e.writeCtl v).size ≤ 15 := by
  unfold Evq.writeCtl; dsimp only; repeat' split
  all_goals first | exact h | (simp only []; omega)

theorem Evq.writeHead_size {e : Evq} (v : Nat) (h : 8 ≤ e.size ∧ e.size ≤ 15) : 8 ≤ (e.writeHead v).size ∧ (e.writeHead v).size ≤ 15 := by
  unfold Evq.writeHead; dsimp only; repeat' split
  all_goals exact h

/-- R528: dropping the floor leaves the power cap. -/
theorem Pwr.dropFloor_cap {p : Pwr} (h : 2000 ≤ p.cap ∧ p.cap ≤ 15000) : 2000 ≤ p.dropFloor.cap ∧ p.dropFloor.cap ≤ 15000 := by
  unfold Pwr.dropFloor; split <;> exact h

end Sys2Proof.Machine
end

