-- ==== Sys2Proof/Laws/KeepsOps.lean ====
section
/-! SUPPORT. What the operations of Machine/Ops.lean keep. -/

namespace Sys2Proof.Machine

open Sys2Proof

theorem State.each_keeps {ba : Bool} {s0 s : State} (f : State → Nat → State) (l : List Nat)
    (hf : ∀ s x, Keeps ba s0 s → Keeps ba s0 (f s x)) (hk : Keeps ba s0 s) : Keeps ba s0 (s.each f l) := by
  induction l generalizing s with
  | nil => exact hk
  | cons x xs ih => exact ih (hf s x hk)

theorem State.advance_keeps {ba : Bool} {z0 s : State} (t : Nat) (hk : Keeps ba z0 s) :
    Keeps ba z0 (State.advance s t) := by
  unfold State.advance; try dsimp only
  repeat' with_reducible (first | assumption | refine Keeps.upd rfl (fun _ => rfl) id id id id id id id ?_)

theorem State.raise_keeps {ba : Bool} {z0 s : State} (code : Nat) (node : Nat) (unit : Nat) (vals : List (Nat × Nat)) (hk : Keeps ba z0 s) :
    Keeps ba z0 (State.raise s code node unit vals) := by
  unfold State.raise; try dsimp only
  repeat' with_reducible (first | assumption | refine Keeps.upd rfl (fun _ => rfl) id id id id id id id ?_)

theorem State.cntOvf_keeps {ba : Bool} {z0 s : State} (rose : Bool) (reg : Nat) (lowBit : Nat) (node : Nat) (hk : Keeps ba z0 s) :
    Keeps ba z0 (State.cntOvf s rose reg lowBit node) := by
  unfold State.cntOvf; try dsimp only
  repeat' with_reducible (first | assumption | apply State.raise_keeps | refine Keeps.ite (fun _ => ?_) (fun _ => ?_))

theorem State.setCore_keeps {ba : Bool} {z0 s : State} (p : Nat) (c : CoreRec) (hk : Keeps ba z0 s) :
    Keeps ba z0 (State.setCore s p c) := by
  unfold State.setCore; try dsimp only
  repeat' with_reducible (first | assumption | refine Keeps.upd rfl (fun _ => rfl) id id id id id id id ?_)

theorem State.modCore_keeps {ba : Bool} {z0 s : State} (p : Nat) (f : CoreRec → CoreRec) (hk : Keeps ba z0 s) :
    Keeps ba z0 (State.modCore s p f) := by
  unfold State.modCore; try dsimp only
  repeat' with_reducible (first | assumption | apply State.setCore_keeps)

theorem State.modCtl_keeps {ba : Bool} {z0 s : State} (p : Nat) (f : CoreCtl → CoreCtl) (hk : Keeps ba z0 s) :
    Keeps ba z0 (State.modCtl s p f) := by
  unfold State.modCtl; try dsimp only
  repeat' with_reducible (first | assumption | apply State.modCore_keeps | refine Keeps.upd rfl (fun _ => rfl) id id id id id id id ?_)

theorem State.modPipe_keeps {ba : Bool} {z0 s : State} (p : Nat) (f : CorePipe → CorePipe) (hk : Keeps ba z0 s) :
    Keeps ba z0 (State.modPipe s p f) := by
  unfold State.modPipe; try dsimp only
  repeat' with_reducible (first | assumption | apply State.modCore_keeps | refine Keeps.upd rfl (fun _ => rfl) id id id id id id id ?_)

theorem State.modStat_keeps {ba : Bool} {z0 s : State} (p : Nat) (f : CoreStat → CoreStat) (hk : Keeps ba z0 s) :
    Keeps ba z0 (State.modStat s p f) := by
  unfold State.modStat; try dsimp only
  repeat' with_reducible (first | assumption | apply State.modCore_keeps | refine Keeps.upd rfl (fun _ => rfl) id id id id id id id ?_)

theorem State.modCtx_keeps {ba : Bool} {z0 s : State} (k : Nat) (f : Ctx → Ctx) (hk : Keeps ba z0 s) :
    Keeps ba z0 (State.modCtx s k f) := by
  unfold State.modCtx; try dsimp only
  repeat' with_reducible (first | assumption | refine Keeps.upd rfl (fun _ => rfl) id id id id id id id ?_)

theorem State.syncCtx_keeps {ba : Bool} {z0 s : State} (hk : Keeps ba z0 s) :
    Keeps ba z0 (State.syncCtx s) := by
  unfold State.syncCtx; try dsimp only
  repeat' with_reducible (first | assumption | apply foldl_keeps | intro _ | refine Keeps.upd rfl (fun _ => rfl) id id id id id id id ?_)

theorem State.countCorr_keeps {ba : Bool} {z0 s : State} (p : Nat) (hk : Keeps ba z0 s) :
    Keeps ba z0 (State.countCorr s p) := by
  unfold State.countCorr; try dsimp only
  repeat' with_reducible (first | assumption | apply State.setCore_keeps | apply State.cntOvf_keeps | refine Keeps.upd rfl (fun _ => rfl) id id id id id id id ?_)

theorem State.countUncorr_keeps {ba : Bool} {z0 s : State} (p : Nat) (bank : Option Nat) (hk : Keeps ba z0 s) :
    Keeps ba z0 (State.countUncorr s p bank) := by
  unfold State.countUncorr; try dsimp only
  repeat' with_reducible (first | assumption | apply State.setCore_keeps | apply State.cntOvf_keeps | refine Keeps.upd rfl (fun _ => rfl) id id id id id id id ?_)

theorem State.modSrams_keeps {b : Bool} {s0 s : State} (f : Srams → Srams)
    (hf : Memory.wf s.srams.spad = true → Memory.wf (f s.srams).spad = true) (h : Keeps b s0 s) : Keeps b s0 (s.modSrams f) := by
  unfold State.modSrams; exact Keeps.upd rfl (fun _ => rfl) id id id id hf id id h

theorem State.markWord_keeps {ba : Bool} {z0 s : State} (p : Nat) (w : Nat) (bad : Bool) (hk : Keeps ba z0 s) :
    Keeps ba z0 (State.markWord s p w bad) := by
  unfold State.markWord; try dsimp only
  repeat' with_reducible (first | assumption | exact id | apply State.modSrams_keeps | refine Keeps.upd rfl (fun _ => rfl) id id id id id id id ?_)

theorem State.readWord_keeps {ba : Bool} {z0 s : State} (p : Nat) (w : Nat) (hk : Keeps ba z0 s) :
    Keeps ba z0 (State.readWord s p w).1 := by
  unfold State.readWord; try dsimp only
  repeat' with_reducible (first | assumption | apply State.markWord_keeps | apply State.countUncorr_keeps | apply State.countCorr_keeps | refine Keeps.ite (fun _ => ?_) (fun _ => ?_) | split)

theorem State.readWords_keeps {ba : Bool} {z0 s : State} (p : Nat) (w : Nat) (k_0 : Nat) (hk : Keeps ba z0 s) :
    Keeps ba z0 (State.readWords s p w k_0).1 := by
  induction k_0 generalizing s p w with
  | zero =>
    unfold State.readWords; try dsimp only
    repeat' with_reducible (first | assumption | apply State.readWord_keeps | split)
  | succ n_ ih =>
    unfold State.readWords; try dsimp only
    repeat' with_reducible (first | assumption | apply ih | apply State.readWord_keeps | split)

theorem State.putWord1_keeps {ba : Bool} {z0 s : State} (p : Nat) (w : Nat) (bytes : List (BitVec 8)) (bad : Bool) (hk : Keeps ba z0 s) :
    Keeps ba z0 (State.putWord1 s p w bytes bad) := by
  unfold State.putWord1; try dsimp only
  repeat' with_reducible (first | assumption | exact id | apply State.markWord_keeps | apply State.modSrams_keeps | exact Memory.writeBytes_wf _ _ | refine Keeps.upd rfl (fun _ => rfl) id id id id id id id ?_)

theorem State.putHalf1_keeps {ba : Bool} {z0 s : State} (p : Nat) (off : Nat) (bytes : List (BitVec 8)) (bad : Bool) (hk : Keeps ba z0 s) :
    Keeps ba z0 (State.putHalf1 s p off bytes bad) := by
  unfold State.putHalf1; try dsimp only
  repeat' with_reducible (first | assumption | exact id | apply State.readWord_keeps | apply State.markWord_keeps | apply State.modSrams_keeps | split | exact Memory.writeBytes_wf _ _ | refine Keeps.upd rfl (fun _ => rfl) id id id id id id id ?_)

theorem State.putWord_keeps {ba : Bool} {z0 s : State} (p : Nat) (w : Nat) (bytes : List (BitVec 8)) (bad : Bool) (hk : Keeps ba z0 s) :
    Keeps ba z0 (State.putWord s p w bytes bad) := by
  unfold State.putWord; try dsimp only
  repeat' with_reducible (first | assumption | apply State.putWord1_keeps | split)

theorem State.putHalf_keeps {ba : Bool} {z0 s : State} (p : Nat) (off : Nat) (bytes : List (BitVec 8)) (bad : Bool) (hk : Keeps ba z0 s) :
    Keeps ba z0 (State.putHalf s p off bytes bad) := by
  unfold State.putHalf; try dsimp only
  repeat' with_reducible (first | assumption | apply State.putHalf1_keeps | split)

theorem State.putWords_keeps {ba : Bool} {z0 s : State} (p : Nat) (w : Nat) (k_0 : List (List (BitVec 8) × Bool)) (hk : Keeps ba z0 s) :
    Keeps ba z0 (State.putWords s p w k_0) := by
  induction k_0 generalizing s p w with
  | nil =>
    unfold State.putWords; try dsimp only
    repeat' with_reducible (first | assumption | apply State.putWord_keeps | split)
  | cons x_ xs_ ih =>
    unfold State.putWords; try dsimp only
    repeat' with_reducible (first | assumption | apply ih | apply State.putWord_keeps | split)

theorem State.putGranule_keeps {ba : Bool} {z0 s : State} (p : Nat) (off : Nat) (bytes : List (BitVec 8)) (poison : BitVec 8) (hk : Keeps ba z0 s) :
    Keeps ba z0 (State.putGranule s p off bytes poison) := by
  unfold State.putGranule; try dsimp only
  repeat' with_reducible (first | assumption | apply State.putWords_keeps | apply State.putHalf_keeps | refine Keeps.ite (fun _ => ?_) (fun _ => ?_))

theorem State.putBundle1_keeps {ba : Bool} {z0 s : State} (p : Nat) (j : Nat) (b : BitVec 256) (bad : Bool) (hk : Keeps ba z0 s) :
    Keeps ba z0 (State.putBundle1 s p j b bad) := by
  unfold State.putBundle1; try dsimp only
  repeat' with_reducible (first | assumption | exact id | apply State.modSrams_keeps | refine Keeps.ite (fun _ => ?_) (fun _ => ?_) | refine Keeps.upd rfl (fun _ => rfl) id id id id id id id ?_)

theorem State.putBundle_keeps {ba : Bool} {z0 s : State} (p : Nat) (j : Nat) (b : BitVec 256) (bad : Bool) (hk : Keeps ba z0 s) :
    Keeps ba z0 (State.putBundle s p j b bad) := by
  unfold State.putBundle; try dsimp only
  repeat' with_reducible (first | assumption | apply State.putBundle1_keeps | split)

theorem State.recordFault_keeps {ba : Bool} {z0 s : State} (p : Nat) (bundle : Nat) (c : Cause) (rest : List Cause) (hk : Keeps ba z0 s) :
    Keeps ba z0 (State.recordFault s p bundle c rest) := by
  unfold State.recordFault; try dsimp only
  repeat' with_reducible (first | assumption | apply State.setCore_keeps | refine Keeps.ite (fun _ => ?_) (fun _ => ?_) | refine Keeps.upd rfl (fun _ => rfl) id id id id id id id ?_)

theorem State.recordOffBundle_keeps {ba : Bool} {z0 s : State} (p : Nat) (code : Nat) (bank : Option Nat) (hk : Keeps ba z0 s) :
    Keeps ba z0 (State.recordOffBundle s p code bank) := by
  unfold State.recordOffBundle; try dsimp only
  repeat' with_reducible (first | assumption | apply State.settle_keeps | apply State.recordFault_keeps | apply State.modCore_keeps | refine Keeps.ite (fun _ => ?_) (fun _ => ?_))

end Sys2Proof.Machine
end

