-- ==== Sys2Proof/Laws/KeepsMapOps.lean ====
section
/-! SUPPORT. What the operations of Machine/MapOps.lean keep. -/

namespace Sys2Proof.Machine

open Sys2Proof

theorem State.modPanel_keeps {ba : Bool} {z0 s : State} (f : Panel → Panel) (hk : Keeps ba z0 s) :
    Keeps ba z0 (State.modPanel s f) := by
  unfold State.modPanel; try dsimp only
  repeat' with_reducible (first | assumption | refine Keeps.upd rfl (fun _ => rfl) id id id id id id id ?_)

theorem State.setRole_keeps {ba : Bool} {z0 s : State} (site : Nat) (r : Role) (hk : Keeps ba z0 s) :
    Keeps ba z0 (State.setRole s site r) := by
  unfold State.setRole; try dsimp only
  repeat' with_reducible (first | assumption | apply State.modPanel_keeps | refine Keeps.ite (fun _ => ?_) (fun _ => ?_) | refine Keeps.upd rfl (fun _ => rfl) id id id id id id id ?_)

theorem State.sysPut_keeps {ba : Bool} {z0 s : State} (sideB : Bool) (type : Nat) (bytes : List (BitVec 8)) (hk : Keeps ba z0 s) :
    Keeps ba z0 (State.sysPut s sideB type bytes) := by
  unfold State.sysPut; try dsimp only
  repeat' with_reducible (first | assumption | refine Keeps.ite (fun _ => ?_) (fun _ => ?_) | refine Keeps.upd rfl (fun _ => rfl) id id id id id id id ?_)

theorem State.sysTable_keeps {ba : Bool} {z0 s : State} (type : Nat) (hk : Keeps ba z0 s) :
    Keeps ba z0 (State.sysTable s type) := by
  unfold State.sysTable; try dsimp only
  repeat' with_reducible (first | assumption | apply State.sysPut_keeps)

theorem State.modCvu_keeps {ba : Bool} {z0 s : State} (u : Nat) (f : CvuRec → CvuRec) (hk : Keeps ba z0 s) :
    Keeps ba z0 (State.modCvu s u f) := by
  unfold State.modCvu; try dsimp only
  repeat' with_reducible (first | assumption | refine Keeps.upd rfl (fun _ => rfl) id id id id id id id ?_)

theorem State.cvuRefused_keeps {ba : Bool} {z0 s : State} (u : Nat) (hk : Keeps ba z0 s) :
    Keeps ba z0 (State.cvuRefused s u) := by
  unfold State.cvuRefused; try dsimp only
  repeat' with_reducible (first | assumption | apply State.modCvu_keeps | apply State.cntOvf_keeps | refine Keeps.ite (fun _ => ?_) (fun _ => ?_) | refine Keeps.upd rfl (fun _ => rfl) id id id id id id id ?_)

theorem State.askCvu_keeps {ba : Bool} {z0 s : State} (u : Nat) (q : CvuReq) (hk : Keeps ba z0 s) :
    Keeps ba z0 (State.askCvu s u q).1 := by
  unfold State.askCvu; try dsimp only
  repeat' with_reducible (first | assumption | exact id | apply State.cvuRefused_keeps | apply State.modCvu_keeps | refine Keeps.ite (fun _ => ?_) (fun _ => ?_) | split | exact Memory.writeBytes_wf _ _ | exact Memory.clear_wf _ _ | intro _ | refine Keeps.upd rfl (fun _ => rfl) id id id id id id id ?_)

theorem State.passCvu_keeps {ba : Bool} {z0 s : State} (u : Nat) (q : CvuReq) (hk : Keeps ba z0 s) :
    Keeps ba z0 (State.passCvu s u q) := by
  unfold State.passCvu; try dsimp only
  repeat' with_reducible (first | assumption | apply State.askCvu_keeps | apply State.modCvu_keeps | refine Keeps.ite (fun _ => ?_) (fun _ => ?_))

theorem State.commitRecord_keeps {ba : Bool} {z0 s : State} (hk : Keeps ba z0 s) :
    Keeps ba z0 (State.commitRecord s) := by
  unfold State.commitRecord; try dsimp only
  repeat' with_reducible (first | assumption | apply State.passCvu_keeps | apply State.sysPut_keeps | apply State.modPanel_keeps | apply State.raise_keeps | refine Keeps.ite (fun _ => ?_) (fun _ => ?_) | refine Keeps.upd rfl (fun _ => rfl) id id id id id id id ?_)

theorem State.dress_keeps {ba : Bool} {z0 s : State} (site : Nat) (hk : Keeps ba z0 s) :
    Keeps ba z0 (State.dress s site) := by
  unfold State.dress; try dsimp only
  repeat' with_reducible (first | assumption | refine Keeps.ite (fun _ => ?_) (fun _ => ?_) | split | refine Keeps.upd rfl (fun _ => rfl) id id id id id id id ?_)

theorem State.moveRest_keeps {ba : Bool} {z0 s : State} (key : Nat) (col : Nat) (hk : Keeps ba z0 s) :
    Keeps ba z0 (State.moveRest s key col) := by
  unfold State.moveRest; try dsimp only
  repeat' with_reducible (first | assumption | refine Keeps.ite (fun _ => ?_) (fun _ => ?_) | refine Keeps.upd rfl (fun _ => rfl) id id id id id id id ?_)

theorem State.bindDie_keeps {ba : Bool} {z0 s : State} (ld : Nat) (site : Nat) (hk : Keeps ba z0 s) :
    Keeps ba z0 (State.bindDie s ld site) := by
  unfold State.bindDie; try dsimp only
  repeat' with_reducible (first | assumption | apply State.dress_keeps | apply State.setRole_keeps | apply State.modPanel_keeps | apply foldl_keeps | intro _ | refine Keeps.upd rfl (fun _ => rfl) id id id id id id id ?_)

theorem State.unbindDie_keeps {ba : Bool} {z0 s : State} (ld : Nat) (old : Nat) (hk : Keeps ba z0 s) :
    Keeps ba z0 (State.unbindDie s ld old) := by
  unfold State.unbindDie; try dsimp only
  repeat' with_reducible (first | assumption | apply State.modPanel_keeps | refine Keeps.upd rfl (fun _ => rfl) id id id id id id id ?_)

theorem State.applyMove_keeps {ba : Bool} {z0 s : State} (m : Moved) (hk : Keeps ba z0 s) :
    Keeps ba z0 (State.applyMove s m) := by
  unfold State.applyMove; try dsimp only
  repeat' with_reducible (first | assumption | apply State.unbindDie_keeps | apply State.bindDie_keeps | split)

theorem State.rebind_keeps {ba : Bool} {z0 s : State} (back : List Nat) (hk : Keeps ba z0 s) :
    Keeps ba z0 (State.rebind s back) := by
  unfold State.rebind; try dsimp only
  repeat' with_reducible (first | assumption | apply State.applyMove_keeps | apply State.bindDie_keeps | apply State.modPanel_keeps | apply foldl_keeps | refine Keeps.ite (fun _ => ?_) (fun _ => ?_) | intro _ | refine Keeps.upd rfl (fun _ => rfl) id id id id id id id ?_)

theorem State.shortOver_keeps {ba : Bool} {z0 s : State} (hk : Keeps ba z0 s) :
    Keeps ba z0 (State.shortOver s) := by
  unfold State.shortOver; try dsimp only
  repeat' with_reducible (first | assumption | apply State.ready_keeps | apply State.modPanel_keeps | refine Keeps.ite (fun _ => ?_) (fun _ => ?_) | refine Keeps.upd rfl (fun _ => rfl) id id id id id id id ?_)

theorem State.raiseInc_keeps {ba : Bool} {z0 s : State} (node : Nat) (hk : Keeps ba z0 s) :
    Keeps ba z0 (State.raiseInc s node) := by
  unfold State.raiseInc; try dsimp only
  repeat' with_reducible (first | assumption | refine Keeps.upd rfl (fun _ => rfl) id id id id id id id ?_)

end Sys2Proof.Machine
end

