-- ==== Sys2Proof/Laws/KeepsZfpOps.lean ====
section
/-! SUPPORT. What the operations of Machine/ZfpOps.lean keep. -/

namespace Sys2Proof.Machine

open Sys2Proof

theorem State.modPort_keeps {ba : Bool} {z0 s : State} (p : Nat) (f : PortRec → PortRec) (hk : Keeps ba z0 s) :
    Keeps ba z0 (State.modPort s p f) := by
  unfold State.modPort; try dsimp only
  repeat' with_reducible (first | assumption | refine Keeps.upd rfl (fun _ => rfl) id id id id id id id ?_)

theorem State.modZfp_keeps {ba : Bool} {z0 s : State} (f : Zfp → Zfp) (hk : Keeps ba z0 s) :
    Keeps ba z0 (State.modZfp s f) := by
  unfold State.modZfp; try dsimp only
  repeat' with_reducible (first | assumption | refine Keeps.upd rfl (fun _ => rfl) id id id id id id id ?_)

theorem State.dropNoRoute_keeps {ba : Bool} {z0 s : State} (hk : Keeps ba z0 s) :
    Keeps ba z0 (State.dropNoRoute s) := by
  unfold State.dropNoRoute; try dsimp only
  repeat' with_reducible (first | assumption | apply State.modZfp_keeps | apply State.cntOvf_keeps | refine Keeps.upd rfl (fun _ => rfl) id id id id id id id ?_)

theorem State.dropNoRoutes_keeps {ba : Bool} {z0 s : State} (k_0 : Nat) (hk : Keeps ba z0 s) :
    Keeps ba z0 (State.dropNoRoutes s k_0) := by
  induction k_0 generalizing s with
  | zero =>
    unfold State.dropNoRoutes; try dsimp only
    repeat' with_reducible (first | assumption | apply State.dropNoRoute_keeps | split)
  | succ n_ ih =>
    unfold State.dropNoRoutes; try dsimp only
    repeat' with_reducible (first | assumption | apply ih | apply State.dropNoRoute_keeps | split)

theorem State.dropStale_keeps {ba : Bool} {z0 s : State} (hk : Keeps ba z0 s) :
    Keeps ba z0 (State.dropStale s) := by
  unfold State.dropStale; try dsimp only
  repeat' with_reducible (first | assumption | apply State.modZfp_keeps | apply State.cntOvf_keeps | refine Keeps.upd rfl (fun _ => rfl) id id id id id id id ?_)

theorem State.dropRefused_keeps {ba : Bool} {z0 s : State} (hk : Keeps ba z0 s) :
    Keeps ba z0 (State.dropRefused s) := by
  unfold State.dropRefused; try dsimp only
  repeat' with_reducible (first | assumption | apply State.modZfp_keeps | apply State.cntOvf_keeps | refine Keeps.upd rfl (fun _ => rfl) id id id id id id id ?_)

theorem State.dropAged_keeps {ba : Bool} {z0 s : State} (hk : Keeps ba z0 s) :
    Keeps ba z0 (State.dropAged s) := by
  unfold State.dropAged; try dsimp only
  repeat' with_reducible (first | assumption | apply State.modZfp_keeps | apply State.cntOvf_keeps | refine Keeps.upd rfl (fun _ => rfl) id id id id id id id ?_)

theorem State.dropOldEpoch_keeps {ba : Bool} {z0 s : State} (hk : Keeps ba z0 s) :
    Keeps ba z0 (State.dropOldEpoch s) := by
  unfold State.dropOldEpoch; try dsimp only
  repeat' with_reducible (first | assumption | apply State.modZfp_keeps | apply State.cntOvf_keeps | refine Keeps.upd rfl (fun _ => rfl) id id id id id id id ?_)

theorem State.pump_keeps {ba : Bool} {z0 s : State} (p : Nat) (hk : Keeps ba z0 s) :
    Keeps ba z0 (State.pump s p) := by
  unfold State.pump; try dsimp only
  repeat' with_reducible (first | assumption | apply State.modZfp_keeps | apply State.modPort_keeps)

theorem State.c0Load_keeps {ba : Bool} {z0 s : State} (p : Nat) (hk : Keeps ba z0 s) :
    Keeps ba z0 (State.c0Load s p) := by
  unfold State.c0Load; try dsimp only
  repeat' with_reducible (first | assumption | apply State.modZfp_keeps | apply State.raise_keeps | refine Keeps.ite (fun _ => ?_) (fun _ => ?_) | refine Keeps.upd rfl (fun _ => rfl) id id id id id id id ?_)

theorem State.emitAt_keeps {ba : Bool} {z0 s : State} (p : Nat) (pkt : Packet) (circ : Option Nat) (at_ : Option Nat) (hk : Keeps ba z0 s) :
    Keeps ba z0 (State.emitAt s p pkt circ at_) := by
  unfold State.emitAt; try dsimp only
  repeat' with_reducible (first | assumption | apply State.c0Load_keeps | apply State.pump_keeps | apply State.modPort_keeps | refine Keeps.ite (fun _ => ?_) (fun _ => ?_) | refine Keeps.upd rfl (fun _ => rfl) id id id id id id id ?_)

theorem State.emit_keeps {ba : Bool} {z0 s : State} (p : Nat) (pkt : Packet) (circ : Option Nat) (hk : Keeps ba z0 s) :
    Keeps ba z0 (State.emit s p pkt circ) := by
  unfold State.emit; try dsimp only
  repeat' with_reducible (first | assumption | apply State.emitAt_keeps)

theorem State.takeSeq_keeps {ba : Bool} {z0 s : State} (link : Nat) (n : Nat) (hk : Keeps ba z0 s) :
    Keeps ba z0 (State.takeSeq s link n) := by
  unfold State.takeSeq; try dsimp only
  repeat' with_reducible (first | assumption | apply State.modPort_keeps | refine Keeps.upd rfl (fun _ => rfl) id id id id id id id ?_)

theorem State.modHif_keeps {b : Bool} {s0 s : State} (f : Hif → Hif) (hf : Memory.wf s.hif.cmds = true → Memory.wf (f s.hif).cmds = true)
    (h : Keeps b s0 s) : Keeps b s0 (s.modHif f) := by
  unfold State.modHif; exact Keeps.upd rfl (fun _ => rfl) id id id id id id hf h

theorem State.answer_keeps {ba : Bool} {z0 s : State} (link : Nat) (tag : Nat) (code : Nat) (bytes : List (BitVec 8)) (hk : Keeps ba z0 s) :
    Keeps ba z0 (State.answer s link tag code bytes) := by
  unfold State.answer; try dsimp only
  repeat' with_reducible (first | assumption | exact id | apply State.modHif_keeps | apply State.takeSeq_keeps | refine Keeps.ite (fun _ => ?_) (fun _ => ?_) | refine Keeps.upd rfl (fun _ => rfl) id id id id id id id ?_)

theorem State.jistoUp_keeps {ba : Bool} {z0 s : State} (link : Nat) (hk : Keeps ba z0 s) :
    Keeps ba z0 (State.jistoUp s link) := by
  unfold State.jistoUp; try dsimp only
  repeat' with_reducible (first | assumption | exact id | apply State.modHif_keeps | apply State.takeSeq_keeps | refine Keeps.ite (fun _ => ?_) (fun _ => ?_) | refine Keeps.upd rfl (fun _ => rfl) id id id id id id id ?_)

theorem State.jistoDown_keeps {ba : Bool} {z0 s : State} (link : Nat) (hk : Keeps ba z0 s) :
    Keeps ba z0 (State.jistoDown s link) := by
  unfold State.jistoDown; try dsimp only
  repeat' with_reducible (first | assumption | exact id | apply State.modHif_keeps | refine Keeps.ite (fun _ => ?_) (fun _ => ?_) | refine Keeps.upd rfl (fun _ => rfl) id id id id id id id ?_)

theorem State.jistoLost_keeps {ba : Bool} {z0 s : State} (link : Nat) (hk : Keeps ba z0 s) :
    Keeps ba z0 (State.jistoLost s link) := by
  unfold State.jistoLost; try dsimp only
  repeat' with_reducible (first | assumption | exact id | apply State.modHif_keeps | apply State.takeSeq_keeps | refine Keeps.ite (fun _ => ?_) (fun _ => ?_) | refine Keeps.upd rfl (fun _ => rfl) id id id id id id id ?_)

theorem State.emitMask_keeps {ba : Bool} {z0 s : State} (p : Packet) (mask : Nat) (at_ : Option Nat) (k_0 : List Nat) (hk : Keeps ba z0 s) :
    Keeps ba z0 (State.emitMask s p mask at_ k_0) := by
  induction k_0 generalizing s p mask at_ with
  | nil =>
    unfold State.emitMask; try dsimp only
    repeat' with_reducible (first | assumption | apply State.emitAt_keeps | refine Keeps.ite (fun _ => ?_) (fun _ => ?_) | split)
  | cons x_ xs_ ih =>
    unfold State.emitMask; try dsimp only
    repeat' with_reducible (first | assumption | apply ih | apply State.emitAt_keeps | refine Keeps.ite (fun _ => ?_) (fun _ => ?_) | split)

theorem State.receive_keeps {ba : Bool} {z0 s : State} (port : Nat) (p : Packet) (hk : Keeps ba z0 s) :
    Keeps ba z0 (State.receive s port p) := by
  unfold State.receive; try dsimp only
  repeat' with_reducible (first | assumption | apply State.modZfp_keeps | refine Keeps.upd rfl (fun _ => rfl) id id id id id id id ?_)

theorem State.launch_keeps {ba : Bool} {z0 s : State} (p : Packet) (hk : Keeps ba z0 s) :
    Keeps ba z0 (State.launch s p) := by
  unfold State.launch; try dsimp only
  repeat' with_reducible (first | assumption | apply State.receive_keeps | apply State.emitMask_keeps | apply State.emit_keeps | apply State.dropNoRoute_keeps | refine Keeps.ite (fun _ => ?_) (fun _ => ?_) | split | refine Keeps.upd rfl (fun _ => rfl) id id id id id id id ?_)

theorem State.offer_keeps {ba : Bool} {z0 s : State} (p : Packet) (hk : Keeps ba z0 s) :
    Keeps ba z0 (State.offer s p) := by
  unfold State.offer; try dsimp only
  repeat' with_reducible (first | assumption | apply State.launch_keeps | apply State.modZfp_keeps | refine Keeps.ite (fun _ => ?_) (fun _ => ?_) | refine Keeps.upd rfl (fun _ => rfl) id id id id id id id ?_)

theorem State.releasePaced_keeps {ba : Bool} {z0 s : State} (k_0 : Nat) (hk : Keeps ba z0 s) :
    Keeps ba z0 (State.releasePaced s k_0) := by
  induction k_0 generalizing s with
  | zero =>
    unfold State.releasePaced; try dsimp only
    repeat' with_reducible (first | assumption | apply State.launch_keeps | apply State.modZfp_keeps | refine Keeps.ite (fun _ => ?_) (fun _ => ?_) | split | refine Keeps.upd rfl (fun _ => rfl) id id id id id id id ?_)
  | succ n_ ih =>
    unfold State.releasePaced; try dsimp only
    repeat' with_reducible (first | assumption | apply ih | apply State.launch_keeps | apply State.modZfp_keeps | refine Keeps.ite (fun _ => ?_) (fun _ => ?_) | split | refine Keeps.upd rfl (fun _ => rfl) id id id id id id id ?_)

theorem State.pace_keeps {ba : Bool} {z0 s : State} (hk : Keeps ba z0 s) :
    Keeps ba z0 (State.pace s) := by
  unfold State.pace; try dsimp only
  repeat' with_reducible (first | assumption | apply State.releasePaced_keeps)

theorem State.dropOldEpochs_keeps {ba : Bool} {z0 s : State} (k_0 : Nat) (hk : Keeps ba z0 s) :
    Keeps ba z0 (State.dropOldEpochs s k_0) := by
  induction k_0 generalizing s with
  | zero =>
    unfold State.dropOldEpochs; try dsimp only
    repeat' with_reducible (first | assumption | apply State.dropOldEpoch_keeps | split)
  | succ n_ ih =>
    unfold State.dropOldEpochs; try dsimp only
    repeat' with_reducible (first | assumption | apply ih | apply State.dropOldEpoch_keeps | split)

theorem State.expireDomain_keeps {ba : Bool} {z0 s : State} (key : Nat) (hk : Keeps ba z0 s) :
    Keeps ba z0 (State.expireDomain s key) := by
  unfold State.expireDomain; try dsimp only
  repeat' with_reducible (first | assumption | apply State.dropOldEpochs_keeps | apply State.modZfp_keeps | refine Keeps.upd rfl (fun _ => rfl) id id id id id id id ?_)

theorem State.sendPacket_keeps {ba : Bool} {z0 s0 : State} (p0 : Packet) (hk : Keeps ba z0 s0) :
    Keeps ba z0 (State.sendPacket s0 p0) := by
  unfold State.sendPacket; try dsimp only
  repeat' with_reducible (first | assumption | apply State.expireDomain_keeps | apply State.pace_keeps | apply State.offer_keeps | apply State.dropNoRoute_keeps | apply State.modZfp_keeps | refine Keeps.ite (fun _ => ?_) (fun _ => ?_) | refine Keeps.upd rfl (fun _ => rfl) id id id id id id id ?_)

theorem State.sendState_keeps {ba : Bool} {z0 s : State} (sub : Nat) (dev : Nat) (view : Nat) (cause : Nat) (inc : Nat) (step : Nat) (ranks : List Nat) (hk : Keeps ba z0 s) :
    Keeps ba z0 (State.sendState s sub dev view cause inc step ranks) := by
  unfold State.sendState; try dsimp only
  repeat' with_reducible (first | assumption | apply State.sendPacket_keeps | refine Keeps.ite (fun _ => ?_) (fun _ => ?_) | refine Keeps.upd rfl (fun _ => rfl) id id id id id id id ?_)

theorem State.tellCoord_keeps {ba : Bool} {z0 s : State} (sub : Nat) (cause : Nat) (step : Nat) (ranks : List Nat) (hk : Keeps ba z0 s) :
    Keeps ba z0 (State.tellCoord s sub cause step ranks) := by
  unfold State.tellCoord; try dsimp only
  repeat' with_reducible (first | assumption | apply State.sendState_keeps | split)

end Sys2Proof.Machine
end

