-- ==== Sys2Proof/Laws/KeepsJobEnd.lean ====
section
/-! SUPPORT. What the operations of Machine/JobEnd.lean keep. -/

namespace Sys2Proof.Machine

open Sys2Proof

theorem State.modStack_keeps {ba : Bool} {z0 s : State} (n : Nat) (f : StackRec → StackRec) (hk : Keeps ba z0 s) :
    Keeps ba z0 (State.modStack s n f) := by
  unfold State.modStack; try dsimp only
  repeat' with_reducible (first | assumption | refine Keeps.upd rfl (fun _ => rfl) id id id id id id id ?_)

theorem State.modQueue_keeps {ba : Bool} {z0 s : State} (q : Nat) (f : QueueRec → QueueRec) (hk : Keeps ba z0 s) :
    Keeps ba z0 (State.modQueue s q f) := by
  unfold State.modQueue; try dsimp only
  repeat' with_reducible (first | assumption | refine Keeps.upd rfl (fun _ => rfl) id id id id id id id ?_)

theorem State.modStatus_keeps {ba : Bool} {z0 s : State} (q : Nat) (i : Nat) (f : Status → Status) (hk : Keeps ba z0 s) :
    Keeps ba z0 (State.modStatus s q i f) := by
  unfold State.modStatus; try dsimp only
  repeat' with_reducible (first | assumption | refine Keeps.upd rfl (fun _ => rfl) id id id id id id id ?_)

theorem State.endCmd_keeps {ba : Bool} {z0 s : State} (q : Nat) (i : Nat) (st : CmdState) (code : Nat) (hk : Keeps ba z0 s) :
    Keeps ba z0 (State.endCmd s q i st code) := by
  unfold State.endCmd; try dsimp only
  repeat' with_reducible (first | assumption | apply State.modStatus_keeps | apply State.modQueue_keeps | refine Keeps.upd rfl (fun _ => rfl) id id id id id id id ?_)

theorem State.finishCmd_keeps {ba : Bool} {z0 s : State} (q : Nat) (i : Nat) (code : Nat) (hk : Keeps ba z0 s) :
    Keeps ba z0 (State.finishCmd s q i code) := by
  unfold State.finishCmd; try dsimp only
  repeat' with_reducible (first | assumption | apply State.endCmd_keeps | refine Keeps.ite (fun _ => ?_) (fun _ => ?_))

theorem State.modSweep_keeps {ba : Bool} {z0 s : State} (site : Nat) (f : DieSweep → DieSweep) (hk : Keeps ba z0 s) :
    Keeps ba z0 (State.modSweep s site f) := by
  unfold State.modSweep; try dsimp only
  repeat' with_reducible (first | assumption | refine Keeps.upd rfl (fun _ => rfl) id id id id id id id ?_)

theorem State.dropRdma_keeps {ba : Bool} {z0 s : State} (gone : Nat → Bool) (hk : Keeps ba z0 s) :
    Keeps ba z0 (State.dropRdma s gone) := by
  unfold State.dropRdma; try dsimp only
  repeat' with_reducible (first | assumption | apply State.modCvu_keeps | apply foldl_keeps | split | intro _ | refine Keeps.upd rfl (fun _ => rfl) id id id id id id id ?_)

theorem State.dropLcores_keeps {ba : Bool} {z0 s : State} (lo : Nat) (n : Nat) (hk : Keeps ba z0 s) :
    Keeps ba z0 (State.dropLcores s lo n) := by
  unfold State.dropLcores; try dsimp only
  repeat' with_reducible (first | assumption | apply State.dropRdma_keeps | split | refine Keeps.upd rfl (fun _ => rfl) id id id id id id id ?_)

theorem State.sweepSite_keeps {ba : Bool} {z0 s : State} (cause : SweepCause) (panel : Bool) (site : Nat) (hk : Keeps ba z0 s) :
    Keeps ba z0 (State.sweepSite s cause panel site) := by
  unfold State.sweepSite; try dsimp only
  repeat' with_reducible (first | assumption | apply State.dropLcores_keeps | apply State.modSweep_keeps | split | refine Keeps.upd rfl (fun _ => rfl) id id id id id id id ?_)

theorem State.sweepCore_keeps {ba : Bool} {z0 s : State} (p : Nat) (hk : Keeps ba z0 s) :
    Keeps ba z0 (State.sweepCore s p) := by
  unfold State.sweepCore; try dsimp only
  repeat' with_reducible (first | assumption | apply State.dropLcores_keeps | apply State.modSweep_keeps | apply State.setCore_keeps | refine Keeps.ite (fun _ => ?_) (fun _ => ?_) | refine Keeps.upd rfl (fun _ => rfl) id id id id id id id ?_)

theorem State.sweptCore_keeps {ba : Bool} {z0 s : State} (p : Nat) (hk : Keeps ba z0 s) :
    Keeps ba z0 (State.sweptCore s p) := by
  unfold State.sweptCore; try dsimp only
  repeat' with_reducible (first | assumption | exact id | exact fun hh => Memory.tfilter_wf _ hh | apply State.modSrams_keeps | apply State.modCore_keeps | refine Keeps.upd rfl (fun _ => rfl) id id id id id id id ?_)

theorem State.discardStreams_keeps {ba : Bool} {z0 s : State} (hk : Keeps ba z0 s) :
    Keeps ba z0 (State.discardStreams s) := by
  unfold State.discardStreams; try dsimp only
  repeat' with_reducible (first | assumption | refine Keeps.upd rfl (fun _ => rfl) id id id id id id id ?_)

theorem State.cutSnapshot_keeps {ba : Bool} {z0 s : State} (hk : Keeps ba z0 s) :
    Keeps ba z0 (State.cutSnapshot s) := by
  unfold State.cutSnapshot; try dsimp only
  repeat' with_reducible (first | assumption | apply State.modCvu_keeps | apply foldl_keeps | split | intro _ | refine Keeps.upd rfl (fun _ => rfl) id id id id id id id ?_)

theorem State.bindMoving_keeps {ba : Bool} {z0 s : State} (result : Nat) (hk : Keeps ba z0 s) :
    Keeps ba z0 (State.bindMoving s result) := by
  unfold State.bindMoving; try dsimp only
  repeat' with_reducible (first | assumption | apply State.applyMove_keeps | apply State.commitRecord_keeps | apply State.modPanel_keeps | apply foldl_keeps | refine Keeps.ite (fun _ => ?_) (fun _ => ?_) | intro _ | refine Keeps.upd rfl (fun _ => rfl) id id id id id id id ?_)

theorem State.finishJob_keeps {ba : Bool} {z0 s : State} (code : Nat) (cause : SweepCause) (hk : Keeps ba z0 s) :
    Keeps ba z0 (State.finishJob s code cause) := by
  unfold State.finishJob; try dsimp only
  repeat' with_reducible (first | assumption | apply State.bindMoving_keeps | apply State.cutSnapshot_keeps | apply State.discardStreams_keeps | apply State.sweepSite_keeps | apply State.dropRdma_keeps | apply State.modStatus_keeps | apply foldl_keeps | refine Keeps.ite (fun _ => ?_) (fun _ => ?_) | intro _ | refine Keeps.upd rfl (fun _ => rfl) id id id id id id id ?_)

theorem State.endJob_keeps {ba : Bool} {z0 s : State} (code : Nat) (hk : Keeps ba z0 s) :
    Keeps ba z0 (State.endJob s code) := by
  unfold State.endJob; try dsimp only
  repeat' with_reducible (first | assumption | apply State.finishJob_keeps)

theorem State.sweepEvent_keeps {ba : Bool} {z0 s : State} (unit : Nat) (cause : SweepCause) (failed : Nat) (hk : Keeps ba z0 s) :
    Keeps ba z0 (State.sweepEvent s unit cause failed) := by
  unfold State.sweepEvent; try dsimp only
  repeat' with_reducible (first | assumption | apply State.raise_keeps)

theorem State.endAborts_keeps {ba : Bool} {z0 s : State} (k_0 : List (Nat × Nat)) (hk : Keeps ba z0 s) :
    Keeps ba z0 (State.endAborts s k_0) := by
  induction k_0 generalizing s with
  | nil =>
    unfold State.endAborts; try dsimp only
    repeat' with_reducible (first | assumption | apply State.finishCmd_keeps | split)
  | cons x_ xs_ ih =>
    unfold State.endAborts; try dsimp only
    repeat' with_reducible (first | assumption | apply ih | apply State.finishCmd_keeps | split)

theorem State.reportEnd_keeps {ba : Bool} {z0 s : State} (hk : Keeps ba z0 s) :
    Keeps ba z0 (State.reportEnd s) := by
  unfold State.reportEnd; try dsimp only
  repeat' with_reducible (first | assumption | apply State.ready_keeps | apply State.endAborts_keeps | apply State.sweepEvent_keeps | apply State.finishCmd_keeps | apply State.endCmd_keeps | apply State.modPanel_keeps | apply State.tellCoord_keeps | refine Keeps.ite (fun _ => ?_) (fun _ => ?_) | split | refine Keeps.upd rfl (fun _ => rfl) id id id id id id id ?_)

theorem State.dropMove_keeps {ba : Bool} {z0 s : State} (site : Nat) (row : Nat) (hk : Keeps ba z0 s) :
    Keeps ba z0 (State.dropMove s site row) := by
  unfold State.dropMove; try dsimp only
  repeat' with_reducible (first | assumption | apply State.sweepCore_keeps | apply State.modPanel_keeps | apply State.modStat_keeps | split | refine Keeps.upd rfl (fun _ => rfl) id id id id id id id ?_)

theorem State.rebindJob_keeps {ba : Bool} {z0 s : State} (hk : Keeps ba z0 s) :
    Keeps ba z0 (State.rebindJob s) := by
  unfold State.rebindJob; try dsimp only
  repeat' with_reducible (first | assumption | exact id | refine Keeps.ite (fun _ => ?_) (fun _ => ?_) | split | exact Memory.writeBytes_wf _ _ | exact Memory.clear_wf _ _ | intro _ | refine Keeps.upd rfl (fun _ => rfl) id id id id id id id ?_)

theorem State.rebindLate_keeps {ba : Bool} {z0 s : State} (hk : Keeps ba z0 s) :
    Keeps ba z0 (State.rebindLate s) := by
  unfold State.rebindLate; try dsimp only
  repeat' with_reducible (first | assumption | apply State.rebindJob_keeps | apply State.shortOver_keeps | apply State.rebind_keeps | apply State.commitRecord_keeps | refine Keeps.ite (fun _ => ?_) (fun _ => ?_))

theorem State.haltJob_keeps {ba : Bool} {z0 s : State} (hk : Keeps ba z0 s) :
    Keeps ba z0 (State.haltJob s) := by
  unfold State.haltJob; try dsimp only
  repeat' with_reducible (first | assumption | apply State.dropMove_keeps | apply State.discardStreams_keeps | apply State.dropRdma_keeps | apply foldl_keeps | intro _ | refine Keeps.upd rfl (fun _ => rfl) id id id id id id id ?_)

theorem State.resumeJob_keeps {ba : Bool} {z0 s : State} (code : Nat) (hk : Keeps ba z0 s) :
    Keeps ba z0 (State.resumeJob s code) := by
  unfold State.resumeJob; try dsimp only
  repeat' with_reducible (first | assumption | apply State.haltJob_keeps | apply State.endJob_keeps | apply State.cutSnapshot_keeps | apply State.modStatus_keeps | apply State.tellCoord_keeps | refine Keeps.ite (fun _ => ?_) (fun _ => ?_) | split | refine Keeps.upd rfl (fun _ => rfl) id id id id id id id ?_)

end Sys2Proof.Machine
end

