-- ==== Sys2Proof/Laws/KeepsStackOps.lean ====
section
/-! SUPPORT. What the operations of Machine/StackOps.lean keep. -/

namespace Sys2Proof.Machine

open Sys2Proof

theorem State.startCopy_keeps {ba : Bool} {z0 s : State} (n : Nat) (region : Nat) (hk : Keeps ba z0 s) :
    Keeps ba z0 (State.startCopy s n region) := by
  unfold State.startCopy; try dsimp only
  repeat' with_reducible (first | assumption | apply State.endJob_keeps | apply State.modStack_keeps | refine Keeps.ite (fun _ => ?_) (fun _ => ?_) | split | refine Keeps.upd rfl (fun _ => rfl) id id id id id id id ?_)

theorem State.retireRegion_keeps {ba : Bool} {z0 s : State} (n : Nat) (region : Nat) (hk : Keeps ba z0 s) :
    Keeps ba z0 (State.retireRegion s n region) := by
  unfold State.retireRegion; try dsimp only
  repeat' with_reducible (first | assumption | apply State.startCopy_keeps | apply State.modStack_keeps | refine Keeps.ite (fun _ => ?_) (fun _ => ?_) | split | refine Keeps.upd rfl (fun _ => rfl) id id id id id id id ?_)

theorem State.loseStack_keeps {ba : Bool} {z0 s : State} (n : Nat) (hk : Keeps ba z0 s) :
    Keeps ba z0 (State.loseStack s n) := by
  unfold State.loseStack; try dsimp only
  repeat' with_reducible (first | assumption | apply State.endJob_keeps | apply State.modStack_keeps | apply State.raiseInc_keeps | apply State.tellCoord_keeps | apply State.raise_keeps | refine Keeps.ite (fun _ => ?_) (fun _ => ?_) | refine Keeps.upd rfl (fun _ => rfl) id id id id id id id ?_)

theorem State.stackCorr_keeps {ba : Bool} {z0 s : State} (n : Nat) (region : Nat) (hk : Keeps ba z0 s) :
    Keeps ba z0 (State.stackCorr s n region) := by
  unfold State.stackCorr; try dsimp only
  repeat' with_reducible (first | assumption | apply State.retireRegion_keeps | apply State.modStack_keeps | apply State.cntOvf_keeps | refine Keeps.ite (fun _ => ?_) (fun _ => ?_) | refine Keeps.upd rfl (fun _ => rfl) id id id id id id id ?_)

theorem State.stackUncorr_keeps {ba : Bool} {z0 s : State} (n : Nat) (region : Nat) (hk : Keeps ba z0 s) :
    Keeps ba z0 (State.stackUncorr s n region) := by
  unfold State.stackUncorr; try dsimp only
  repeat' with_reducible (first | assumption | apply State.loseStack_keeps | apply State.retireRegion_keeps | apply State.modStack_keeps | apply State.cntOvf_keeps | refine Keeps.ite (fun _ => ?_) (fun _ => ?_) | refine Keeps.upd rfl (fun _ => rfl) id id id id id id id ?_)

theorem State.modStacks_keeps {b : Bool} {s0 s : State} (f : Stacks → Stacks)
    (hf : Memory.wf s.plos.mem = true → Memory.wf (f s.plos).mem = true) (h : Keeps b s0 s) : Keeps b s0 (s.modStacks f) := by
  unfold State.modStacks; exact Keeps.upd rfl (fun _ => rfl) id id id id id hf id h

theorem State.checkGranule_keeps {ba : Bool} {z0 s : State} (n : Nat) (off : Nat) (hk : Keeps ba z0 s) :
    Keeps ba z0 (State.checkGranule s n off) := by
  unfold State.checkGranule; try dsimp only
  repeat' with_reducible (first | assumption | exact id | apply State.modStacks_keeps | apply State.stackUncorr_keeps | apply State.stackCorr_keeps | refine Keeps.ite (fun _ => ?_) (fun _ => ?_) | split | refine Keeps.upd rfl (fun _ => rfl) id id id id id id id ?_)

theorem State.readGranule_keeps {ba : Bool} {z0 s : State} (n : Nat) (off : Nat) (hk : Keeps ba z0 s) :
    Keeps ba z0 (State.readGranule s n off).1 := by
  unfold State.readGranule; try dsimp only
  repeat' with_reducible (first | assumption | apply State.checkGranule_keeps | refine Keeps.ite (fun _ => ?_) (fun _ => ?_))

theorem State.modNvm_keeps {ba : Bool} {z0 s : State} (f : Nvm → Nvm) (hk : Keeps ba z0 s) :
    Keeps ba z0 (State.modNvm s f) := by
  unfold State.modNvm; try dsimp only
  repeat' with_reducible (first | assumption | refine Keeps.upd rfl (fun _ => rfl) id id id id id id id ?_)

theorem State.stage_keeps {ba : Bool} {z0 s : State} (n : Nat) (addr : Nat) (bytes : List (BitVec 8)) (poison : BitVec 8) (hk : Keeps ba z0 s) :
    Keeps ba z0 (State.stage s n addr bytes poison) := by
  unfold State.stage; try dsimp only
  repeat' with_reducible (first | assumption | apply State.modNvm_keeps | apply State.raise_keeps | refine Keeps.ite (fun _ => ?_) (fun _ => ?_) | refine Keeps.upd rfl (fun _ => rfl) id id id id id id id ?_)

theorem State.putStack_keeps {ba : Bool} {z0 s : State} (k : Nat) (bytes : List (BitVec 8)) (poison : BitVec 8) (hk : Keeps ba z0 s) :
    Keeps ba z0 (State.putStack s k bytes poison) := by
  unfold State.putStack; try dsimp only
  repeat' with_reducible (first | assumption | exact id | apply State.modStacks_keeps | refine Keeps.ite (fun _ => ?_) (fun _ => ?_) | split | exact Memory.writeBytes_wf _ _ | exact Memory.clear_wf _ _ | intro _ | refine Keeps.upd rfl (fun _ => rfl) id id id id id id id ?_)

theorem State.noteWritten_keeps {ba : Bool} {z0 s : State} (n : Nat) (phys : Nat) (hk : Keeps ba z0 s) :
    Keeps ba z0 (State.noteWritten s n phys) := by
  unfold State.noteWritten; try dsimp only
  repeat' with_reducible (first | assumption | apply State.modStack_keeps | refine Keeps.ite (fun _ => ?_) (fun _ => ?_) | refine Keeps.upd rfl (fun _ => rfl) id id id id id id id ?_)

theorem State.acceptWrite_keeps {ba : Bool} {z0 s : State} (n : Nat) (off : Nat) (bytes : List (BitVec 8)) (poison : BitVec 8) (hk : Keeps ba z0 s) :
    Keeps ba z0 (State.acceptWrite s n off bytes poison) := by
  unfold State.acceptWrite; try dsimp only
  repeat' with_reducible (first | assumption | exact id | apply State.noteWritten_keeps | apply State.putStack_keeps | apply State.stage_keeps | apply State.checkGranule_keeps | apply State.modStacks_keeps | refine Keeps.ite (fun _ => ?_) (fun _ => ?_) | split | refine Keeps.upd rfl (fun _ => rfl) id id id id id id id ?_)

theorem State.acceptBytes_keeps {ba : Bool} {z0 s : State} (st : Nat) (off : Nat) (bytes : List (BitVec 8)) (poison : List Bool) (k_0 : Nat) (hk : Keeps ba z0 s) :
    Keeps ba z0 (State.acceptBytes s st off bytes poison k_0) := by
  induction k_0 generalizing s st off bytes poison with
  | zero =>
    unfold State.acceptBytes; try dsimp only
    repeat' with_reducible (first | assumption | apply State.acceptWrite_keeps | apply foldl_keeps | refine Keeps.ite (fun _ => ?_) (fun _ => ?_) | split | intro _)
  | succ n_ ih =>
    unfold State.acceptBytes; try dsimp only
    repeat' with_reducible (first | assumption | apply ih | apply State.acceptWrite_keeps | apply foldl_keeps | refine Keeps.ite (fun _ => ?_) (fun _ => ?_) | split | intro _)

theorem State.readBytesAt_keeps {ba : Bool} {z0 s : State} (st : Nat) (off : Nat) (len : Nat) (k_0 : Nat) (hk : Keeps ba z0 s) :
    Keeps ba z0 (State.readBytesAt s st off len k_0).1 := by
  induction k_0 generalizing s st off len with
  | zero =>
    unfold State.readBytesAt; try dsimp only
    repeat' with_reducible (first | assumption | apply State.readGranule_keeps | refine Keeps.ite (fun _ => ?_) (fun _ => ?_) | split)
  | succ n_ ih =>
    unfold State.readBytesAt; try dsimp only
    repeat' with_reducible (first | assumption | apply ih | apply State.readGranule_keeps | refine Keeps.ite (fun _ => ?_) (fun _ => ?_) | split)

theorem State.contractGranule_keeps {ba : Bool} {z0 s : State} (n : Nat) (off : Nat) (c : Nat) (old : Bool) (hk : Keeps ba z0 s) :
    Keeps ba z0 (State.contractGranule s n off c old).1 := by
  unfold State.contractGranule; try dsimp only
  repeat' with_reducible (first | assumption | apply State.readGranule_keeps | split)

theorem State.askParts_keeps {ba : Bool} {z0 s : State} (cls : Nat) (g : Nat) (addr : Nat) (len : Nat) (part : Nat) (data : Option (List (BitVec 8) × List Bool)) (k_0 : Nat) (hk : Keeps ba z0 s) :
    Keeps ba z0 (State.askParts s cls g addr len part data k_0) := by
  induction k_0 generalizing s cls g addr len part data with
  | zero =>
    unfold State.askParts; try dsimp only
    repeat' with_reducible (first | assumption | exact id | apply State.modStacks_keeps | refine Keeps.ite (fun _ => ?_) (fun _ => ?_) | split | refine Keeps.upd rfl (fun _ => rfl) id id id id id id id ?_)
  | succ n_ ih =>
    unfold State.askParts; try dsimp only
    repeat' with_reducible (first | assumption | exact id | apply ih | apply State.modStacks_keeps | refine Keeps.ite (fun _ => ?_) (fun _ => ?_) | split | refine Keeps.upd rfl (fun _ => rfl) id id id id id id id ?_)

theorem State.askStack_keeps {ba : Bool} {z0 s : State} (asker : Asker) (cls : Nat) (addr : Nat) (len : Nat) (data : Option (List (BitVec 8) × List Bool)) (hk : Keeps ba z0 s) :
    Keeps ba z0 (State.askStack s asker cls addr len data) := by
  unfold State.askStack; try dsimp only
  repeat' with_reducible (first | assumption | exact id | apply State.askParts_keeps | apply State.modStacks_keeps | refine Keeps.upd rfl (fun _ => rfl) id id id id id id id ?_)

theorem State.sweepRegion_keeps {ba : Bool} {z0 s : State} (n : Nat) (phys : Nat) (hk : Keeps ba z0 s) :
    Keeps ba z0 (State.sweepRegion s n phys) := by
  unfold State.sweepRegion; try dsimp only
  repeat' with_reducible (first | assumption | exact id | apply State.modStacks_keeps | apply State.modStack_keeps | split | exact Memory.clear_wf _ _ | refine Keeps.upd rfl (fun _ => rfl) id id id id id id id ?_)

theorem State.partServed_keeps {ba : Bool} {z0 s : State} (a : StackAccess) (code : Nat) (bytes : List (BitVec 8)) (poison : List Bool) (hk : Keeps ba z0 s) :
    Keeps ba z0 (State.partServed s a code bytes poison).1 := by
  unfold State.partServed; try dsimp only
  repeat' with_reducible (first | assumption | exact id | apply State.modStacks_keeps | refine Keeps.ite (fun _ => ?_) (fun _ => ?_) | split | refine Keeps.upd rfl (fun _ => rfl) id id id id id id id ?_)

theorem State.logShadow_keeps {ba : Bool} {z0 s : State} (addr : Nat) (step : Nat) (bytes : List (BitVec 8)) (poison : List Bool) (k_0 : Nat) (hk : Keeps ba z0 s) :
    Keeps ba z0 (State.logShadow s addr step bytes poison k_0) := by
  induction k_0 generalizing s addr step bytes poison with
  | zero =>
    unfold State.logShadow; try dsimp only
    repeat' with_reducible (first | assumption | apply foldl_keeps | refine Keeps.ite (fun _ => ?_) (fun _ => ?_) | split | intro _ | refine Keeps.upd rfl (fun _ => rfl) id id id id id id id ?_)
  | succ n_ ih =>
    unfold State.logShadow; try dsimp only
    repeat' with_reducible (first | assumption | apply ih | apply foldl_keeps | refine Keeps.ite (fun _ => ?_) (fun _ => ?_) | split | intro _ | refine Keeps.upd rfl (fun _ => rfl) id id id id id id id ?_)

theorem State.serveAccess_keeps {ba : Bool} {z0 s : State} (n : Nat) (hk : Keeps ba z0 s) :
    Keeps ba z0 (State.serveAccess s n).1 := by
  unfold State.serveAccess; try dsimp only
  repeat' with_reducible (first | assumption | exact id | apply State.logShadow_keeps | apply State.partServed_keeps | apply State.sweepRegion_keeps | apply State.readBytesAt_keeps | apply State.acceptBytes_keeps | apply State.modStacks_keeps | refine Keeps.ite (fun _ => ?_) (fun _ => ?_) | split | refine Keeps.upd rfl (fun _ => rfl) id id id id id id id ?_)

theorem State.attachAnew_keeps {ba : Bool} {z0 s : State} (hk : Keeps ba z0 s) :
    Keeps ba z0 (State.attachAnew s) := by
  unfold State.attachAnew; try dsimp only
  repeat' with_reducible (first | assumption | apply State.modStack_keeps | apply State.each_keeps | intro _)

end Sys2Proof.Machine
end

