-- ==== Sys2Proof/Laws/KeepsRoute.lean ====
section
/-! SUPPORT. What the operations of Machine/Route.lean keep. -/

namespace Sys2Proof.Machine

open Sys2Proof

theorem State.modDie_keeps {ba : Bool} {z0 s : State} (site : Nat) (f : MeshDie → MeshDie) (hk : Keeps ba z0 s) :
    Keeps ba z0 (State.modDie s site f) := by
  unfold State.modDie; try dsimp only
  repeat' with_reducible (first | assumption | refine Keeps.upd rfl (fun _ => rfl) id id id id id id id ?_)

theorem State.countLost_keeps {ba : Bool} {z0 s : State} (site : Nat) (hk : Keeps ba z0 s) :
    Keeps ba z0 (State.countLost s site) := by
  unfold State.countLost; try dsimp only
  repeat' with_reducible (first | assumption | apply State.modDie_keeps | apply State.cntOvf_keeps | refine Keeps.upd rfl (fun _ => rfl) id id id id id id id ?_)

theorem State.countC0Refused_keeps {ba : Bool} {z0 s : State} (site : Nat) (hk : Keeps ba z0 s) :
    Keeps ba z0 (State.countC0Refused s site) := by
  unfold State.countC0Refused; try dsimp only
  repeat' with_reducible (first | assumption | apply State.modDie_keeps | apply State.cntOvf_keeps | refine Keeps.upd rfl (fun _ => rfl) id id id id id id id ?_)

theorem State.addFlit_keeps {ba : Bool} {z0 s : State} (f : Flit) (hk : Keeps ba z0 s) :
    Keeps ba z0 (State.addFlit s f) := by
  unfold State.addFlit; try dsimp only
  repeat' with_reducible (first | assumption | refine Keeps.upd rfl (fun _ => rfl) id id id id id id id ?_)

theorem State.modDrop_keeps {ba : Bool} {z0 s : State} (l : Nat) (f : WadiDrop → WadiDrop) (hk : Keeps ba z0 s) :
    Keeps ba z0 (State.modDrop s l f) := by
  unfold State.modDrop; try dsimp only
  repeat' with_reducible (first | assumption | refine Keeps.upd rfl (fun _ => rfl) id id id id id id id ?_)

theorem State.wadiMark_keeps {ba : Bool} {z0 s : State} (key : Nat) (hk : Keeps ba z0 s) :
    Keeps ba z0 (State.wadiMark s key) := by
  unfold State.wadiMark; try dsimp only
  repeat' with_reducible (first | assumption | refine Keeps.upd rfl (fun _ => rfl) id id id id id id id ?_)

theorem State.closeWadi_keeps {ba : Bool} {z0 s : State} (l : Nat) (w : Nat) (hk : Keeps ba z0 s) :
    Keeps ba z0 (State.closeWadi s l w) := by
  unfold State.closeWadi; try dsimp only
  repeat' with_reducible (first | assumption | apply State.wadiMark_keeps | refine Keeps.upd rfl (fun _ => rfl) id id id id id id id ?_)

theorem State.openWadi_keeps {ba : Bool} {z0 s : State} (p : Nat) (l : Nat) (w : Nat) (bs : List (BitVec 8)) (hk : Keeps ba z0 s) :
    Keeps ba z0 (State.openWadi s p l w bs) := by
  unfold State.openWadi; try dsimp only
  repeat' with_reducible (first | assumption | apply State.closeWadi_keeps | apply State.wadiMark_keeps | apply State.modDrop_keeps | apply State.raise_keeps | refine Keeps.ite (fun _ => ?_) (fun _ => ?_) | split | refine Keeps.upd rfl (fun _ => rfl) id id id id id id id ?_)

theorem State.doneRecord_keeps {ba : Bool} {z0 s : State} (l : Nat) (off : Nat) (seq : Nat) (code : Nat) (landed : Nat) (hk : Keeps ba z0 s) :
    Keeps ba z0 (State.doneRecord s l off seq code landed) := by
  unfold State.doneRecord; try dsimp only
  repeat' with_reducible (first | assumption | apply State.modPipe_keeps | refine Keeps.ite (fun _ => ?_) (fun _ => ?_) | split | refine Keeps.upd rfl (fun _ => rfl) id id id id id id id ?_)

theorem State.readSource_keeps {ba : Bool} {z0 s : State} (p : Nat) (off : Nat) (len : Nat) (hk : Keeps ba z0 s) :
    Keeps ba z0 (State.readSource s p off len).1 := by
  unfold State.readSource; try dsimp only
  repeat' with_reducible (first | assumption | apply State.readWords_keeps)

theorem State.sendWadi_keeps {ba : Bool} {z0 s : State} (src : Nat) (dest : Nat) (gran : Nat) (cls : Nat) (srcPos : Nat) (ep : Bool) (tag : Option Nat) (ready : Nat) (i : Nat) (bad : List Bool) (k_0 : Nat) (k_1 : List (BitVec 8)) (hk : Keeps ba z0 s) :
    Keeps ba z0 (State.sendWadi s src dest gran cls srcPos ep tag ready i bad k_0 k_1) := by
  induction k_0 generalizing s src dest gran cls srcPos ep tag ready i bad k_1 with
  | zero =>
    unfold State.sendWadi; try dsimp only
    repeat' with_reducible (first | assumption | apply State.addFlit_keeps | split)
  | succ n_ ih =>
    unfold State.sendWadi; try dsimp only
    repeat' with_reducible (first | assumption | apply ih | apply State.addFlit_keeps | split)

theorem State.modRdma_keeps {ba : Bool} {z0 s : State} (key : Nat) (f : RdmaRec → RdmaRec) (hk : Keeps ba z0 s) :
    Keeps ba z0 (State.modRdma s key f) := by
  unfold State.modRdma; try dsimp only
  repeat' with_reducible (first | assumption | split | refine Keeps.upd rfl (fun _ => rfl) id id id id id id id ?_)

theorem State.startSend_keeps {ba : Bool} {z0 s : State} (e : RdmaSend) (hk : Keeps ba z0 s) :
    Keeps ba z0 (State.startSend s e) := by
  unfold State.startSend; try dsimp only
  repeat' with_reducible (first | assumption | apply State.sendWadi_keeps | apply State.modZfp_keeps | refine Keeps.ite (fun _ => ?_) (fun _ => ?_) | split | refine Keeps.upd rfl (fun _ => rfl) id id id id id id id ?_)

theorem State.finishRdma_keeps {ba : Bool} {z0 s : State} (key : Nat) (code : Nat) (hk : Keeps ba z0 s) :
    Keeps ba z0 (State.finishRdma s key code) := by
  unfold State.finishRdma; try dsimp only
  repeat' with_reducible (first | assumption | apply State.doneRecord_keeps | split | refine Keeps.upd rfl (fun _ => rfl) id id id id id id id ?_)

theorem State.rdmaGo_keeps {ba : Bool} {z0 s : State} (key : Nat) (bytes : List (BitVec 8)) (ws : List Bool) (hk : Keeps ba z0 s) :
    Keeps ba z0 (State.rdmaGo s key bytes ws) := by
  unfold State.rdmaGo; try dsimp only
  repeat' with_reducible (first | assumption | apply State.finishRdma_keeps | apply State.startSend_keeps | apply State.modRdma_keeps | apply State.sendWadi_keeps | apply State.askCvu_keeps | apply State.modZfp_keeps | refine Keeps.ite (fun _ => ?_) (fun _ => ?_) | split | refine Keeps.upd rfl (fun _ => rfl) id id id id id id id ?_)

theorem State.postRdma_keeps {ba : Bool} {z0 s : State} (p : Nat) (l : Nat) (cls : Nat) (t : Nat) (bs : List (BitVec 8)) (hk : Keeps ba z0 s) :
    Keeps ba z0 (State.postRdma s p l cls t bs) := by
  unfold State.postRdma; try dsimp only
  repeat' with_reducible (first | assumption | apply State.rdmaGo_keeps | apply State.readSource_keeps | apply State.doneRecord_keeps | apply State.askStack_keeps | refine Keeps.ite (fun _ => ?_) (fun _ => ?_) | split | refine Keeps.upd rfl (fun _ => rfl) id id id id id id id ?_)

theorem State.settle_keeps {ba : Bool} {z0 s : State} (i : Nat) (hk : Keeps ba z0 s) :
    Keeps ba z0 (State.settle s i) := by
  unfold State.settle; try dsimp only
  repeat' with_reducible (first | assumption | apply State.sendState_keeps | apply State.sendPacket_keeps | apply State.modZfp_keeps | refine Keeps.ite (fun _ => ?_) (fun _ => ?_) | split | refine Keeps.upd rfl (fun _ => rfl) id id id id id id id ?_)

theorem State.account_keeps {ba : Bool} {z0 s : State} (tag : Option Nat) (landed : Bool) (hk : Keeps ba z0 s) :
    Keeps ba z0 (State.account s tag landed) := by
  unfold State.account; try dsimp only
  repeat' with_reducible (first | assumption | apply State.settle_keeps | apply State.modRdma_keeps | apply State.modZfp_keeps | refine Keeps.ite (fun _ => ?_) (fun _ => ?_) | split | refine Keeps.upd rfl (fun _ => rfl) id id id id id id id ?_)

theorem State.sendFlits_keeps {ba : Bool} {z0 s : State} (p : Nat) (l : Nat) (dest : Nat) (cls : Nat) (kind : Nat) (arg : Nat) (doff : Nat) (t : Nat) (sched : Bool) (fromBuf : Bool) (k_0 : Nat) (k_1 : Nat) (k_2 : List (BitVec 8)) (hk : Keeps ba z0 s) :
    Keeps ba z0 (State.sendFlits s p l dest cls kind arg doff t sched fromBuf k_0 k_1 k_2) := by
  induction k_0 generalizing s p l dest cls kind arg doff t sched fromBuf k_1 k_2 with
  | zero =>
    unfold State.sendFlits; try dsimp only
    repeat' with_reducible (first | assumption | apply State.addFlit_keeps | refine Keeps.ite (fun _ => ?_) (fun _ => ?_) | split)
  | succ n_ ih =>
    unfold State.sendFlits; try dsimp only
    repeat' with_reducible (first | assumption | apply ih | apply State.addFlit_keeps | refine Keeps.ite (fun _ => ?_) (fun _ => ?_) | split)

theorem State.redFault_keeps {ba : Bool} {z0 s : State} (pos : Nat) (tag : Nat) (kind : Nat) (hk : Keeps ba z0 s) :
    Keeps ba z0 (State.redFault s pos tag kind) := by
  unfold State.redFault; try dsimp only
  repeat' with_reducible (first | assumption | apply State.modDie_keeps | apply State.endJob_keeps | apply State.cntOvf_keeps | apply State.raise_keeps | refine Keeps.upd rfl (fun _ => rfl) id id id id id id id ?_)

theorem State.sendRed_keeps {ba : Bool} {z0 s : State} (p : Nat) (l : Nat) (tag : Nat) (cls : Nat) (t : Nat) (k_0 : Nat) (k_1 : Nat) (k_2 : List (BitVec 8)) (hk : Keeps ba z0 s) :
    Keeps ba z0 (State.sendRed s p l tag cls t k_0 k_1 k_2) := by
  induction k_0 generalizing s p l tag cls t k_1 k_2 with
  | zero =>
    unfold State.sendRed; try dsimp only
    repeat' with_reducible (first | assumption | apply State.addFlit_keeps | split)
  | succ n_ ih =>
    unfold State.sendRed; try dsimp only
    repeat' with_reducible (first | assumption | apply ih | apply State.addFlit_keeps | split)

theorem State.sendMem_keeps {ba : Bool} {z0 s : State} (p : Nat) (l : Nat) (cls : Nat) (t : Nat) (arg : Nat) (bs : List (BitVec 8)) (k_0 : List Nat) (hk : Keeps ba z0 s) :
    Keeps ba z0 (State.sendMem s p l cls t arg bs k_0) := by
  induction k_0 generalizing s p l cls t arg bs with
  | nil =>
    unfold State.sendMem; try dsimp only
    repeat' with_reducible (first | assumption | apply State.addFlit_keeps | split)
  | cons x_ xs_ ih =>
    unfold State.sendMem; try dsimp only
    repeat' with_reducible (first | assumption | apply ih | apply State.addFlit_keeps | split)

theorem State.enterBuffer_keeps {ba : Bool} {z0 s : State} (p : Nat) (l : Nat) (dest : Nat) (hk : Keeps ba z0 s) :
    Keeps ba z0 (State.enterBuffer s p l dest) := by
  unfold State.enterBuffer; try dsimp only
  repeat' with_reducible (first | assumption | apply State.modPipe_keeps | refine Keeps.ite (fun _ => ?_) (fun _ => ?_) | refine Keeps.upd rfl (fun _ => rfl) id id id id id id id ?_)

theorem State.routeSend_keeps {ba : Bool} {z0 s : State} (p : Nat) (l : Nat) (t : Nat) (k : Slots) (bs : List (BitVec 8)) (hk : Keeps ba z0 s) :
    Keeps ba z0 (State.routeSend s p l t k bs) := by
  unfold State.routeSend; try dsimp only
  repeat' with_reducible (first | assumption | apply State.enterBuffer_keeps | apply State.sendMem_keeps | apply State.sendRed_keeps | apply State.redFault_keeps | apply State.sendFlits_keeps | apply State.postRdma_keeps | apply State.modCtx_keeps | apply State.raise_keeps | refine Keeps.ite (fun _ => ?_) (fun _ => ?_) | split | refine Keeps.upd rfl (fun _ => rfl) id id id id id id id ?_)

theorem State.routeAct_keeps {ba : Bool} {z0 s : State} (p : Nat) (t : Nat) (k : Slots) (hk : Keeps ba z0 s) :
    Keeps ba z0 (State.routeAct s p t k) := by
  unfold State.routeAct; try dsimp only
  repeat' with_reducible (first | assumption | apply State.routeSend_keeps | apply State.openWadi_keeps | apply State.closeWadi_keeps | apply State.countC0Refused_keeps | apply State.modPipe_keeps | apply State.modCtl_keeps | apply State.raise_keeps | refine Keeps.ite (fun _ => ?_) (fun _ => ?_) | split | refine Keeps.upd rfl (fun _ => rfl) id id id id id id id ?_)

end Sys2Proof.Machine
end

