-- ==== Sys2Proof/Laws/KeepsSeif.lean ====
section
/-! SUPPORT. What the operations of Machine/Seif.lean keep. -/

namespace Sys2Proof.Machine

open Sys2Proof

theorem State.crossSeif_keeps {ba : Bool} {z0 s : State} (site : Nat) (row : Nat) (east : Bool) (c : Nat) (hk : Keeps ba z0 s) :
    Keeps ba z0 (State.crossSeif s site row east c).1 := by
  unfold State.crossSeif
  dsimp only
  split
  · exact hk
  · exact Keeps.upd rfl (fun _ => rfl) id id id id id id id hk

theorem State.crossEach_keeps {ba : Bool} {z0 s : State} (d : Dir) (P : Nat) (Q : Nat) (c : Nat) (w : Nat) (k_0 : List Nat) (hk : Keeps ba z0 s) :
    Keeps ba z0 (State.crossEach s d P Q c w k_0).1 := by
  induction k_0 generalizing s d P Q c w with
  | nil =>
    unfold State.crossEach; try dsimp only
    repeat' with_reducible (first | assumption | apply State.crossSeif_keeps | refine Keeps.ite (fun _ => ?_) (fun _ => ?_) | split)
  | cons x_ xs_ ih =>
    unfold State.crossEach; try dsimp only
    repeat' with_reducible (first | assumption | apply ih | apply State.crossSeif_keeps | refine Keeps.ite (fun _ => ?_) (fun _ => ?_) | split)

theorem State.crossSeams_keeps {ba : Bool} {z0 s : State} (d : Dir) (P : Nat) (Q : Nat) (P' : Nat) (c : Nat) (hk : Keeps ba z0 s) :
    Keeps ba z0 (State.crossSeams s d P Q P' c).1 := by
  unfold State.crossSeams; try dsimp only
  repeat' with_reducible (first | assumption | apply State.crossEach_keeps | split)

theorem State.shiftStore_keeps {ba : Bool} {z0 s : State} (p : Nat) (a : Access) (hk : Keeps ba z0 s) :
    Keeps ba z0 (State.shiftStore s p a) := by
  unfold State.shiftStore; try dsimp only
  repeat' with_reducible (first | assumption | apply State.crossSeif_keeps | apply State.each_keeps | refine Keeps.ite (fun _ => ?_) (fun _ => ?_) | intro _)

end Sys2Proof.Machine
end

