-- ==== Sys2Proof/Laws/KeepsSync.lean ====
section
/-! SUPPORT. What the operations of Machine/Sync.lean keep. -/

namespace Sys2Proof.Machine

open Sys2Proof

theorem State.swallow_keeps {ba : Bool} {z0 s : State} (p : Nat) (hk : Keeps ba z0 s) :
    Keeps ba z0 (State.swallow s p) := by
  unfold State.swallow; try dsimp only
  repeat' with_reducible (first | assumption | apply State.setCore_keeps | refine Keeps.ite (fun _ => ?_) (fun _ => ?_) | split)

theorem State.landDeliv_keeps {ba : Bool} {z0 s : State} (p : Nat) (c : Nat) (d : Deliv) (hk : Keeps ba z0 s) :
    Keeps ba z0 (State.landDeliv s p c d) := by
  unfold State.landDeliv; try dsimp only
  repeat' with_reducible (first | assumption | apply State.putGranule_keeps | apply State.modPipe_keeps | split | refine Keeps.upd rfl (fun _ => rfl) id id id id id id id ?_)

theorem State.meshHead_keeps {ba : Bool} {z0 s : State} (p : Nat) (c : Nat) (hk : Keeps ba z0 s) :
    Keeps ba z0 (State.meshHead s p c) := by
  unfold State.meshHead; try dsimp only
  repeat' with_reducible (first | assumption | apply State.landDeliv_keeps | apply State.modPipe_keeps | refine Keeps.ite (fun _ => ?_) (fun _ => ?_) | split | refine Keeps.upd rfl (fun _ => rfl) id id id id id id id ?_)

theorem State.rampHead_keeps {ba : Bool} {z0 s : State} (p : Nat) (c : Nat) (hk : Keeps ba z0 s) :
    Keeps ba z0 (State.rampHead s p c) := by
  unfold State.rampHead; try dsimp only
  repeat' with_reducible (first | assumption | apply State.modPipe_keeps | refine Keeps.ite (fun _ => ?_) (fun _ => ?_) | split | refine Keeps.upd rfl (fun _ => rfl) id id id id id id id ?_)

theorem State.streamHead_keeps {ba : Bool} {z0 s : State} (p : Nat) (c : Nat) (hk : Keeps ba z0 s) :
    Keeps ba z0 (State.streamHead s p c) := by
  unfold State.streamHead; try dsimp only
  repeat' with_reducible (first | assumption | apply State.landDeliv_keeps | apply State.modPipe_keeps | refine Keeps.ite (fun _ => ?_) (fun _ => ?_) | split | refine Keeps.upd rfl (fun _ => rfl) id id id id id id id ?_)

theorem State.copyGranule_keeps {ba : Bool} {z0 s : State} (p : Nat) (page : Nat) (src : Nat) (i : Nat) (hk : Keeps ba z0 s) :
    Keeps ba z0 (State.copyGranule s p page src i) := by
  unfold State.copyGranule; try dsimp only
  repeat' with_reducible (first | assumption | apply State.putBundle_keeps | apply State.readWords_keeps)

theorem State.pageCycle_keeps {ba : Bool} {z0 s : State} (p : Nat) (c : Nat) (hk : Keeps ba z0 s) :
    Keeps ba z0 (State.pageCycle s p c) := by
  unfold State.pageCycle; try dsimp only
  repeat' with_reducible (first | assumption | apply State.copyGranule_keeps | apply State.modPipe_keeps | apply State.modCtl_keeps | refine Keeps.ite (fun _ => ?_) (fun _ => ?_) | split | refine Keeps.upd rfl (fun _ => rfl) id id id id id id id ?_)

theorem State.recordHead_keeps {ba : Bool} {z0 s : State} (p : Nat) (c : Nat) (hk : Keeps ba z0 s) :
    Keeps ba z0 (State.recordHead s p c) := by
  unfold State.recordHead; try dsimp only
  repeat' with_reducible (first | assumption | apply State.putWord_keeps | apply State.modPipe_keeps | refine Keeps.ite (fun _ => ?_) (fun _ => ?_) | split | refine Keeps.upd rfl (fun _ => rfl) id id id id id id id ?_)

theorem State.bankCycle_keeps {ba : Bool} {z0 s : State} (p : Nat) (c : Nat) (hk : Keeps ba z0 s) :
    Keeps ba z0 (State.bankCycle s p c) := by
  unfold State.bankCycle; try dsimp only
  repeat' with_reducible (first | assumption | apply State.recordHead_keeps | apply State.pageCycle_keeps | apply State.streamHead_keeps | apply State.rampHead_keeps | apply State.meshHead_keeps)

theorem State.bankCycles_keeps {ba : Bool} {z0 s : State} (p : Nat) (c : Nat) (k_0 : Nat) (hk : Keeps ba z0 s) :
    Keeps ba z0 (State.bankCycles s p c k_0) := by
  induction k_0 generalizing s p c with
  | zero =>
    unfold State.bankCycles; try dsimp only
    repeat' with_reducible (first | assumption | apply State.bankCycle_keeps | refine Keeps.ite (fun _ => ?_) (fun _ => ?_) | split)
  | succ n_ ih =>
    unfold State.bankCycles; try dsimp only
    repeat' with_reducible (first | assumption | apply ih | apply State.bankCycle_keeps | refine Keeps.ite (fun _ => ?_) (fun _ => ?_) | split)

theorem State.sync_keeps {ba : Bool} {z0 s : State} (p : Nat) (hk : Keeps ba z0 s) :
    Keeps ba z0 (State.sync s p) := by
  unfold State.sync; try dsimp only
  repeat' with_reducible (first | assumption | apply State.bankCycles_keeps | apply State.swallow_keeps | apply State.modCore_keeps | refine Keeps.upd rfl (fun _ => rfl) id id id id id id id ?_)

theorem State.arriveMesh_keeps {ba : Bool} {z0 s0 : State} (p : Nat) (dir : Nat) (d : Deliv) (hk : Keeps ba z0 s0) :
    Keeps ba z0 (State.arriveMesh s0 p dir d) := by
  unfold State.arriveMesh; try dsimp only
  repeat' with_reducible (first | assumption | apply State.sync_keeps | apply State.landDeliv_keeps | apply State.recordOffBundle_keeps | apply State.modPipe_keeps | refine Keeps.ite (fun _ => ?_) (fun _ => ?_) | refine Keeps.upd rfl (fun _ => rfl) id id id id id id id ?_)

theorem State.arriveStream_keeps {ba : Bool} {z0 s0 : State} (p : Nat) (d : Deliv) (hk : Keeps ba z0 s0) :
    Keeps ba z0 (State.arriveStream s0 p d) := by
  unfold State.arriveStream; try dsimp only
  repeat' with_reducible (first | assumption | apply State.sync_keeps | apply State.recordOffBundle_keeps | apply State.modPipe_keeps | refine Keeps.ite (fun _ => ?_) (fun _ => ?_) | refine Keeps.upd rfl (fun _ => rfl) id id id id id id id ?_)

end Sys2Proof.Machine
end

