-- ==== Sys2Proof/Laws/KeepsIssue.lean ====
section
/-! SUPPORT. What the operations of Machine/Issue.lean keep. -/

namespace Sys2Proof.Machine

open Sys2Proof

theorem State.serve_keeps {ba : Bool} {z0 s : State} (p : Nat) (a : Access) (hk : Keeps ba z0 s) :
    Keeps ba z0 (State.serve s p a).1 := by
  unfold State.serve; try dsimp only
  repeat' with_reducible (first | assumption | exact id | apply State.putWords_keeps | apply State.putHalf_keeps | apply State.readWords_keeps | apply State.readWord_keeps | refine Keeps.ite (fun _ => ?_) (fun _ => ?_) | split | exact Memory.writeBytes_wf _ _ | exact Memory.clear_wf _ _ | intro _ | refine Keeps.upd rfl (fun _ => rfl) id id id id id id id ?_)

theorem State.serveNow_keeps {ba : Bool} {z0 s : State} (p : Nat) (a : Access) (hk : Keeps ba z0 s) :
    Keeps ba z0 (State.serveNow s p a).1 := by
  unfold State.serveNow; try dsimp only
  repeat' with_reducible (first | assumption | apply State.serve_keeps | apply State.shiftStore_keeps | apply State.modPipe_keeps)

theorem State.serveCycle_keeps {ba : Bool} {z0 s : State} (p : Nat) (ld0 : Access) (ls1 : Access) (hk : Keeps ba z0 s) :
    Keeps ba z0 (State.serveCycle s p ld0 ls1).1 := by
  unfold State.serveCycle; try dsimp only
  repeat' with_reducible (first | assumption | apply State.serveNow_keeps | refine Keeps.ite (fun _ => ?_) (fun _ => ?_) | split)

theorem State.issueNow_keeps {ba : Bool} {z0 s : State} (p : Nat) (k : Slots) (ld0 : Access) (ls1 : Access) (hk : Keeps ba z0 s) :
    Keeps ba z0 (State.issueNow s p k ld0 ls1) := by
  unfold State.issueNow
  extract_lets t c ce vw tw tl pipe1 pipe2 ctl1 ctl2 ctl3 s1 s2
  have h2 : Keeps ba z0 s2 := State.modCore_keeps _ _ (State.routeAct_keeps _ _ _ hk)
  clear_value s2
  split
  · exact Keeps.upd rfl (fun _ => rfl) id id id id id id id h2
  · exact h2

theorem State.issue_keeps {ba : Bool} {z0 s : State} (p : Nat) (k : Slots) (ld0 : Access) (ls1 : Access) (hk : Keeps ba z0 s) :
    Keeps ba z0 (State.issue s p k ld0 ls1) := by
  unfold State.issue; try dsimp only
  repeat' with_reducible (first | assumption | apply State.issueNow_keeps | apply State.recordFault_keeps | split)

theorem State.seamCycle_keeps {ba : Bool} {z0 s : State} (p : Nat) (h : HeldBundle) (hk : Keeps ba z0 s) :
    Keeps ba z0 (State.seamCycle s p h) := by
  unfold State.seamCycle; try dsimp only
  repeat' with_reducible (first | assumption | apply State.modPipe_keeps | apply State.modCtl_keeps | refine Keeps.upd rfl (fun _ => rfl) id id id id id id id ?_)

theorem State.serveOrHold_keeps {ba : Bool} {z0 s : State} (p : Nat) (since : Nat) (k : Slots) (ld0 : Access) (ls1 : Access) (hk : Keeps ba z0 s) :
    Keeps ba z0 (State.serveOrHold s p since k ld0 ls1) := by
  unfold State.serveOrHold; try dsimp only
  repeat' with_reducible (first | assumption | apply State.seamCycle_keeps | apply State.issue_keeps | apply State.serveCycle_keeps | apply State.modPipe_keeps | apply State.modCtl_keeps | refine Keeps.ite (fun _ => ?_) (fun _ => ?_) | refine Keeps.upd rfl (fun _ => rfl) id id id id id id id ?_)

theorem State.firstRequest_keeps {ba : Bool} {z0 s : State} (p : Nat) (k : Slots) (hk : Keeps ba z0 s) :
    Keeps ba z0 (State.firstRequest s p k) := by
  unfold State.firstRequest; try dsimp only
  repeat' with_reducible (first | assumption | apply State.serveOrHold_keeps | apply State.recordFault_keeps | refine Keeps.ite (fun _ => ?_) (fun _ => ?_) | split)

theorem State.ready_keeps {ba : Bool} {z0 s : State} (p : Nat) (k : Slots) (hk : Keeps ba z0 s) :
    Keeps ba z0 (State.ready s p k) := by
  unfold State.ready; try dsimp only
  repeat' with_reducible (first | assumption | apply State.firstRequest_keeps | apply State.modPipe_keeps | refine Keeps.ite (fun _ => ?_) (fun _ => ?_) | refine Keeps.upd rfl (fun _ => rfl) id id id id id id id ?_)

theorem State.fetchCheck_keeps {ba : Bool} {z0 s : State} (p : Nat) (hk : Keeps ba z0 s) :
    Keeps ba z0 (State.fetchCheck s p).1 := by
  unfold State.fetchCheck; try dsimp only
  repeat' with_reducible (first | assumption | apply State.countUncorr_keeps | apply State.countCorr_keeps | refine Keeps.ite (fun _ => ?_) (fun _ => ?_) | split)

theorem State.meetAt_keeps {ba : Bool} {z0 s : State} (p : Nat) (r : Nat) (hk : Keeps ba z0 s) :
    Keeps ba z0 (State.meetAt s p r) := by
  unfold State.meetAt; try dsimp only
  repeat' with_reducible (first | assumption | apply State.sync_keeps | apply State.syncCtx_keeps | apply State.advance_keeps | refine Keeps.ite (fun _ => ?_) (fun _ => ?_))

theorem State.issueBundle_keeps {ba : Bool} {z0 s : State} (p : Nat) (k : Slots) (hk : Keeps ba z0 s) :
    Keeps ba z0 (State.issueBundle s p k) := by
  unfold State.issueBundle; try dsimp only
  repeat' with_reducible (first | assumption | apply State.meetAt_keeps | apply State.fetchCheck_keeps | apply State.ready_keeps | apply State.recordFault_keeps | refine Keeps.ite (fun _ => ?_) (fun _ => ?_) | split)

theorem State.serveOn_keeps {ba : Bool} {z0 s : State} (p : Nat) (k_0 : Nat) (hk : Keeps ba z0 s) :
    Keeps ba z0 (State.serveOn s p k_0) := by
  induction k_0 generalizing s p with
  | zero =>
    unfold State.serveOn; try dsimp only
    repeat' with_reducible (first | assumption | apply State.serveOrHold_keeps | apply State.sync_keeps | apply State.syncCtx_keeps | apply State.advance_keeps | refine Keeps.ite (fun _ => ?_) (fun _ => ?_) | split)
  | succ n_ ih =>
    unfold State.serveOn; try dsimp only
    repeat' with_reducible (first | assumption | apply ih | apply State.serveOrHold_keeps | apply State.sync_keeps | apply State.syncCtx_keeps | apply State.advance_keeps | refine Keeps.ite (fun _ => ?_) (fun _ => ?_) | split)

end Sys2Proof.Machine
end

