-- ==== Sys2Proof/Laws/KeepsTick.lean ====
section
/-! SUPPORT. What the operations of Machine/Tick.lean keep. -/

namespace Sys2Proof.Machine

open Sys2Proof

theorem State.syncAll_keeps {ba : Bool} {z0 s : State} (hk : Keeps ba z0 s) :
    Keeps ba z0 (State.syncAll s) := by
  unfold State.syncAll; try dsimp only
  repeat' with_reducible (first | assumption | apply State.sync_keeps | apply State.syncCtx_keeps | apply State.each_keeps | intro _)

theorem State.overrunEvent_keeps {ba : Bool} {z0 s : State} (kind : Nat) (ps : List Nat) (hk : Keeps ba z0 s) :
    Keeps ba z0 (State.overrunEvent s kind ps) := by
  unfold State.overrunEvent; try dsimp only
  repeat' with_reducible (first | assumption | apply State.raise_keeps | refine Keeps.ite (fun _ => ?_) (fun _ => ?_) | refine Keeps.upd rfl (fun _ => rfl) id id id id id id id ?_)

theorem State.modAct_keeps {ba : Bool} {z0 s : State} (a : Nat) (f : BgAct → BgAct) (hk : Keeps ba z0 s) :
    Keeps ba z0 (State.modAct s a f) := by
  unfold State.modAct; try dsimp only
  repeat' with_reducible (first | assumption | refine Keeps.upd rfl (fun _ => rfl) id id id id id id id ?_)

theorem State.urgency_keeps {ba : Bool} {z0 s : State} (a : Nat) (hk : Keeps ba z0 s) :
    Keeps ba z0 (State.urgency s a) := by
  unfold State.urgency; try dsimp only
  repeat' with_reducible (first | assumption | apply State.modAct_keeps | apply State.raise_keeps | refine Keeps.ite (fun _ => ?_) (fun _ => ?_) | split | refine Keeps.upd rfl (fun _ => rfl) id id id id id id id ?_)

theorem State.insertSlice_keeps {ba : Bool} {z0 s : State} (hk : Keeps ba z0 s) :
    Keeps ba z0 (State.insertSlice s) := by
  unfold State.insertSlice; try dsimp only
  repeat' with_reducible (first | assumption | refine Keeps.ite (fun _ => ?_) (fun _ => ?_) | refine Keeps.upd rfl (fun _ => rfl) id id id id id id id ?_)

theorem State.modPwr_keeps {b : Bool} {s0 s : State} (f : Pwr → Pwr)
    (hf : (2000 ≤ s.pwr.cap ∧ s.pwr.cap ≤ 15000) → 2000 ≤ (f s.pwr).cap ∧ (f s.pwr).cap ≤ 15000) (h : Keeps b s0 s) :
    Keeps b s0 (s.modPwr f) := by
  unfold State.modPwr; exact Keeps.upd rfl (fun _ => rfl) hf id id id id id id h

theorem State.modClk_keeps {b : Bool} {s0 s : State} (f : Clk → Clk) (hf : s.clk.req ≤ 5 → (f s.clk).req ≤ 5) (h : Keeps b s0 s) :
    Keeps b s0 (s.modClk f) := by
  unfold State.modClk; exact Keeps.upd rfl (fun _ => rfl) id id id hf id id id h

theorem State.setSetpoints_keeps {ba : Bool} {z0 s : State} (step : Nat) (hk : Keeps ba z0 s) :
    Keeps ba z0 (State.setSetpoints s step) := by
  unfold State.setSetpoints; try dsimp only
  repeat' with_reducible (first | assumption | exact id | apply State.modPwr_keeps | refine Keeps.ite (fun _ => ?_) (fun _ => ?_) | refine Keeps.upd rfl (fun _ => rfl) id id id id id id id ?_)

theorem State.stepDue_keeps {ba : Bool} {z0 s : State} (hk : Keeps ba z0 s) :
    Keeps ba z0 (State.stepDue s) := by
  unfold State.stepDue; try dsimp only
  repeat' with_reducible (first | assumption | exact id | apply State.setSetpoints_keeps | apply State.modClk_keeps | apply State.raise_keeps | refine Keeps.ite (fun _ => ?_) (fun _ => ?_) | split | refine Keeps.upd rfl (fun _ => rfl) id id id id id id id ?_)

theorem State.finishMove_keeps {ba : Bool} {z0 s : State} (key : Nat) (m : Move) (hk : Keeps ba z0 s) :
    Keeps ba z0 (State.finishMove s key m) := by
  unfold State.finishMove; try dsimp only
  repeat' with_reducible (first | assumption | apply State.sweepCore_keeps | apply State.moveRest_keeps | apply State.setCore_keeps | split | refine Keeps.upd rfl (fun _ => rfl) id id id id id id id ?_)

theorem State.startMirror_keeps {ba : Bool} {z0 s : State} (key : Nat) (m : Move) (hk : Keeps ba z0 s) :
    Keeps ba z0 (State.startMirror s key m) := by
  unfold State.startMirror; try dsimp only
  repeat' with_reducible (first | assumption | apply State.modPanel_keeps | apply State.modStat_keeps | refine Keeps.upd rfl (fun _ => rfl) id id id id id id id ?_)

theorem State.moveBoundary_keeps {ba : Bool} {z0 s : State} (key : Nat) (m : Move) (hk : Keeps ba z0 s) :
    Keeps ba z0 (State.moveBoundary s key m) := by
  unfold State.moveBoundary; try dsimp only
  repeat' with_reducible (first | assumption | apply State.startMirror_keeps | apply State.finishMove_keeps | apply State.ready_keeps | apply State.modPanel_keeps | split | refine Keeps.upd rfl (fun _ => rfl) id id id id id id id ?_)

theorem State.finishMoves_keeps {ba : Bool} {z0 s : State} (k_0 : List (Nat × Move)) (hk : Keeps ba z0 s) :
    Keeps ba z0 (State.finishMoves s k_0) := by
  induction k_0 generalizing s with
  | nil =>
    unfold State.finishMoves; try dsimp only
    repeat' with_reducible (first | assumption | apply State.moveBoundary_keeps | split)
  | cons x_ xs_ ih =>
    unfold State.finishMoves; try dsimp only
    repeat' with_reducible (first | assumption | apply ih | apply State.moveBoundary_keeps | split)

theorem State.eachDie_keeps {ba : Bool} {z0 s : State} (f : Nat → MeshDie → MeshDie) (hk : Keeps ba z0 s) :
    Keeps ba z0 (State.eachDie s f) := by
  unfold State.eachDie; try dsimp only
  repeat' with_reducible (first | assumption | apply State.modDie_keeps | apply State.each_keeps | intro _)

theorem State.loadVersion_keeps {ba : Bool} {z0 s : State} (v : RouteVersion) (hk : Keeps ba z0 s) :
    Keeps ba z0 (State.loadVersion s v) := by
  unfold State.loadVersion; try dsimp only
  repeat' with_reducible (first | assumption | apply State.eachDie_keeps | refine Keeps.ite (fun _ => ?_) (fun _ => ?_) | intro _ | refine Keeps.upd rfl (fun _ => rfl) id id id id id id id ?_)

theorem State.loadWaiting_keeps {ba : Bool} {z0 s : State} (hk : Keeps ba z0 s) :
    Keeps ba z0 (State.loadWaiting s) := by
  unfold State.loadWaiting; try dsimp only
  repeat' with_reducible (first | assumption | apply State.loadVersion_keeps | refine Keeps.ite (fun _ => ?_) (fun _ => ?_) | split)

theorem State.coreBoundary_keeps {ba : Bool} {z0 s : State} (start : Nat) (p : Nat) (hk : Keeps ba z0 s) :
    Keeps ba z0 (State.coreBoundary s start p) := by
  unfold State.coreBoundary; try dsimp only
  repeat' with_reducible (first | assumption | apply State.settle_keeps | apply State.setCore_keeps | apply State.cntOvf_keeps | apply State.raise_keeps | refine Keeps.ite (fun _ => ?_) (fun _ => ?_) | split | refine Keeps.upd rfl (fun _ => rfl) id id id id id id id ?_)

theorem State.regionSwitch_keeps {ba : Bool} {z0 s : State} (ns : List Nat) (hk : Keeps ba z0 s) :
    Keeps ba z0 (State.regionSwitch s ns) := by
  unfold State.regionSwitch; try dsimp only
  repeat' with_reducible (first | assumption | apply State.startCopy_keeps | apply State.rebindJob_keeps | apply State.modStack_keeps | apply State.commitRecord_keeps | apply State.raise_keeps | apply State.each_keeps | refine Keeps.ite (fun _ => ?_) (fun _ => ?_) | split | intro _ | refine Keeps.upd rfl (fun _ => rfl) id id id id id id id ?_)

theorem State.newJob_keeps {ba : Bool} {z0 s : State} (hk : Keeps ba z0 s) :
    Keeps ba z0 (State.newJob s) := by
  unfold State.newJob; try dsimp only
  repeat' with_reducible (first | assumption | apply State.raise_keeps | refine Keeps.ite (fun _ => ?_) (fun _ => ?_) | refine Keeps.upd rfl (fun _ => rfl) id id id id id id id ?_)

theorem State.failStart_keeps {ba : Bool} {z0 s : State} (code : Nat) (hk : Keeps ba z0 s) :
    Keeps ba z0 (State.failStart s code) := by
  unfold State.failStart; try dsimp only
  repeat' with_reducible (first | assumption | apply State.finishCmd_keeps | refine Keeps.upd rfl (fun _ => rfl) id id id id id id id ?_)

theorem State.refuseStretched_keeps {ba : Bool} {z0 s : State} (hk : Keeps ba z0 s) :
    Keeps ba z0 (State.refuseStretched s) := by
  unfold State.refuseStretched; try dsimp only
  repeat' with_reducible (first | assumption | apply State.failStart_keeps | apply State.endJob_keeps | refine Keeps.ite (fun _ => ?_) (fun _ => ?_))

theorem State.beginJob_keeps {ba : Bool} {z0 s0 : State} (b : Nat) (hk : Keeps ba z0 s0) :
    Keeps ba z0 (State.beginJob s0 b) := by
  unfold State.beginJob; try dsimp only
  repeat' with_reducible (first | assumption | apply State.refuseStretched_keeps | apply State.newJob_keeps | apply State.ready_keeps | apply State.modStatus_keeps | refine Keeps.ite (fun _ => ?_) (fun _ => ?_) | refine Keeps.upd rfl (fun _ => rfl) id id id id id id id ?_)

theorem State.tickBoundary_keeps {z0 s : State} (hk : Keeps false z0 s) : Keeps false z0 s.tickBoundary := by
  unfold State.tickBoundary
  extract_lets b s0 took s1 s2 c0 p0 m0 r0 w0 g0 s3 ns
  have h1 : Keeps false z0 s1 := State.finishMoves_keeps _ (State.syncAll_keeps (State.advance_keeps _ hk))
  have h2 : Keeps false z0 s2 := State.each_keeps _ _ (fun _ _ h => State.coreBoundary_keeps _ _ h) h1
  have h3 : Keeps false z0 s3 := Keeps.upd (s := s2) rfl nofun id id id id id id id h2
  clear_value s3
  exact State.each_keeps _ _ (fun _ _ h => State.urgency_keeps _ h) (State.regionSwitch_keeps _ (State.beginJob_keeps _ (State.loadWaiting_keeps (State.stepDue_keeps h3))))

theorem execQuietWindowStart_keeps {ba : Bool} {z0 s : State} (hk : Keeps ba z0 s) :
    OKeeps ba z0 (execQuietWindowStart s) := by
  unfold execQuietWindowStart; try dsimp only
  repeat' with_reducible (first | assumption | apply State.syncAll_keeps | apply State.redFault_keeps | apply State.advance_keeps | apply State.each_keeps | apply OKeeps.next | intro _)

theorem execLateDecision_keeps {ba : Bool} {z0 s : State} (hk : Keeps ba z0 s) :
    OKeeps ba z0 (execLateDecision s) := by
  unfold execLateDecision; try dsimp only
  repeat' with_reducible (first | assumption | apply State.insertSlice_keeps | apply State.overrunEvent_keeps | apply State.syncAll_keeps | apply State.endJob_keeps | apply State.advance_keeps | apply OKeeps.next | refine Keeps.ite (fun _ => ?_) (fun _ => ?_) | refine OKeeps.ite (fun _ => ?_) (fun _ => ?_) | refine Keeps.upd rfl (fun _ => rfl) id id id id id id id ?_)

theorem State.stretchCheck_keeps {ba : Bool} {z0 s : State} (hk : Keeps ba z0 s) :
    Keeps ba z0 (State.stretchCheck s) := by
  unfold State.stretchCheck; try dsimp only
  repeat' with_reducible (first | assumption | apply State.overrunEvent_keeps | apply State.syncAll_keeps | apply State.endJob_keeps | apply State.advance_keeps | refine Keeps.ite (fun _ => ?_) (fun _ => ?_) | refine Keeps.upd rfl (fun _ => rfl) id id id id id id id ?_)

theorem execStretchCheck_keeps {ba : Bool} {z0 s : State} (hk : Keeps ba z0 s) :
    OKeeps ba z0 (execStretchCheck s) := by
  unfold execStretchCheck; try dsimp only
  repeat' with_reducible (first | assumption | apply State.stretchCheck_keeps | apply OKeeps.next)

theorem execTickBoundary_keeps {z0 s : State} (hk : Keeps false z0 s) :
    OKeeps false z0 (execTickBoundary s) := by
  unfold execTickBoundary; try dsimp only
  repeat' with_reducible (first | assumption | apply State.stretchCheck_keeps | apply State.tickBoundary_keeps | apply State.pace_keeps | apply OKeeps.next | refine Keeps.ite (fun _ => ?_) (fun _ => ?_) | refine OKeeps.ite (fun _ => ?_) (fun _ => ?_) | split)

theorem execMarginFault_keeps {ba : Bool} {z0 s : State} (p : PCore) (hk : Keeps ba z0 s) :
    OKeeps ba z0 (execMarginFault p s) := by
  unfold execMarginFault; try dsimp only
  repeat' with_reducible (first | assumption | apply State.overrunEvent_keeps | apply State.syncAll_keeps | apply State.endJob_keeps | apply State.modPipe_keeps | apply OKeeps.next | refine Keeps.ite (fun _ => ?_) (fun _ => ?_) | refine OKeeps.ite (fun _ => ?_) (fun _ => ?_) | refine Keeps.upd rfl (fun _ => rfl) id id id id id id id ?_)

end Sys2Proof.Machine
end

