-- ==== Sys2Proof/Laws/KeepsMesh.lean ====
section
/-! SUPPORT. What the operations of Machine/Mesh.lean keep. -/

namespace Sys2Proof.Machine

open Sys2Proof

theorem State.setFlit_keeps {ba : Bool} {z0 s : State} (i : Nat) (f : Flit) (hk : Keeps ba z0 s) :
    Keeps ba z0 (State.setFlit s i f) := by
  unfold State.setFlit; try dsimp only
  repeat' with_reducible (first | assumption | refine Keeps.upd rfl (fun _ => rfl) id id id id id id id ?_)

theorem State.dropFlit_keeps {ba : Bool} {z0 s : State} (i : Nat) (hk : Keeps ba z0 s) :
    Keeps ba z0 (State.dropFlit s i) := by
  unfold State.dropFlit; try dsimp only
  repeat' with_reducible (first | assumption | refine Keeps.upd rfl (fun _ => rfl) id id id id id id id ?_)

theorem State.countOldEpoch_keeps {ba : Bool} {z0 s : State} (site : Nat) (hk : Keeps ba z0 s) :
    Keeps ba z0 (State.countOldEpoch s site) := by
  unfold State.countOldEpoch; try dsimp only
  repeat' with_reducible (first | assumption | apply State.modDie_keeps | apply State.cntOvf_keeps | apply State.raise_keeps | refine Keeps.upd rfl (fun _ => rfl) id id id id id id id ?_)

theorem State.countStale_keeps {ba : Bool} {z0 s : State} (site : Nat) (hk : Keeps ba z0 s) :
    Keeps ba z0 (State.countStale s site) := by
  unfold State.countStale; try dsimp only
  repeat' with_reducible (first | assumption | apply State.modDie_keeps | apply State.cntOvf_keeps | refine Keeps.upd rfl (fun _ => rfl) id id id id id id id ?_)

theorem State.c0Check_keeps {ba : Bool} {z0 s : State} (d : Dir) (P : Nat) (Q : Nat) (kind : Nat) (c : Nat) (lo : Nat) (r : Stretch) (hk : Keeps ba z0 s) :
    Keeps ba z0 (State.c0Check s d P Q kind c lo r) := by
  unfold State.c0Check; try dsimp only
  repeat' with_reducible (first | assumption | apply State.modDie_keeps | apply State.raise_keeps | apply State.each_keeps | refine Keeps.ite (fun _ => ?_) (fun _ => ?_) | intro _ | refine Keeps.upd rfl (fun _ => rfl) id id id id id id id ?_)

theorem State.partialLeft_keeps {ba : Bool} {z0 s : State} (key : Nat) (hk : Keeps ba z0 s) :
    Keeps ba z0 (State.partialLeft s key) := by
  unfold State.partialLeft; try dsimp only
  repeat' with_reducible (first | assumption | refine Keeps.ite (fun _ => ?_) (fun _ => ?_) | split | refine Keeps.upd rfl (fun _ => rfl) id id id id id id id ?_)

theorem State.leftBuffer_keeps {ba : Bool} {z0 s : State} (f : Flit) (hk : Keeps ba z0 s) :
    Keeps ba z0 (State.leftBuffer s f) := by
  unfold State.leftBuffer; try dsimp only
  repeat' with_reducible (first | assumption | apply State.modPipe_keeps | refine Keeps.ite (fun _ => ?_) (fun _ => ?_) | split | refine Keeps.upd rfl (fun _ => rfl) id id id id id id id ?_)

theorem State.flitGone_keeps {ba : Bool} {z0 s : State} (f : Flit) (hk : Keeps ba z0 s) :
    Keeps ba z0 (State.flitGone s f) := by
  unfold State.flitGone; try dsimp only
  repeat' with_reducible (first | assumption | apply State.leftBuffer_keeps | apply State.account_keeps | refine Keeps.ite (fun _ => ?_) (fun _ => ?_))

theorem State.dropCheck_keeps {ba : Bool} {s0 s t : State} {site : Nat} {f : Flit} {g : State → State} (e : s.dropCheck site f = some g)
    (hk : Keeps ba s0 t) : Keeps ba s0 (g t) := by
  simp only [State.dropCheck] at e
  split at e
  · obtain rfl := Option.some.inj e; exact State.countOldEpoch_keeps _ hk
  · split at e
    · obtain rfl := Option.some.inj e; exact State.countStale_keeps _ hk
    · cases e

theorem State.rideOn_keeps {ba : Bool} {z0 s : State} (d : Dir) (P : Nat) (Q : Nat) (kind : Nat) (c : Nat) (lo : Nat) (end_ : Nat) (r : Stretch) (hk : Keeps ba z0 s) :
    Keeps ba z0 (State.rideOn s d P Q kind c lo end_ r).1 := by
  unfold State.rideOn; try dsimp only
  repeat' with_reducible (first | assumption | apply State.c0Check_keeps | apply State.crossSeams_keeps | refine Keeps.upd rfl (fun _ => rfl) id id id id id id id ?_)

theorem State.rideAll_keeps {ba : Bool} {z0 s : State} (d : Dir) (P : Nat) (Q : Nat) (x : Nat) (kind : Nat) (c : Nat) (edge : Option Nat) (hk : Keeps ba z0 s) :
    Keeps ba z0 (State.rideAll s d P Q x kind c edge).1 := by
  unfold State.rideAll; try dsimp only
  repeat' with_reducible (first | assumption | apply State.rideOn_keeps | split)

theorem State.arbitrate_keeps {ba : Bool} {z0 s : State} (i : Nat) (hk : Keeps ba z0 s) :
    Keeps ba z0 (State.arbitrate s i) := by
  unfold State.arbitrate; try dsimp only
  repeat' with_reducible (first | assumption | refine State.dropCheck_keeps (by assumption) ?_ | apply State.rideAll_keeps | apply State.flitGone_keeps | apply State.leftBuffer_keeps | apply State.partialLeft_keeps | apply State.dropFlit_keeps | apply State.setFlit_keeps | apply State.countLost_keeps | apply State.advance_keeps | refine Keeps.ite (fun _ => ?_) (fun _ => ?_) | split | refine Keeps.upd rfl (fun _ => rfl) id id id id id id id ?_)

theorem State.contest_keeps {ba : Bool} {z0 s : State} (i : Nat) (k_0 : Nat) (hk : Keeps ba z0 s) :
    Keeps ba z0 (State.contest s i k_0) := by
  induction k_0 generalizing s i with
  | zero =>
    unfold State.contest; try dsimp only
    repeat' with_reducible (first | assumption | apply State.arbitrate_keeps | split)
  | succ n_ ih =>
    unfold State.contest; try dsimp only
    repeat' with_reducible (first | assumption | apply ih | apply State.arbitrate_keeps | split)

theorem execArbitration_keeps {ba : Bool} {z0 s : State} (flit : Nat) (hk : Keeps ba z0 s) :
    OKeeps ba z0 (execArbitration flit s) := by
  unfold execArbitration; try dsimp only
  repeat' with_reducible (first | assumption | apply State.contest_keeps | apply OKeeps.next)

theorem State.goRound_keeps {ba : Bool} {z0 s : State} (i : Nat) (f : Flit) (x : Nat) (c : Nat) (due : Nat) (d : Dir) (hk : Keeps ba z0 s) :
    Keeps ba z0 (State.goRound s i f x c due d) := by
  unfold State.goRound; try dsimp only
  repeat' with_reducible (first | assumption | apply State.flitGone_keeps | apply State.dropFlit_keeps | apply State.setFlit_keeps | apply State.countLost_keeps | split | refine Keeps.upd rfl (fun _ => rfl) id id id id id id id ?_)

theorem execFlitLapDrop_keeps {ba : Bool} {z0 s : State} (flit : Nat) (hk : Keeps ba z0 s) :
    OKeeps ba z0 (execFlitLapDrop flit s) := by
  unfold execFlitLapDrop; try dsimp only
  repeat' with_reducible (first | assumption | apply State.flitGone_keeps | apply State.dropFlit_keeps | apply State.countLost_keeps | apply OKeeps.next | refine Keeps.ite (fun _ => ?_) (fun _ => ?_) | refine OKeeps.ite (fun _ => ?_) (fun _ => ?_) | split)

theorem execMeshFlitError_keeps {ba : Bool} {z0 s : State} (flit : Nat) (site : Site) (kind : FlitError) (hk : Keeps ba z0 s) :
    OKeeps ba z0 (execMeshFlitError flit site kind s) := by
  unfold execMeshFlitError; try dsimp only
  repeat' with_reducible (first | assumption | apply State.flitGone_keeps | apply State.dropFlit_keeps | apply State.setFlit_keeps | apply State.modDie_keeps | apply State.endJob_keeps | apply State.cntOvf_keeps | apply State.raise_keeps | apply OKeeps.next | split | refine Keeps.upd rfl (fun _ => rfl) id id id id id id id ?_)

theorem State.discard_keeps {ba : Bool} {z0 s : State} (site : Nat) (hk : Keeps ba z0 s) :
    Keeps ba z0 (State.discard s site) := by
  unfold State.discard; try dsimp only
  repeat' with_reducible (first | assumption | refine Keeps.upd rfl (fun _ => rfl) id id id id id id id ?_)

theorem State.lateness_keeps {ba : Bool} {z0 s : State} (site : Nat) (dest : Nat) (delay : Nat) (hk : Keeps ba z0 s) :
    Keeps ba z0 (State.lateness s site dest delay) := by
  unfold State.lateness; try dsimp only
  repeat' with_reducible (first | assumption | apply State.modDie_keeps | apply State.endJob_keeps | apply State.raise_keeps | refine Keeps.ite (fun _ => ?_) (fun _ => ?_) | refine Keeps.upd rfl (fun _ => rfl) id id id id id id id ?_)

theorem execScheduledDelivery_keeps {ba : Bool} {z0 s : State} (flit : Nat) (hk : Keeps ba z0 s) :
    OKeeps ba z0 (execScheduledDelivery flit s) := by
  unfold execScheduledDelivery; try dsimp only
  repeat' with_reducible (first | assumption | refine State.dropCheck_keeps (by assumption) ?_ | apply State.lateness_keeps | apply State.discard_keeps | apply State.dropFlit_keeps | apply State.arriveMesh_keeps | apply State.advance_keeps | apply OKeeps.next | refine Keeps.ite (fun _ => ?_) (fun _ => ?_) | refine OKeeps.ite (fun _ => ?_) (fun _ => ?_) | split)

theorem execRouteVersionLoad_keeps {ba : Bool} {z0 s : State} (v : RouteVersion) (hk : Keeps ba z0 s) :
    OKeeps ba z0 (execRouteVersionLoad v s) := by
  unfold execRouteVersionLoad; try dsimp only
  repeat' with_reducible (first | assumption | apply State.loadVersion_keeps | apply OKeeps.next | refine Keeps.ite (fun _ => ?_) (fun _ => ?_) | refine OKeeps.ite (fun _ => ?_) (fun _ => ?_) | refine Keeps.upd rfl (fun _ => rfl) id id id id id id id ?_)

theorem execTableLoadCheck_keeps {ba : Bool} {z0 s : State} (site : Site) (ok : Bool) (hk : Keeps ba z0 s) :
    OKeeps ba z0 (execTableLoadCheck site ok s) := by
  unfold execTableLoadCheck; try dsimp only
  repeat' with_reducible (first | assumption | apply State.modDie_keeps | apply OKeeps.next | refine Keeps.upd rfl (fun _ => rfl) id id id id id id id ?_)

theorem execFlipNotice_keeps {ba : Bool} {z0 s : State} (flipTick : BitVec 64) (hk : Keeps ba z0 s) :
    OKeeps ba z0 (execFlipNotice flipTick s) := by
  unfold execFlipNotice; try dsimp only
  repeat' with_reducible (first | assumption | apply State.eachDie_keeps | apply OKeeps.next | refine Keeps.ite (fun _ => ?_) (fun _ => ?_) | refine OKeeps.ite (fun _ => ?_) (fun _ => ?_) | split | intro _ | refine Keeps.upd rfl (fun _ => rfl) id id id id id id id ?_)

theorem State.inForce_keeps {ba : Bool} {z0 s : State} (v : RouteVersion) (hk : Keeps ba z0 s) :
    Keeps ba z0 (State.inForce s v) := by
  unfold State.inForce; try dsimp only
  repeat' with_reducible (first | assumption | apply State.eachDie_keeps | intro _ | refine Keeps.upd rfl (fun _ => rfl) id id id id id id id ?_)

theorem execEpochFlip_keeps {ba : Bool} {z0 s : State} (hk : Keeps ba z0 s) :
    OKeeps ba z0 (execEpochFlip s) := by
  unfold execEpochFlip; try dsimp only
  repeat' with_reducible (first | assumption | apply State.inForce_keeps | apply State.eachDie_keeps | apply State.attachAnew_keeps | apply State.rebindLate_keeps | apply foldl_keeps | apply OKeeps.next | refine Keeps.ite (fun _ => ?_) (fun _ => ?_) | refine OKeeps.ite (fun _ => ?_) (fun _ => ?_) | intro _ | refine Keeps.upd rfl (fun _ => rfl) id id id id id id id ?_)

theorem execOldEpochHoldEnd_keeps {ba : Bool} {z0 s : State} (hk : Keeps ba z0 s) :
    OKeeps ba z0 (execOldEpochHoldEnd s) := by
  unfold execOldEpochHoldEnd; try dsimp only
  repeat' with_reducible (first | assumption | apply State.flitGone_keeps | apply State.countOldEpoch_keeps | apply State.each_keeps | apply foldl_keeps | apply OKeeps.next | refine Keeps.ite (fun _ => ?_) (fun _ => ?_) | refine OKeeps.ite (fun _ => ?_) (fun _ => ?_) | split | intro _ | refine Keeps.upd rfl (fun _ => rfl) id id id id id id id ?_)

theorem execCircuitWindowOpen_keeps {ba : Bool} {z0 s : State} (circ : Nat) (hk : Keeps ba z0 s) :
    OKeeps ba z0 (execCircuitWindowOpen circ s) := by
  unfold execCircuitWindowOpen; try dsimp only
  repeat' with_reducible (first | assumption | apply State.advance_keeps | apply OKeeps.next | refine Keeps.ite (fun _ => ?_) (fun _ => ?_) | refine OKeeps.ite (fun _ => ?_) (fun _ => ?_) | split | refine Keeps.upd rfl (fun _ => rfl) id id id id id id id ?_)

theorem execCircuitWindowClose_keeps {ba : Bool} {z0 s : State} (circ : Nat) (hk : Keeps ba z0 s) :
    OKeeps ba z0 (execCircuitWindowClose circ s) := by
  unfold execCircuitWindowClose; try dsimp only
  repeat' with_reducible (first | assumption | apply State.advance_keeps | apply OKeeps.next | refine Keeps.ite (fun _ => ?_) (fun _ => ?_) | refine OKeeps.ite (fun _ => ?_) (fun _ => ?_) | split | refine Keeps.upd rfl (fun _ => rfl) id id id id id id id ?_)

theorem State.contribute_keeps {ba : Bool} {z0 s : State} (i : Nat) (hk : Keeps ba z0 s) :
    Keeps ba z0 (State.contribute s i) := by
  unfold State.contribute; try dsimp only
  repeat' with_reducible (first | assumption | apply State.partialLeft_keeps | apply State.dropFlit_keeps | apply State.redFault_keeps | apply State.addFlit_keeps | apply State.advance_keeps | refine Keeps.ite (fun _ => ?_) (fun _ => ?_) | split | refine Keeps.upd rfl (fun _ => rfl) id id id id id id id ?_)

theorem execRedFlitArrival_keeps {ba : Bool} {z0 s : State} (flit : Nat) (hk : Keeps ba z0 s) :
    OKeeps ba z0 (execRedFlitArrival flit s) := by
  unfold execRedFlitArrival; try dsimp only
  repeat' with_reducible (first | assumption | apply State.contribute_keeps | apply foldl_keeps | apply OKeeps.next | split | intro _)

end Sys2Proof.Machine
end

