-- ==== Sys2Proof/Laws/KeepsStartOps.lean ====
section
/-! SUPPORT. What the operations of Machine/StartOps.lean keep. -/

namespace Sys2Proof.Machine

open Sys2Proof

theorem State.hostXfer_keeps {ba : Bool} {z0 s : State} (gw7 : Bool) (use : XferFor) (addr : Nat) (len : Nat) (data : Option (List (BitVec 8))) (hk : Keeps ba z0 s) :
    Keeps ba z0 (State.hostXfer s gw7 use addr len data) := by
  unfold State.hostXfer; try dsimp only
  repeat' with_reducible (first | assumption | exact id | apply State.modHif_keeps | apply State.takeSeq_keeps | refine Keeps.ite (fun _ => ?_) (fun _ => ?_) | refine Keeps.upd rfl (fun _ => rfl) id id id id id id id ?_)

theorem State.dropXfers_keeps {ba : Bool} {z0 s : State} (use : XferFor) (hk : Keeps ba z0 s) :
    Keeps ba z0 (State.dropXfers s use) := by
  unfold State.dropXfers; try dsimp only
  repeat' with_reducible (first | assumption | refine Keeps.upd rfl (fun _ => rfl) id id id id id id id ?_)

theorem State.modCons_keeps {ba : Bool} {z0 s : State} (f : Cons → Cons) (hk : Keeps ba z0 s) :
    Keeps ba z0 (State.modCons s f) := by
  unfold State.modCons; try dsimp only
  repeat' with_reducible (first | assumption | refine Keeps.upd rfl (fun _ => rfl) id id id id id id id ?_)

theorem State.sendShadow_keeps {ba : Bool} {z0 s : State} (addr : Nat) (step : Nat) (data : List (BitVec 8)) (poison : BitVec 8) (last : Bool) (hk : Keeps ba z0 s) :
    Keeps ba z0 (State.sendShadow s addr step data poison last) := by
  unfold State.sendShadow; try dsimp only
  repeat' with_reducible (first | assumption | apply State.sendPacket_keeps | split | refine Keeps.upd rfl (fun _ => rfl) id id id id id id id ?_)

theorem State.shadowWhole_keeps {ba : Bool} {z0 s : State} (hk : Keeps ba z0 s) :
    Keeps ba z0 (State.shadowWhole s) := by
  unfold State.shadowWhole; try dsimp only
  repeat' with_reducible (first | assumption | apply State.sendShadow_keeps | apply State.modCons_keeps | apply foldl_keeps | refine Keeps.ite (fun _ => ?_) (fun _ => ?_) | intro _ | refine Keeps.upd rfl (fun _ => rfl) id id id id id id id ?_)

theorem State.putAt_keeps {ba : Bool} {z0 s : State} (addr : Nat) (bytes : List (BitVec 8)) (poison : BitVec 8) (hk : Keeps ba z0 s) :
    Keeps ba z0 (State.putAt s addr bytes poison) := by
  unfold State.putAt; try dsimp only
  repeat' with_reducible (first | assumption | apply State.noteWritten_keeps | apply State.putStack_keeps | refine Keeps.ite (fun _ => ?_) (fun _ => ?_))

theorem State.putBytesAt_keeps {ba : Bool} {z0 s : State} (addr : Nat) (bytes : List (BitVec 8)) (k_0 : Nat) (hk : Keeps ba z0 s) :
    Keeps ba z0 (State.putBytesAt s addr bytes k_0) := by
  induction k_0 generalizing s addr bytes with
  | zero =>
    unfold State.putBytesAt; try dsimp only
    repeat' with_reducible (first | assumption | apply State.putAt_keeps | refine Keeps.ite (fun _ => ?_) (fun _ => ?_) | split)
  | succ n_ ih =>
    unfold State.putBytesAt; try dsimp only
    repeat' with_reducible (first | assumption | apply ih | apply State.putAt_keeps | refine Keeps.ite (fun _ => ?_) (fun _ => ?_) | split)

theorem State.broadcast_keeps {ba : Bool} {z0 s : State} (hk : Keeps ba z0 s) :
    Keeps ba z0 (State.broadcast s) := by
  unfold State.broadcast; try dsimp only
  repeat' with_reducible (first | assumption | apply State.shadowWhole_keeps | apply State.ready_keeps | apply State.discardStreams_keeps | apply State.dropRdma_keeps | refine Keeps.upd rfl (fun _ => rfl) id id id id id id id ?_)

theorem State.loadProgram_keeps {ba : Bool} {z0 s : State} (hk : Keeps ba z0 s) :
    Keeps ba z0 (State.loadProgram s) := by
  unfold State.loadProgram; try dsimp only
  repeat' with_reducible (first | assumption | apply State.broadcast_keeps | apply State.refuseStretched_keeps | refine Keeps.ite (fun _ => ?_) (fun _ => ?_) | refine Keeps.upd rfl (fun _ => rfl) id id id id id id id ?_)

theorem State.imageLoad_keeps {ba : Bool} {z0 s : State} (hk : Keeps ba z0 s) :
    Keeps ba z0 (State.imageLoad s) := by
  unfold State.imageLoad; try dsimp only
  repeat' with_reducible (first | assumption | apply State.putBytesAt_keeps | apply foldl_keeps | refine Keeps.ite (fun _ => ?_) (fun _ => ?_) | split | intro _)

theorem State.proceed_keeps {ba : Bool} {z0 s : State} (hk : Keeps ba z0 s) :
    Keeps ba z0 (State.proceed s) := by
  unfold State.proceed; try dsimp only
  repeat' with_reducible (first | assumption | apply State.imageLoad_keeps | apply State.loadProgram_keeps | apply State.inForce_keeps | apply State.failStart_keeps | apply State.modStatus_keeps | refine Keeps.ite (fun _ => ?_) (fun _ => ?_) | split | refine Keeps.upd rfl (fun _ => rfl) id id id id id id id ?_)

theorem State.loadJob_keeps {ba : Bool} {z0 s : State} (desc : Option (List (BitVec 8))) (image : Option (List (BitVec 8))) (fit : Option Nat) (hk : Keeps ba z0 s) :
    Keeps ba z0 (State.loadJob s desc image fit) := by
  unfold State.loadJob; try dsimp only
  repeat' with_reducible (first | assumption | apply State.proceed_keeps | apply State.failStart_keeps | apply State.passCvu_keeps | refine Keeps.ite (fun _ => ?_) (fun _ => ?_) | split | refine Keeps.upd rfl (fun _ => rfl) id id id id id id id ?_)

theorem State.beginStart_keeps {ba : Bool} {z0 s : State} (q : Nat) (i : Nat) (hk : Keeps ba z0 s) :
    Keeps ba z0 (State.beginStart s q i) := by
  unfold State.beginStart; try dsimp only
  repeat' with_reducible (first | assumption | apply State.failStart_keeps | apply State.modStatus_keeps | refine Keeps.ite (fun _ => ?_) (fun _ => ?_) | refine Keeps.upd rfl (fun _ => rfl) id id id id id id id ?_)

theorem State.applyRestore_keeps {ba : Bool} {z0 s : State} (r : SnapRec) (step : Nat) (hk : Keeps ba z0 s) :
    Keeps ba z0 (State.applyRestore s r step) := by
  unfold State.applyRestore; try dsimp only
  repeat' with_reducible (first | assumption | apply State.putAt_keeps | apply foldl_keeps | intro _)

end Sys2Proof.Machine
end

