-- ==== Sys2Proof/Laws/KeepsConsOps.lean ====
section
/-! SUPPORT. What the operations of Machine/ConsOps.lean keep. -/

namespace Sys2Proof.Machine

open Sys2Proof

theorem State.tellAll_keeps {ba : Bool} {z0 s : State} (sub : Nat) (view : Nat) (cause : Nat) (step : Nat) (ranks : List Nat) (hk : Keeps ba z0 s) :
    Keeps ba z0 (State.tellAll s sub view cause step ranks) := by
  unfold State.tellAll; try dsimp only
  repeat' with_reducible (first | assumption | apply State.sendState_keeps)

theorem State.paceCheck_keeps {ba : Bool} {z0 s : State} (hk : Keeps ba z0 s) :
    Keeps ba z0 (State.paceCheck s) := by
  unfold State.paceCheck; try dsimp only
  repeat' with_reducible (first | assumption | apply State.modCons_keeps | apply State.raise_keeps | refine Keeps.ite (fun _ => ?_) (fun _ => ?_) | refine Keeps.upd rfl (fun _ => rfl) id id id id id id id ?_)

theorem State.endShadow_keeps {ba : Bool} {z0 s : State} (k_0 : Nat) (hk : Keeps ba z0 s) :
    Keeps ba z0 (State.endShadow s k_0) := by
  induction k_0 generalizing s with
  | zero =>
    unfold State.endShadow; try dsimp only
    repeat' with_reducible (first | assumption | apply State.sendShadow_keeps | apply State.modCons_keeps | refine Keeps.ite (fun _ => ?_) (fun _ => ?_) | split | refine Keeps.upd rfl (fun _ => rfl) id id id id id id id ?_)
  | succ n_ ih =>
    unfold State.endShadow; try dsimp only
    repeat' with_reducible (first | assumption | apply ih | apply State.sendShadow_keeps | apply State.modCons_keeps | refine Keeps.ite (fun _ => ?_) (fun _ => ?_) | split | refine Keeps.upd rfl (fun _ => rfl) id id id id id id id ?_)

theorem State.applyShadow_keeps {ba : Bool} {z0 s : State} (hk : Keeps ba z0 s) :
    Keeps ba z0 (State.applyShadow s) := by
  unfold State.applyShadow; try dsimp only
  repeat' with_reducible (first | assumption | apply State.putAt_keeps | apply State.modCons_keeps | apply State.sendState_keeps | apply foldl_keeps | refine Keeps.ite (fun _ => ?_) (fun _ => ?_) | split | intro _ | refine Keeps.upd rfl (fun _ => rfl) id id id id id id id ?_)

theorem State.gstepCheck_keeps {ba : Bool} {z0 s : State} (hk : Keeps ba z0 s) :
    Keeps ba z0 (State.gstepCheck s) := by
  unfold State.gstepCheck; try dsimp only
  repeat' with_reducible (first | assumption | apply State.applyShadow_keeps | apply State.tellAll_keeps | apply State.modCons_keeps | refine Keeps.ite (fun _ => ?_) (fun _ => ?_) | refine Keeps.upd rfl (fun _ => rfl) id id id id id id id ?_)

theorem State.recount_keeps {ba : Bool} {z0 s : State} (hk : Keeps ba z0 s) :
    Keeps ba z0 (State.recount s) := by
  unfold State.recount; try dsimp only
  repeat' with_reducible (first | assumption | apply State.gstepCheck_keeps | apply State.paceCheck_keeps | apply State.modCons_keeps | refine Keeps.ite (fun _ => ?_) (fun _ => ?_) | refine Keeps.upd rfl (fun _ => rfl) id id id id id id id ?_)

end Sys2Proof.Machine
end

