-- ==== Sys2Proof/Laws/KeepsZfp.lean ====
section
/-! SUPPORT. What the operations of Machine/Zfp.lean keep. -/

namespace Sys2Proof.Machine

open Sys2Proof

theorem State.pairCheck_keeps {ba : Bool} {z0 s : State} (hk : Keeps ba z0 s) :
    Keeps ba z0 (State.pairCheck s) := by
  unfold State.pairCheck; try dsimp only
  repeat' with_reducible (first | assumption | apply State.modZfp_keeps | apply State.raise_keeps | refine Keeps.ite (fun _ => ?_) (fun _ => ?_) | refine Keeps.upd rfl (fun _ => rfl) id id id id id id id ?_)

theorem State.takeDown_keeps {ba : Bool} {z0 s : State} (p : Nat) (mode : LinkMode) (hk : Keeps ba z0 s) :
    Keeps ba z0 (State.takeDown s p mode) := by
  unfold State.takeDown; try dsimp only
  repeat' with_reducible (first | assumption | apply State.pairCheck_keeps | apply State.jistoLost_keeps | apply State.jistoDown_keeps | apply State.c0Load_keeps | apply State.modPort_keeps | refine Keeps.ite (fun _ => ?_) (fun _ => ?_))

theorem State.linkQual_keeps {ba : Bool} {z0 s : State} (p : Nat) (hk : Keeps ba z0 s) :
    Keeps ba z0 (State.linkQual s p) := by
  unfold State.linkQual; try dsimp only
  repeat' with_reducible (first | assumption | apply State.raise_keeps | refine Keeps.ite (fun _ => ?_) (fun _ => ?_))

theorem State.comeUp_keeps {ba : Bool} {z0 s : State} (p : Nat) (lanes : BitVec 8) (peer : Nat) (hk : Keeps ba z0 s) :
    Keeps ba z0 (State.comeUp s p lanes peer) := by
  unfold State.comeUp; try dsimp only
  repeat' with_reducible (first | assumption | apply State.pairCheck_keeps | apply State.jistoUp_keeps | apply State.pump_keeps | apply State.modPort_keeps | refine Keeps.ite (fun _ => ?_) (fun _ => ?_) | refine Keeps.upd rfl (fun _ => rfl) id id id id id id id ?_)

theorem execPortEnable_keeps {ba : Bool} {z0 s : State} (port : Port) (enable : Bool) (medium : BitVec 2) (hk : Keeps ba z0 s) :
    OKeeps ba z0 (execPortEnable port enable medium s) := by
  unfold execPortEnable; try dsimp only
  repeat' with_reducible (first | assumption | apply State.takeDown_keeps | apply State.modPort_keeps | apply OKeeps.next | refine Keeps.ite (fun _ => ?_) (fun _ => ?_) | refine OKeeps.ite (fun _ => ?_) (fun _ => ?_) | refine Keeps.upd rfl (fun _ => rfl) id id id id id id id ?_)

theorem execRetrain_keeps {ba : Bool} {z0 s : State} (port : Port) (hk : Keeps ba z0 s) :
    OKeeps ba z0 (execRetrain port s) := by
  unfold execRetrain; try dsimp only
  repeat' with_reducible (first | assumption | apply State.takeDown_keeps | apply State.modPort_keeps | apply OKeeps.next | refine Keeps.ite (fun _ => ?_) (fun _ => ?_) | refine OKeeps.ite (fun _ => ?_) (fun _ => ?_) | split | refine Keeps.upd rfl (fun _ => rfl) id id id id id id id ?_)

theorem execDisable_keeps {ba : Bool} {z0 s : State} (port : Port) (hk : Keeps ba z0 s) :
    OKeeps ba z0 (execDisable port s) := by
  unfold execDisable; try dsimp only
  repeat' with_reducible (first | assumption | apply State.takeDown_keeps | apply OKeeps.next)

theorem State.failedLink_keeps {ba : Bool} {z0 s : State} (p : Nat) (hk : Keeps ba z0 s) :
    Keeps ba z0 (State.failedLink s p) := by
  unfold State.failedLink; try dsimp only
  repeat' with_reducible (first | assumption | apply State.jistoLost_keeps | refine Keeps.ite (fun _ => ?_) (fun _ => ?_))

theorem State.trained_keeps {ba : Bool} {z0 s : State} (p : Nat) (lanes : BitVec 8) (peer : Nat) (hk : Keeps ba z0 s) :
    Keeps ba z0 (State.trained s p lanes peer) := by
  unfold State.trained; try dsimp only
  repeat' with_reducible (first | assumption | apply State.failedLink_keeps | apply State.comeUp_keeps | apply State.modPort_keeps | refine Keeps.ite (fun _ => ?_) (fun _ => ?_) | refine Keeps.upd rfl (fun _ => rfl) id id id id id id id ?_)

theorem execTrainingComplete_keeps {ba : Bool} {z0 s : State} (link : Fin 34) (pass : Bool) (lanesOk : BitVec 8) (peer : BitVec 16) (hk : Keeps ba z0 s) :
    OKeeps ba z0 (execTrainingComplete link pass lanesOk peer s) := by
  unfold execTrainingComplete; try dsimp only
  repeat' with_reducible (first | assumption | apply State.trained_keeps | apply State.failedLink_keeps | apply State.comeUp_keeps | apply State.linkQual_keeps | apply State.modPort_keeps | apply OKeeps.next | refine Keeps.ite (fun _ => ?_) (fun _ => ?_) | refine OKeeps.ite (fun _ => ?_) (fun _ => ?_) | refine Keeps.upd rfl (fun _ => rfl) id id id id id id id ?_)

theorem execLaneFailure_keeps {ba : Bool} {z0 s : State} (link : Fin 34) (lanesOk : BitVec 8) (hk : Keeps ba z0 s) :
    OKeeps ba z0 (execLaneFailure link lanesOk s) := by
  unfold execLaneFailure; try dsimp only
  repeat' with_reducible (first | assumption | apply State.takeDown_keeps | apply State.modPort_keeps | apply OKeeps.next | refine Keeps.ite (fun _ => ?_) (fun _ => ?_) | refine OKeeps.ite (fun _ => ?_) (fun _ => ?_) | split | refine Keeps.upd rfl (fun _ => rfl) id id id id id id id ?_)

theorem State.countFec_keeps {ba : Bool} {z0 s : State} (p : Nat) (corr : Nat) (uncorr : Nat) (hk : Keeps ba z0 s) :
    Keeps ba z0 (State.countFec s p corr uncorr) := by
  unfold State.countFec; try dsimp only
  repeat' with_reducible (first | assumption | apply State.modPort_keeps | apply State.cntOvf_keeps | refine Keeps.ite (fun _ => ?_) (fun _ => ?_) | refine Keeps.upd rfl (fun _ => rfl) id id id id id id id ?_)

theorem State.takeAck_keeps {ba : Bool} {z0 s : State} (p : Nat) (ack : Nat) (cls : Nat) (credits : Nat) (hk : Keeps ba z0 s) :
    Keeps ba z0 (State.takeAck s p ack cls credits) := by
  unfold State.takeAck; try dsimp only
  repeat' with_reducible (first | assumption | exact id | apply State.pace_keeps | apply State.modHif_keeps | apply State.pump_keeps | apply State.modPort_keeps | refine Keeps.ite (fun _ => ?_) (fun _ => ?_) | split | exact Memory.writeBytes_wf _ _ | exact Memory.clear_wf _ _ | intro _ | refine Keeps.upd rfl (fun _ => rfl) id id id id id id id ?_)

theorem State.gap_keeps {ba : Bool} {z0 s : State} (p : Nat) (hk : Keeps ba z0 s) :
    Keeps ba z0 (State.gap s p) := by
  unfold State.gap; try dsimp only
  repeat' with_reducible (first | assumption | apply State.modPort_keeps | refine Keeps.ite (fun _ => ?_) (fun _ => ?_) | refine Keeps.upd rfl (fun _ => rfl) id id id id id id id ?_)

theorem State.freeUnits_keeps {ba : Bool} {z0 s : State} (p : Nat) (cls : Nat) (n : Nat) (hk : Keeps ba z0 s) :
    Keeps ba z0 (State.freeUnits s p cls n) := by
  unfold State.freeUnits; try dsimp only
  repeat' with_reducible (first | assumption | apply State.modPort_keeps | refine Keeps.ite (fun _ => ?_) (fun _ => ?_) | refine Keeps.upd rfl (fun _ => rfl) id id id id id id id ?_)

theorem State.takeIn_keeps {ba : Bool} {z0 s : State} (p : Nat) (cls : Nat) (bytes : List (BitVec 8)) (hk : Keeps ba z0 s) :
    Keeps ba z0 (State.takeIn s p cls bytes) := by
  unfold State.takeIn; try dsimp only
  repeat' with_reducible (first | assumption | apply State.freeUnits_keeps | apply State.receive_keeps | apply State.dropRefused_keeps | apply State.dropNoRoute_keeps | apply State.modPort_keeps | refine Keeps.ite (fun _ => ?_) (fun _ => ?_) | refine Keeps.upd rfl (fun _ => rfl) id id id id id id id ?_)

theorem execDataFrame_keeps {ba : Bool} {z0 s : State} (link : Fin 34) (corr : Nat) (uncorr : Nat) (seq : BitVec 12) (ack : BitVec 12) (crclass : BitVec 2) (credits : BitVec 6) (cls : BitVec 2) (body : List (BitVec 8)) (hk : Keeps ba z0 s) :
    OKeeps ba z0 (execDataFrame link corr uncorr seq ack crclass credits cls body s) := by
  unfold execDataFrame; try dsimp only
  repeat' with_reducible (first | assumption | apply State.takeIn_keeps | apply State.gap_keeps | apply State.takeAck_keeps | apply State.countFec_keeps | apply State.modPort_keeps | apply OKeeps.next | refine Keeps.ite (fun _ => ?_) (fun _ => ?_) | refine OKeeps.ite (fun _ => ?_) (fun _ => ?_) | split | refine Keeps.upd rfl (fun _ => rfl) id id id id id id id ?_)

theorem execAckFrame_keeps {ba : Bool} {z0 s : State} (link : Fin 34) (corr : Nat) (uncorr : Nat) (frame : List (BitVec 8)) (hk : Keeps ba z0 s) :
    OKeeps ba z0 (execAckFrame link corr uncorr frame s) := by
  unfold execAckFrame; try dsimp only
  repeat' with_reducible (first | assumption | apply State.takeAck_keeps | apply State.countFec_keeps | apply OKeeps.next | refine Keeps.ite (fun _ => ?_) (fun _ => ?_) | refine OKeeps.ite (fun _ => ?_) (fun _ => ?_) | split)

theorem State.replayFrom_keeps {ba : Bool} {z0 s : State} (p : Nat) (ack : Nat) (hk : Keeps ba z0 s) :
    Keeps ba z0 (State.replayFrom s p ack) := by
  unfold State.replayFrom; try dsimp only
  repeat' with_reducible (first | assumption | apply State.modPort_keeps | apply State.cntOvf_keeps | apply foldl_keeps | refine Keeps.ite (fun _ => ?_) (fun _ => ?_) | intro _ | refine Keeps.upd rfl (fun _ => rfl) id id id id id id id ?_)

theorem execNakFrame_keeps {ba : Bool} {z0 s : State} (link : Fin 34) (frame : LineFrame) (hk : Keeps ba z0 s) :
    OKeeps ba z0 (execNakFrame link frame s) := by
  unfold execNakFrame; try dsimp only
  repeat' with_reducible (first | assumption | apply State.replayFrom_keeps | apply State.takeAck_keeps | apply State.countFec_keeps | apply OKeeps.next | refine Keeps.ite (fun _ => ?_) (fun _ => ?_) | refine OKeeps.ite (fun _ => ?_) (fun _ => ?_) | split)

theorem execPortDown_keeps {ba : Bool} {z0 s : State} (link : Fin 34) (hk : Keeps ba z0 s) :
    OKeeps ba z0 (execPortDown link s) := by
  unfold execPortDown; try dsimp only
  repeat' with_reducible (first | assumption | apply State.takeDown_keeps | apply State.raiseInc_keeps | apply State.dropNoRoutes_keeps | apply State.modPort_keeps | apply State.cntOvf_keeps | apply State.raise_keeps | apply OKeeps.next | refine Keeps.ite (fun _ => ?_) (fun _ => ?_) | refine OKeeps.ite (fun _ => ?_) (fun _ => ?_) | refine Keeps.upd rfl (fun _ => rfl) id id id id id id id ?_)

theorem State.jistoOut_keeps {ba : Bool} {z0 s : State} (g : Nat) (hk : Keeps ba z0 s) :
    Keeps ba z0 (State.jistoOut s g) := by
  unfold State.jistoOut; try dsimp only
  repeat' with_reducible (first | assumption | apply State.takeDown_keeps | apply State.jistoLost_keeps | refine Keeps.ite (fun _ => ?_) (fun _ => ?_))

theorem State.gatewayDown_keeps {ba : Bool} {z0 s : State} (g : Nat) (hk : Keeps ba z0 s) :
    Keeps ba z0 (State.gatewayDown s g) := by
  unfold State.gatewayDown; try dsimp only
  repeat' with_reducible (first | assumption | apply State.jistoOut_keeps | apply State.pairCheck_keeps | apply State.modZfp_keeps | apply State.modPort_keeps | apply State.raise_keeps | apply State.each_keeps | intro _ | refine Keeps.upd rfl (fun _ => rfl) id id id id id id id ?_)

theorem execLinkLoss_keeps {ba : Bool} {z0 s : State} (port : Port) (hk : Keeps ba z0 s) :
    OKeeps ba z0 (execLinkLoss port s) := by
  unfold execLinkLoss; try dsimp only
  repeat' with_reducible (first | assumption | apply State.takeDown_keeps | apply State.raise_keeps | apply OKeeps.next | refine Keeps.ite (fun _ => ?_) (fun _ => ?_) | refine OKeeps.ite (fun _ => ?_) (fun _ => ?_))

theorem State.countNotice_keeps {ba : Bool} {z0 s : State} (hk : Keeps ba z0 s) :
    Keeps ba z0 (State.countNotice s) := by
  unfold State.countNotice; try dsimp only
  repeat' with_reducible (first | assumption | apply State.cntOvf_keeps | refine Keeps.upd rfl (fun _ => rfl) id id id id id id id ?_)

theorem State.notice_keeps {ba : Bool} {z0 s : State} (dev : Nat) (hk : Keeps ba z0 s) :
    Keeps ba z0 (State.notice s dev) := by
  unfold State.notice; try dsimp only
  repeat' with_reducible (first | assumption | apply State.countNotice_keeps | apply State.sendState_keeps | refine Keeps.ite (fun _ => ?_) (fun _ => ?_) | split | refine Keeps.upd rfl (fun _ => rfl) id id id id id id id ?_)

theorem State.arrivalDrop_keeps {ba : Bool} {s0 s t : State} {x : RxPacket} (e : s.arrivalDrop x = some t) (hk : Keeps ba s0 s) :
    Keeps ba s0 t := by
  unfold State.arrivalDrop at e
  repeat' split at e
  all_goals first | cases e | skip
  · exact State.dropNoRoute_keeps hk
  · exact State.dropRefused_keeps hk
  · exact State.notice_keeps _ (State.dropStale_keeps hk)

theorem State.dropRx_keeps {ba : Bool} {z0 s : State} (id : Nat) (hk : Keeps ba z0 s) :
    Keeps ba z0 (State.dropRx s id) := by
  unfold State.dropRx; try dsimp only
  repeat' with_reducible (first | assumption | apply State.freeUnits_keeps | apply State.modZfp_keeps | refine Keeps.ite (fun _ => ?_) (fun _ => ?_) | split | refine Keeps.upd rfl (fun _ => rfl) id id id id id id id ?_)

theorem State.transitFlits_keeps {ba : Bool} {z0 s : State} (id : Nat) (ing : Nat) (eg : Nat) (num : Nat) (p : Packet) (n : Nat) (k_0 : Nat) (hk : Keeps ba z0 s) :
    Keeps ba z0 (State.transitFlits s id ing eg num p n k_0) := by
  induction k_0 generalizing s id ing eg num p n with
  | zero =>
    unfold State.transitFlits; try dsimp only
    repeat' with_reducible (first | assumption | apply State.addFlit_keeps | refine Keeps.ite (fun _ => ?_) (fun _ => ?_) | split)
  | succ n_ ih =>
    unfold State.transitFlits; try dsimp only
    repeat' with_reducible (first | assumption | apply ih | apply State.addFlit_keeps | refine Keeps.ite (fun _ => ?_) (fun _ => ?_) | split)

theorem State.forward_keeps {ba : Bool} {z0 s : State} (x : RxPacket) (port : Nat) (circ : Option Nat) (hk : Keeps ba z0 s) :
    Keeps ba z0 (State.forward s x port circ) := by
  unfold State.forward; try dsimp only
  repeat' with_reducible (first | assumption | apply State.transitFlits_keeps | apply State.emitAt_keeps | apply State.modZfp_keeps | refine Keeps.ite (fun _ => ?_) (fun _ => ?_) | refine Keeps.upd rfl (fun _ => rfl) id id id id id id id ?_)

theorem State.forwardMask_keeps {ba : Bool} {z0 s : State} (x : RxPacket) (mask : Nat) (k_0 : List Nat) (hk : Keeps ba z0 s) :
    Keeps ba z0 (State.forwardMask s x mask k_0) := by
  induction k_0 generalizing s x mask with
  | nil =>
    unfold State.forwardMask; try dsimp only
    repeat' with_reducible (first | assumption | apply State.forward_keeps | refine Keeps.ite (fun _ => ?_) (fun _ => ?_) | split)
  | cons x_ xs_ ih =>
    unfold State.forwardMask; try dsimp only
    repeat' with_reducible (first | assumption | apply ih | apply State.forward_keeps | refine Keeps.ite (fun _ => ?_) (fun _ => ?_) | split)

theorem execTransitPacket_keeps {ba : Bool} {z0 s : State} (rx : Nat) (hk : Keeps ba z0 s) :
    OKeeps ba z0 (execTransitPacket rx s) := by
  unfold execTransitPacket; try dsimp only
  repeat' with_reducible (first | assumption | refine State.arrivalDrop_keeps (by assumption) ?_ | apply State.forwardMask_keeps | apply State.forward_keeps | apply State.dropRx_keeps | apply State.receive_keeps | apply State.dropAged_keeps | apply State.dropRefused_keeps | apply State.dropNoRoute_keeps | apply OKeeps.next | refine Keeps.ite (fun _ => ?_) (fun _ => ?_) | refine OKeeps.ite (fun _ => ?_) (fun _ => ?_) | split | refine Keeps.upd rfl (fun _ => rfl) id id id id id id id ?_)

theorem State.releaseTransits_keeps {ba : Bool} {z0 s : State} (ing : Nat) (eg : Nat) (k_0 : Nat) (hk : Keeps ba z0 s) :
    Keeps ba z0 (State.releaseTransits s ing eg k_0) := by
  induction k_0 generalizing s ing eg with
  | zero =>
    unfold State.releaseTransits; try dsimp only
    repeat' with_reducible (first | assumption | apply State.ready_keeps | apply State.emitAt_keeps | apply State.modZfp_keeps | refine Keeps.ite (fun _ => ?_) (fun _ => ?_) | split | refine Keeps.upd rfl (fun _ => rfl) id id id id id id id ?_)
  | succ n_ ih =>
    unfold State.releaseTransits; try dsimp only
    repeat' with_reducible (first | assumption | apply ih | apply State.ready_keeps | apply State.emitAt_keeps | apply State.modZfp_keeps | refine Keeps.ite (fun _ => ?_) (fun _ => ?_) | split | refine Keeps.upd rfl (fun _ => rfl) id id id id id id id ?_)

theorem execPacketAged_keeps {ba : Bool} {z0 s : State} (held : HeldPacket) (hk : Keeps ba z0 s) :
    OKeeps ba z0 (execPacketAged held s) := by
  unfold execPacketAged; try dsimp only
  repeat' with_reducible (first | assumption | apply State.releaseTransits_keeps | apply State.dropRx_keeps | apply State.ready_keeps | apply State.dropAged_keeps | apply State.modZfp_keeps | apply State.modPort_keeps | apply State.advance_keeps | apply OKeeps.next | refine Keeps.ite (fun _ => ?_) (fun _ => ?_) | refine OKeeps.ite (fun _ => ?_) (fun _ => ?_) | split | refine Keeps.upd rfl (fun _ => rfl) id id id id id id id ?_)

theorem execTransitReassembly_keeps {ba : Bool} {z0 s : State} (flit : Nat) (hk : Keeps ba z0 s) :
    OKeeps ba z0 (execTransitReassembly flit s) := by
  unfold execTransitReassembly; try dsimp only
  repeat' with_reducible (first | assumption | apply State.releaseTransits_keeps | apply State.dropFlit_keeps | apply State.ready_keeps | apply State.modZfp_keeps | apply State.advance_keeps | apply OKeeps.next | refine Keeps.ite (fun _ => ?_) (fun _ => ?_) | refine OKeeps.ite (fun _ => ?_) (fun _ => ?_) | split | refine Keeps.upd rfl (fun _ => rfl) id id id id id id id ?_)

theorem execTransitGapTimeout_keeps {ba : Bool} {z0 s : State} (ingress : Gateway) (egress : Gateway) (hk : Keeps ba z0 s) :
    OKeeps ba z0 (execTransitGapTimeout ingress egress s) := by
  unfold execTransitGapTimeout; try dsimp only
  repeat' with_reducible (first | assumption | apply State.releaseTransits_keeps | apply State.ready_keeps | apply State.dropAged_keeps | apply State.modZfp_keeps | apply State.advance_keeps | apply OKeeps.next | refine Keeps.ite (fun _ => ?_) (fun _ => ?_) | refine OKeeps.ite (fun _ => ?_) (fun _ => ?_) | split | refine Keeps.upd rfl (fun _ => rfl) id id id id id id id ?_)

theorem State.openAccount_keeps {ba : Bool} {z0 s : State} (gw : Nat) (p : Packet) (hk : Keeps ba z0 s) :
    Keeps ba z0 (State.openAccount s gw p).1 := by
  unfold State.openAccount; try dsimp only
  repeat' with_reducible (first | assumption | apply State.modZfp_keeps | split | refine Keeps.upd rfl (fun _ => rfl) id id id id id id id ?_)

theorem State.modIncoming_keeps {ba : Bool} {z0 s : State} (i : Nat) (f : Incoming → Incoming) (hk : Keeps ba z0 s) :
    Keeps ba z0 (State.modIncoming s i f) := by
  unfold State.modIncoming; try dsimp only
  repeat' with_reducible (first | assumption | apply State.modZfp_keeps | split | refine Keeps.upd rfl (fun _ => rfl) id id id id id id id ?_)

theorem State.refuseWrite_keeps {ba : Bool} {z0 s : State} (gw : Nat) (p : Packet) (hk : Keeps ba z0 s) :
    Keeps ba z0 (State.refuseWrite s gw p) := by
  unfold State.refuseWrite; try dsimp only
  repeat' with_reducible (first | assumption | apply State.modIncoming_keeps | apply State.openAccount_keeps | apply State.settle_keeps | refine Keeps.ite (fun _ => ?_) (fun _ => ?_) | split | refine Keeps.upd rfl (fun _ => rfl) id id id id id id id ?_)

theorem State.checkTrailer_keeps {ba : Bool} {z0 s : State} (u : Nat) (q : CvuReq) (bytes : List (BitVec 8)) (hk : Keeps ba z0 s) :
    Keeps ba z0 (State.checkTrailer s u q bytes).1 := by
  unfold State.checkTrailer; try dsimp only
  repeat' with_reducible (first | assumption | exact id | apply State.modCvu_keeps | apply State.cntOvf_keeps | apply State.raise_keeps | refine Keeps.ite (fun _ => ?_) (fun _ => ?_) | split | exact Memory.writeBytes_wf _ _ | exact Memory.clear_wf _ _ | intro _ | refine Keeps.upd rfl (fun _ => rfl) id id id id id id id ?_)

theorem State.trailerIn_keeps {ba : Bool} {z0 s : State} (i : Nat) (p : Packet) (hk : Keeps ba z0 s) :
    Keeps ba z0 (State.trailerIn s i p) := by
  unfold State.trailerIn; try dsimp only
  repeat' with_reducible (first | assumption | apply State.checkTrailer_keeps | apply State.modIncoming_keeps | apply State.settle_keeps | apply State.askCvu_keeps | apply State.modCvu_keeps | split | refine Keeps.upd rfl (fun _ => rfl) id id id id id id id ?_)

theorem execWritePacket_keeps {ba : Bool} {z0 s : State} (rx : Nat) (hk : Keeps ba z0 s) :
    OKeeps ba z0 (execWritePacket rx s) := by
  unfold execWritePacket; try dsimp only
  repeat' with_reducible (first | assumption | refine State.arrivalDrop_keeps (by assumption) ?_ | apply State.trailerIn_keeps | apply State.refuseWrite_keeps | apply State.modIncoming_keeps | apply State.openAccount_keeps | apply State.dropRx_keeps | apply State.settle_keeps | apply State.sendWadi_keeps | apply State.askStack_keeps | apply State.dropRefused_keeps | apply OKeeps.next | refine Keeps.ite (fun _ => ?_) (fun _ => ?_) | refine OKeeps.ite (fun _ => ?_) (fun _ => ?_) | split | refine Keeps.upd rfl (fun _ => rfl) id id id id id id id ?_)

theorem State.writeRed_keeps {ba : Bool} {z0 s : State} (g : Nat) (r : RedSlot) (bad : Bool) (hk : Keeps ba z0 s) :
    Keeps ba z0 (State.writeRed s g r bad) := by
  unfold State.writeRed; try dsimp only
  repeat' with_reducible (first | assumption | apply State.sendWadi_keeps | split)

theorem execRedPacket_keeps {ba : Bool} {z0 s : State} (rx : Nat) (hk : Keeps ba z0 s) :
    OKeeps ba z0 (execRedPacket rx s) := by
  unfold execRedPacket; try dsimp only
  repeat' with_reducible (first | assumption | refine State.arrivalDrop_keeps (by assumption) ?_ | apply State.writeRed_keeps | apply State.dropRx_keeps | apply State.dropRefused_keeps | apply State.modZfp_keeps | apply State.raise_keeps | apply OKeeps.next | refine Keeps.ite (fun _ => ?_) (fun _ => ?_) | refine OKeeps.ite (fun _ => ?_) (fun _ => ?_) | split | refine Keeps.upd rfl (fun _ => rfl) id id id id id id id ?_)

theorem execReportPacket_keeps {ba : Bool} {z0 s : State} (rx : Nat) (hk : Keeps ba z0 s) :
    OKeeps ba z0 (execReportPacket rx s) := by
  unfold execReportPacket; try dsimp only
  repeat' with_reducible (first | assumption | refine State.arrivalDrop_keeps (by assumption) ?_ | apply State.dropRx_keeps | apply State.modRdma_keeps | apply OKeeps.next | split | refine Keeps.upd rfl (fun _ => rfl) id id id id id id id ?_)

theorem execMgmtResp_keeps {ba : Bool} {z0 s : State} (rx : Nat) (hk : Keeps ba z0 s) :
    OKeeps ba z0 (execMgmtResp rx s) := by
  unfold execMgmtResp; try dsimp only
  repeat' with_reducible (first | assumption | refine State.arrivalDrop_keeps (by assumption) ?_ | apply State.dropRx_keeps | apply State.modZfp_keeps | apply OKeeps.next | split | refine Keeps.upd rfl (fun _ => rfl) id id id id id id id ?_)

theorem execMgmtNote_keeps {ba : Bool} {z0 s : State} (rx : Nat) (hk : Keeps ba z0 s) :
    OKeeps ba z0 (execMgmtNote rx s) := by
  unfold execMgmtNote; try dsimp only
  repeat' with_reducible (first | assumption | refine State.arrivalDrop_keeps (by assumption) ?_ | apply State.dropRx_keeps | apply State.raise_keeps | apply OKeeps.next | refine Keeps.ite (fun _ => ?_) (fun _ => ?_) | refine OKeeps.ite (fun _ => ?_) (fun _ => ?_) | split)

theorem execDevNumWrite_keeps {ba : Bool} {z0 s : State} (dev : BitVec 16) (hk : Keeps ba z0 s) :
    OKeeps ba z0 (execDevNumWrite dev s) := by
  unfold execDevNumWrite; try dsimp only
  repeat' with_reducible (first | assumption | apply State.ready_keeps | apply State.modZfp_keeps | apply OKeeps.next | refine Keeps.ite (fun _ => ?_) (fun _ => ?_) | refine OKeeps.ite (fun _ => ?_) (fun _ => ?_) | refine Keeps.upd rfl (fun _ => rfl) id id id id id id id ?_)

theorem execRouteTableWrite_keeps {ba : Bool} {z0 s : State} (bcast : Bool) (index : Fin 65536) (value : BitVec 64) (hk : Keeps ba z0 s) :
    OKeeps ba z0 (execRouteTableWrite bcast index value s) := by
  unfold execRouteTableWrite; try dsimp only
  repeat' with_reducible (first | assumption | apply State.modZfp_keeps | apply OKeeps.next | refine Keeps.ite (fun _ => ?_) (fun _ => ?_) | refine OKeeps.ite (fun _ => ?_) (fun _ => ?_) | split | refine Keeps.upd rfl (fun _ => rfl) id id id id id id id ?_)

theorem State.flipEvent_keeps {ba : Bool} {z0 s : State} (kind : Nat) (hk : Keeps ba z0 s) :
    Keeps ba z0 (State.flipEvent s kind) := by
  unfold State.flipEvent; try dsimp only
  repeat' with_reducible (first | assumption | apply State.raise_keeps)

theorem State.commitCheck_keeps {ba : Bool} {z0 s : State} (hk : Keeps ba z0 s) :
    Keeps ba z0 (State.commitCheck s) := by
  unfold State.commitCheck; try dsimp only
  repeat' with_reducible (first | assumption | apply State.flipEvent_keeps | apply State.modCvu_keeps | apply State.modZfp_keeps | refine Keeps.ite (fun _ => ?_) (fun _ => ?_) | refine Keeps.upd rfl (fun _ => rfl) id id id id id id id ?_)

theorem execRouteCommit_keeps {ba : Bool} {z0 s : State} (hk : Keeps ba z0 s) :
    OKeeps ba z0 (execRouteCommit s) := by
  unfold execRouteCommit; try dsimp only
  repeat' with_reducible (first | assumption | apply State.commitCheck_keeps | apply State.askCvu_keeps | apply State.modZfp_keeps | apply OKeeps.next | refine Keeps.ite (fun _ => ?_) (fun _ => ?_) | refine OKeeps.ite (fun _ => ?_) (fun _ => ?_) | split | refine Keeps.upd rfl (fun _ => rfl) id id id id id id id ?_)

theorem execRouteFlip_keeps {ba : Bool} {z0 s : State} (hk : Keeps ba z0 s) :
    OKeeps ba z0 (execRouteFlip s) := by
  unfold execRouteFlip; try dsimp only
  repeat' with_reducible (first | assumption | apply State.modZfp_keeps | apply OKeeps.next | refine Keeps.ite (fun _ => ?_) (fun _ => ?_) | refine OKeeps.ite (fun _ => ?_) (fun _ => ?_) | refine Keeps.upd rfl (fun _ => rfl) id id id id id id id ?_)

theorem execZfpFlip_keeps {ba : Bool} {z0 s : State} (hk : Keeps ba z0 s) :
    OKeeps ba z0 (execZfpFlip s) := by
  unfold execZfpFlip; try dsimp only
  repeat' with_reducible (first | assumption | apply State.flipEvent_keeps | apply State.modZfp_keeps | apply OKeeps.next | refine Keeps.ite (fun _ => ?_) (fun _ => ?_) | refine OKeeps.ite (fun _ => ?_) (fun _ => ?_) | refine Keeps.upd rfl (fun _ => rfl) id id id id id id id ?_)

theorem execDrainExpiry_keeps {ba : Bool} {z0 s : State} (dev : BitVec 16) (cls : Fin 4) (chan : BitVec 4) (hk : Keeps ba z0 s) :
    OKeeps ba z0 (execDrainExpiry dev cls chan s) := by
  unfold execDrainExpiry; try dsimp only
  repeat' with_reducible (first | assumption | apply State.expireDomain_keeps | apply State.offer_keeps | apply State.modZfp_keeps | apply State.advance_keeps | apply foldl_keeps | apply OKeeps.next | refine Keeps.ite (fun _ => ?_) (fun _ => ?_) | refine OKeeps.ite (fun _ => ?_) (fun _ => ?_) | split | intro _ | refine Keeps.upd rfl (fun _ => rfl) id id id id id id id ?_)

theorem State.modEntry_keeps {ba : Bool} {z0 s : State} (c : Nat) (f : CircEntry → CircEntry) (hk : Keeps ba z0 s) :
    Keeps ba z0 (State.modEntry s c f) := by
  unfold State.modEntry; try dsimp only
  repeat' with_reducible (first | assumption | apply State.modZfp_keeps | refine Keeps.upd rfl (fun _ => rfl) id id id id id id id ?_)

theorem execCircEntryActivate_keeps {ba : Bool} {z0 s : State} (entry : Fin 64) (hk : Keeps ba z0 s) :
    OKeeps ba z0 (execCircEntryActivate entry s) := by
  unfold execCircEntryActivate; try dsimp only
  repeat' with_reducible (first | assumption | apply State.modEntry_keeps | apply OKeeps.next | split | refine Keeps.upd rfl (fun _ => rfl) id id id id id id id ?_)

theorem execPairSet_keeps {ba : Bool} {z0 s : State} (enable : Bool) (portA : Port) (portB : Port) (partner : BitVec 16) (hk : Keeps ba z0 s) :
    OKeeps ba z0 (execPairSet enable portA portB partner s) := by
  unfold execPairSet; try dsimp only
  repeat' with_reducible (first | assumption | apply State.pairCheck_keeps | apply State.ready_keeps | apply State.modZfp_keeps | apply OKeeps.next | refine Keeps.ite (fun _ => ?_) (fun _ => ?_) | refine OKeeps.ite (fun _ => ?_) (fun _ => ?_) | refine Keeps.upd rfl (fun _ => rfl) id id id id id id id ?_)

end Sys2Proof.Machine
end

