-- ==== Sys2Proof/Laws/KeepsNvm.lean ====
section
/-! SUPPORT. What the operations of Machine/Nvm.lean keep. -/

namespace Sys2Proof.Machine

open Sys2Proof

theorem State.modChan_keeps {ba : Bool} {z0 s : State} (c : Nat) (f : ChanRec → ChanRec) (hk : Keeps ba z0 s) :
    Keeps ba z0 (State.modChan s c f) := by
  unfold State.modChan; try dsimp only
  repeat' with_reducible (first | assumption | apply State.modNvm_keeps | refine Keeps.upd rfl (fun _ => rfl) id id id id id id id ?_)

theorem State.spaceCheck_keeps {ba : Bool} {z0 s : State} (c : Nat) (lun : Nat) (hk : Keeps ba z0 s) :
    Keeps ba z0 (State.spaceCheck s c lun) := by
  unfold State.spaceCheck; try dsimp only
  repeat' with_reducible (first | assumption | apply State.modChan_keeps | apply State.raise_keeps | refine Keeps.ite (fun _ => ?_) (fun _ => ?_) | refine Keeps.upd rfl (fun _ => rfl) id id id id id id id ?_)

theorem State.growBad_keeps {ba : Bool} {z0 s : State} (c : Nat) (b : Nat) (hk : Keeps ba z0 s) :
    Keeps ba z0 (State.growBad s c b) := by
  unfold State.growBad; try dsimp only
  repeat' with_reducible (first | assumption | apply State.spaceCheck_keeps | apply State.modChan_keeps | apply State.sysTable_keeps | refine Keeps.ite (fun _ => ?_) (fun _ => ?_) | refine Keeps.upd rfl (fun _ => rfl) id id id id id id id ?_)

theorem State.breakStore_keeps {ba : Bool} {z0 s : State} (hk : Keeps ba z0 s) :
    Keeps ba z0 (State.breakStore s) := by
  unfold State.breakStore; try dsimp only
  repeat' with_reducible (first | assumption | apply State.modNvm_keeps | apply State.raise_keeps | refine Keeps.upd rfl (fun _ => rfl) id id id id id id id ?_)

theorem State.codeword_keeps {ba : Bool} {z0 s : State} (c : Nat) (b : Nat) (tier : ReadTier) (stripe : Option (Fin 4)) (hk : Keeps ba z0 s) :
    Keeps ba z0 (State.codeword s c b tier stripe) := by
  unfold State.codeword; try dsimp only
  repeat' with_reducible (first | assumption | apply State.breakStore_keeps | apply State.growBad_keeps | apply State.modChan_keeps | apply State.cntOvf_keeps | apply State.raise_keeps | refine Keeps.ite (fun _ => ?_) (fun _ => ?_) | split | refine Keeps.upd rfl (fun _ => rfl) id id id id id id id ?_)

theorem execCodewordRead_keeps {ba : Bool} {z0 s : State} (chan : Chan) (block : Nat) (tier : ReadTier) (stripe : Option (Fin 4)) (hk : Keeps ba z0 s) :
    OKeeps ba z0 (execCodewordRead chan block tier stripe s) := by
  unfold execCodewordRead; try dsimp only
  repeat' with_reducible (first | assumption | apply State.codeword_keeps | apply OKeeps.next)

theorem execPatrolRead_keeps {ba : Bool} {z0 s : State} (chan : Chan) (block : Nat) (tier : ReadTier) (stripe : Option (Fin 4)) (hk : Keeps ba z0 s) :
    OKeeps ba z0 (execPatrolRead chan block tier stripe s) := by
  unfold execPatrolRead; try dsimp only
  repeat' with_reducible (first | assumption | apply State.codeword_keeps | apply OKeeps.next)

theorem execBlockRefresh_keeps {ba : Bool} {z0 s : State} (chan : Chan) (block : Nat) (work : RefreshWork) (hk : Keeps ba z0 s) :
    OKeeps ba z0 (execBlockRefresh chan block work s) := by
  unfold execBlockRefresh; try dsimp only
  repeat' with_reducible (first | assumption | apply State.spaceCheck_keeps | apply State.modChan_keeps | apply OKeeps.next | refine Keeps.ite (fun _ => ?_) (fun _ => ?_) | refine OKeeps.ite (fun _ => ?_) (fun _ => ?_))

theorem execWearMove_keeps {ba : Bool} {z0 s : State} (chan : Chan) (lun : Nat) (hk : Keeps ba z0 s) :
    OKeeps ba z0 (execWearMove chan lun s) := by
  unfold execWearMove; try dsimp only
  repeat' with_reducible (first | assumption | apply State.spaceCheck_keeps | apply State.modChan_keeps | apply OKeeps.next | refine Keeps.ite (fun _ => ?_) (fun _ => ?_) | refine OKeeps.ite (fun _ => ?_) (fun _ => ?_) | split)

theorem State.putPage_keeps {ba : Bool} {z0 s : State} (c : Nat) (k : Nat) (granules : Nat) (hk : Keeps ba z0 s) :
    Keeps ba z0 (State.putPage s c k granules) := by
  unfold State.putPage; try dsimp only
  repeat' with_reducible (first | assumption | apply State.modNvm_keeps | refine Keeps.ite (fun _ => ?_) (fun _ => ?_) | refine Keeps.upd rfl (fun _ => rfl) id id id id id id id ?_)

theorem execProgramComplete_keeps {ba : Bool} {z0 s : State} (chan : Chan) (block : Nat) (ok : Bool) (stripe : Nat) (granules : Nat) (hk : Keeps ba z0 s) :
    OKeeps ba z0 (execProgramComplete chan block ok stripe granules s) := by
  unfold execProgramComplete; try dsimp only
  repeat' with_reducible (first | assumption | apply State.putPage_keeps | apply State.growBad_keeps | apply State.spaceCheck_keeps | apply State.modChan_keeps | apply OKeeps.next | refine Keeps.ite (fun _ => ?_) (fun _ => ?_) | refine OKeeps.ite (fun _ => ?_) (fun _ => ?_) | refine Keeps.upd rfl (fun _ => rfl) id id id id id id id ?_)

theorem execEraseComplete_keeps {ba : Bool} {z0 s : State} (chan : Chan) (block : Nat) (ok : Bool) (hk : Keeps ba z0 s) :
    OKeeps ba z0 (execEraseComplete chan block ok s) := by
  unfold execEraseComplete; try dsimp only
  repeat' with_reducible (first | assumption | apply State.growBad_keeps | apply State.spaceCheck_keeps | apply State.modChan_keeps | apply OKeeps.next | refine Keeps.ite (fun _ => ?_) (fun _ => ?_) | refine OKeeps.ite (fun _ => ?_) (fun _ => ?_) | split | refine Keeps.upd rfl (fun _ => rfl) id id id id id id id ?_)

theorem execSystemAreaCopy_keeps {ba : Bool} {z0 s : State} (sideB : Bool) (hk : Keeps ba z0 s) :
    OKeeps ba z0 (execSystemAreaCopy sideB s) := by
  unfold execSystemAreaCopy; try dsimp only
  repeat' with_reducible (first | assumption | apply State.modNvm_keeps | apply OKeeps.next | refine Keeps.upd rfl (fun _ => rfl) id id id id id id id ?_)

theorem State.commitRec_keeps {ba : Bool} {z0 s : State} (kind : Nat) (slot : Nat) (step : Nat) (sgen : Nat) (bytes : Nat) (checks : List Nat) (f : Codeword → Bool) (hk : Keeps ba z0 s) :
    Keeps ba z0 (State.commitRec s kind slot step sgen bytes checks f) := by
  unfold State.commitRec; try dsimp only
  repeat' with_reducible (first | assumption | apply State.modNvm_keeps | apply State.passCvu_keeps | refine Keeps.ite (fun _ => ?_) (fun _ => ?_) | refine Keeps.upd rfl (fun _ => rfl) id id id id id id id ?_)

theorem State.postSnapCheck_keeps {ba : Bool} {z0 s : State} (stack : Nat) (hk : Keeps ba z0 s) :
    Keeps ba z0 (State.postSnapCheck s stack) := by
  unfold State.postSnapCheck; try dsimp only
  repeat' with_reducible (first | assumption | apply State.modNvm_keeps | apply State.modCvu_keeps | split | refine Keeps.upd rfl (fun _ => rfl) id id id id id id id ?_)

theorem State.snapRead_keeps {ba : Bool} {z0 s : State} (stack : Nat) (hk : Keeps ba z0 s) :
    Keeps ba z0 (State.snapRead s stack) := by
  unfold State.snapRead; try dsimp only
  repeat' with_reducible (first | assumption | apply State.postSnapCheck_keeps | apply State.modNvm_keeps | refine Keeps.upd rfl (fun _ => rfl) id id id id id id id ?_)

theorem State.snapNext_keeps {ba : Bool} {z0 s : State} (stack : Nat) (cur : Nat) (hk : Keeps ba z0 s) :
    Keeps ba z0 (State.snapNext s stack cur) := by
  unfold State.snapNext; try dsimp only
  repeat' with_reducible (first | assumption | apply State.snapRead_keeps | apply State.askStack_keeps | apply State.modNvm_keeps | split | refine Keeps.upd rfl (fun _ => rfl) id id id id id id id ?_)

theorem State.snapBegin_keeps {ba : Bool} {z0 s : State} (stack : Nat) (hk : Keeps ba z0 s) :
    Keeps ba z0 (State.snapBegin s stack) := by
  unfold State.snapBegin; try dsimp only
  repeat' with_reducible (first | assumption | apply State.snapNext_keeps | refine Keeps.ite (fun _ => ?_) (fun _ => ?_) | split)

theorem State.snapAsk_keeps {ba : Bool} {z0 s : State} (stack : Nat) (hk : Keeps ba z0 s) :
    Keeps ba z0 (State.snapAsk s stack) := by
  unfold State.snapAsk; try dsimp only
  repeat' with_reducible (first | assumption | apply State.snapBegin_keeps | apply State.askCvu_keeps | refine Keeps.ite (fun _ => ?_) (fun _ => ?_) | split)

theorem State.snapStart_keeps {ba : Bool} {z0 s : State} (base : Nat) (hk : Keeps ba z0 s) :
    Keeps ba z0 (State.snapStart s base) := by
  unfold State.snapStart; try dsimp only
  repeat' with_reducible (first | assumption | apply State.snapAsk_keeps | apply State.commitRec_keeps | apply State.modNvm_keeps | apply State.each_keeps | refine Keeps.ite (fun _ => ?_) (fun _ => ?_) | split | intro _ | refine Keeps.upd rfl (fun _ => rfl) id id id id id id id ?_)

theorem State.snapGot_keeps {ba : Bool} {z0 s : State} (stack : Nat) (bytes : List (BitVec 8)) (bad : List Bool) (hk : Keeps ba z0 s) :
    Keeps ba z0 (State.snapGot s stack bytes bad) := by
  unfold State.snapGot; try dsimp only
  repeat' with_reducible (first | assumption | apply State.snapNext_keeps | apply State.modNvm_keeps | split | refine Keeps.upd rfl (fun _ => rfl) id id id id id id id ?_)

theorem execStepMark_keeps {ba : Bool} {z0 s : State} (hk : Keeps ba z0 s) :
    OKeeps ba z0 (execStepMark s) := by
  unfold execStepMark; try dsimp only
  repeat' with_reducible (first | assumption | apply State.endJob_keeps | apply State.raise_keeps | apply OKeeps.next | refine Keeps.ite (fun _ => ?_) (fun _ => ?_) | refine OKeeps.ite (fun _ => ?_) (fun _ => ?_) | split | refine Keeps.upd rfl (fun _ => rfl) id id id id id id id ?_)

theorem execStepClose_keeps {ba : Bool} {z0 s : State} (hk : Keeps ba z0 s) :
    OKeeps ba z0 (execStepClose s) := by
  unfold execStepClose; try dsimp only
  repeat' with_reducible (first | assumption | apply State.snapStart_keeps | apply State.endShadow_keeps | apply State.paceCheck_keeps | apply State.modStatus_keeps | apply OKeeps.next | refine Keeps.ite (fun _ => ?_) (fun _ => ?_) | refine OKeeps.ite (fun _ => ?_) (fun _ => ?_) | split | refine Keeps.upd rfl (fun _ => rfl) id id id id id id id ?_)

theorem execStagingDrain_keeps {ba : Bool} {z0 s : State} (stack : Stack) (n : Nat) (hk : Keeps ba z0 s) :
    OKeeps ba z0 (execStagingDrain stack n s) := by
  unfold execStagingDrain; try dsimp only
  repeat' with_reducible (first | assumption | apply State.endShadow_keeps | apply State.sendShadow_keeps | apply State.modNvm_keeps | apply foldl_keeps | apply OKeeps.next | intro _ | refine Keeps.upd rfl (fun _ => rfl) id id id id id id id ?_)

theorem execDeltaCommit_keeps {ba : Bool} {z0 s : State} (hk : Keeps ba z0 s) :
    OKeeps ba z0 (execDeltaCommit s) := by
  unfold execDeltaCommit; try dsimp only
  repeat' with_reducible (first | assumption | apply State.commitRec_keeps | apply State.recount_keeps | apply State.inForce_keeps | apply State.modNvm_keeps | apply State.raise_keeps | apply OKeeps.next | refine Keeps.ite (fun _ => ?_) (fun _ => ?_) | refine OKeeps.ite (fun _ => ?_) (fun _ => ?_) | split | refine Keeps.upd rfl (fun _ => rfl) id id id id id id id ?_)

theorem execSnapshotCommit_keeps {ba : Bool} {z0 s0 : State} (hk : Keeps ba z0 s0) :
    OKeeps ba z0 (execSnapshotCommit s0) := by
  unfold execSnapshotCommit; try dsimp only
  repeat' with_reducible (first | assumption | apply State.snapAsk_keeps | apply State.commitRec_keeps | apply State.recount_keeps | apply State.inForce_keeps | apply State.modNvm_keeps | apply State.raise_keeps | apply State.each_keeps | apply OKeeps.next | refine Keeps.ite (fun _ => ?_) (fun _ => ?_) | refine OKeeps.ite (fun _ => ?_) (fun _ => ?_) | split | intro _ | refine Keeps.upd rfl (fun _ => rfl) id id id id id id id ?_)

theorem State.recheck_keeps {ba : Bool} {z0 s : State} (r : SnapRec) (hk : Keeps ba z0 s) :
    Keeps ba z0 (State.recheck s r) := by
  unfold State.recheck; try dsimp only
  repeat' with_reducible (first | assumption | apply State.passCvu_keeps | apply State.each_keeps | refine Keeps.ite (fun _ => ?_) (fun _ => ?_) | intro _)

theorem execRestoreDone_keeps {ba : Bool} {z0 s : State} (uncorr : Bool) (check : Bool) (hk : Keeps ba z0 s) :
    OKeeps ba z0 (execRestoreDone uncorr check s) := by
  unfold execRestoreDone; try dsimp only
  repeat' with_reducible (first | assumption | apply State.recheck_keeps | apply State.applyRestore_keeps | apply State.loadProgram_keeps | apply State.inForce_keeps | apply State.failStart_keeps | apply State.modNvm_keeps | apply State.endJob_keeps | apply OKeeps.next | refine Keeps.ite (fun _ => ?_) (fun _ => ?_) | refine OKeeps.ite (fun _ => ?_) (fun _ => ?_) | split | refine Keeps.upd rfl (fun _ => rfl) id id id id id id id ?_)

theorem execImageCommit_keeps {ba : Bool} {z0 s : State} (hk : Keeps ba z0 s) :
    OKeeps ba z0 (execImageCommit s) := by
  unfold execImageCommit; try dsimp only
  repeat' with_reducible (first | assumption | apply State.commitRec_keeps | apply State.modNvm_keeps | apply State.finishCmd_keeps | apply OKeeps.next | split | refine Keeps.upd rfl (fun _ => rfl) id id id id id id id ?_)

theorem State.losePages_keeps {ba : Bool} {z0 s : State} (c : Nat) (hk : Keeps ba z0 s) :
    Keeps ba z0 (State.losePages s c) := by
  unfold State.losePages; try dsimp only
  repeat' with_reducible (first | assumption | apply State.breakStore_keeps | apply State.modNvm_keeps | refine Keeps.ite (fun _ => ?_) (fun _ => ?_) | split | refine Keeps.upd rfl (fun _ => rfl) id id id id id id id ?_)

theorem State.channelOut_keeps {ba : Bool} {z0 s : State} (c : Nat) (target : Option (Fin 8)) (hk : Keeps ba z0 s) :
    Keeps ba z0 (State.channelOut s c target) := by
  unfold State.channelOut; try dsimp only
  repeat' with_reducible (first | assumption | apply State.losePages_keeps | apply State.modChan_keeps | apply State.modNvm_keeps | refine Keeps.ite (fun _ => ?_) (fun _ => ?_) | split | refine Keeps.upd rfl (fun _ => rfl) id id id id id id id ?_)

theorem execChannelOut_keeps {ba : Bool} {z0 s : State} (chan : Chan) (target : Option (Fin 8)) (hk : Keeps ba z0 s) :
    OKeeps ba z0 (execChannelOut chan target s) := by
  unfold execChannelOut; try dsimp only
  repeat' with_reducible (first | assumption | apply State.channelOut_keeps | apply OKeeps.next)

theorem State.gatewayOut_keeps {ba : Bool} {z0 s : State} (g : Nat) (hk : Keeps ba z0 s) :
    Keeps ba z0 (State.gatewayOut s g) := by
  unfold State.gatewayOut; try dsimp only
  repeat' with_reducible (first | assumption | apply State.channelOut_keeps | apply State.gatewayDown_keeps | apply State.modPanel_keeps | apply State.each_keeps | intro _ | refine Keeps.upd rfl (fun _ => rfl) id id id id id id id ?_)

end Sys2Proof.Machine
end

