-- ==== Sys2Proof/Laws/KeepsSubst.lean ====
section
/-! SUPPORT. What the operations of Machine/Subst.lean keep. -/

namespace Sys2Proof.Machine

open Sys2Proof

theorem State.dieMode_keeps {ba : Bool} {z0 s : State} (site : Nat) (m : DieMode) (hk : Keeps ba z0 s) :
    Keeps ba z0 (State.dieMode s site m) := by
  unfold State.dieMode; try dsimp only
  repeat' with_reducible (first | assumption | apply State.modPanel_keeps | refine Keeps.upd rfl (fun _ => rfl) id id id id id id id ?_)

theorem State.dropMoves_keeps {ba : Bool} {z0 s : State} (site : Nat) (hk : Keeps ba z0 s) :
    Keeps ba z0 (State.dropMoves s site) := by
  unfold State.dropMoves; try dsimp only
  repeat' with_reducible (first | assumption | apply State.dropMove_keeps | apply State.each_keeps | intro _)

theorem State.computeReset_keeps {ba : Bool} {z0 s : State} (site : Nat) (hk : Keeps ba z0 s) :
    Keeps ba z0 (State.computeReset s site) := by
  unfold State.computeReset; try dsimp only
  repeat' with_reducible (first | assumption | apply State.dropMoves_keeps | apply State.dieMode_keeps | apply State.sweepSite_keeps | apply State.modPanel_keeps | refine Keeps.ite (fun _ => ?_) (fun _ => ?_) | refine Keeps.upd rfl (fun _ => rfl) id id id id id id id ?_)

theorem State.pinRow_keeps {ba : Bool} {z0 s : State} (site : Nat) (row : Nat) (col : Nat) (hk : Keeps ba z0 s) :
    Keeps ba z0 (State.pinRow s site row col) := by
  unfold State.pinRow; try dsimp only
  repeat' with_reducible (first | assumption | apply State.moveRest_keeps | apply State.modPanel_keeps | split | refine Keeps.upd rfl (fun _ => rfl) id id id id id id id ?_)

theorem State.fenceDie_keeps {ba : Bool} {z0 s : State} (site : Nat) (hk : Keeps ba z0 s) :
    Keeps ba z0 (State.fenceDie s site) := by
  unfold State.fenceDie; try dsimp only
  repeat' with_reducible (first | assumption | apply State.dieMode_keeps | apply State.dropMove_keeps | apply State.sweepSite_keeps | apply State.raiseInc_keeps | apply foldl_keeps | intro _)

theorem State.beginRelay_keeps {ba : Bool} {z0 s : State} (ms : List Moved) (code : Nat) (due : Bool) (hk : Keeps ba z0 s) :
    Keeps ba z0 (State.beginRelay s ms code due) := by
  unfold State.beginRelay; try dsimp only
  repeat' with_reducible (first | assumption | apply State.haltJob_keeps | apply State.modStatus_keeps | refine Keeps.ite (fun _ => ?_) (fun _ => ?_) | split | refine Keeps.upd rfl (fun _ => rfl) id id id id id id id ?_)

theorem State.leaveLost_keeps {ba : Bool} {z0 s : State} (hk : Keeps ba z0 s) :
    Keeps ba z0 (State.leaveLost s) := by
  unfold State.leaveLost; try dsimp only
  repeat' with_reducible (first | assumption | apply State.tellCoord_keeps | refine Keeps.ite (fun _ => ?_) (fun _ => ?_))

theorem State.replaceLost_keeps {ba : Bool} {z0 s : State} (refit : Bool) (code : Nat) (hk : Keeps ba z0 s) :
    Keeps ba z0 (State.replaceLost s refit code) := by
  unfold State.replaceLost; try dsimp only
  repeat' with_reducible (first | assumption | apply State.leaveLost_keeps | apply State.beginRelay_keeps | apply State.rebindJob_keeps | apply State.endJob_keeps | apply State.applyMove_keeps | apply State.commitRecord_keeps | apply State.modPanel_keeps | apply State.raise_keeps | apply foldl_keeps | refine Keeps.ite (fun _ => ?_) (fun _ => ?_) | intro _ | refine Keeps.upd rfl (fun _ => rfl) id id id id id id id ?_)

theorem State.goOn_keeps {ba : Bool} {z0 s : State} (added : Nat) (hk : Keeps ba z0 s) :
    Keeps ba z0 (State.goOn s added) := by
  unfold State.goOn; try dsimp only
  repeat' with_reducible (first | assumption | apply State.proceed_keeps | apply State.loadProgram_keeps | apply State.ready_keeps | apply State.resumeJob_keeps | apply State.rebindJob_keeps | refine Keeps.ite (fun _ => ?_) (fun _ => ?_) | split | refine Keeps.upd rfl (fun _ => rfl) id id id id id id id ?_)

theorem State.endRelay_keeps {ba : Bool} {z0 s : State} (pass : Bool) (added : Nat) (hk : Keeps ba z0 s) :
    Keeps ba z0 (State.endRelay s pass added) := by
  unfold State.endRelay; try dsimp only
  repeat' with_reducible (first | assumption | apply State.goOn_keeps | apply State.endJob_keeps | apply State.applyMove_keeps | apply State.commitRecord_keeps | apply State.modPanel_keeps | apply foldl_keeps | refine Keeps.ite (fun _ => ?_) (fun _ => ?_) | split | intro _ | refine Keeps.upd rfl (fun _ => rfl) id id id id id id id ?_)

theorem State.failDie_keeps {ba : Bool} {z0 s : State} (site : Nat) (routerLost : Bool) (code : Nat) (hk : Keeps ba z0 s) :
    Keeps ba z0 (State.failDie s site routerLost code) := by
  unfold State.failDie; try dsimp only
  repeat' with_reducible (first | assumption | apply State.replaceLost_keeps | apply State.fenceDie_keeps | apply State.attachAnew_keeps | apply State.setRole_keeps | apply State.modPanel_keeps | refine Keeps.ite (fun _ => ?_) (fun _ => ?_) | refine Keeps.upd rfl (fun _ => rfl) id id id id id id id ?_)

theorem State.resumeOrLoad_keeps {ba : Bool} {z0 s : State} (code : Nat) (hk : Keeps ba z0 s) :
    Keeps ba z0 (State.resumeOrLoad s code) := by
  unfold State.resumeOrLoad; try dsimp only
  repeat' with_reducible (first | assumption | apply State.loadProgram_keeps | apply State.ready_keeps | apply State.resumeJob_keeps | refine Keeps.ite (fun _ => ?_) (fun _ => ?_))

theorem State.declareCore_keeps {ba : Bool} {z0 s : State} (p : Nat) (code : Nat) (hk : Keeps ba z0 s) :
    Keeps ba z0 (State.declareCore s p code) := by
  unfold State.declareCore; try dsimp only
  repeat' with_reducible (first | assumption | apply State.resumeOrLoad_keeps | apply State.failDie_keeps | apply State.pinRow_keeps | apply State.computeReset_keeps | apply State.rebindJob_keeps | apply State.dropMove_keeps | apply State.raiseInc_keeps | apply State.dress_keeps | apply State.commitRecord_keeps | refine Keeps.ite (fun _ => ?_) (fun _ => ?_))

end Sys2Proof.Machine
end

