-- ==== Sys2Proof/Laws/KeepsPowerOps.lean ====
section
/-! SUPPORT. What the operations of Machine/PowerOps.lean keep. -/

namespace Sys2Proof.Machine

open Sys2Proof

theorem State.modWdt_keeps {ba : Bool} {z0 s : State} (agent : Nat) (f : WdtRec → WdtRec) (hk : Keeps ba z0 s) :
    Keeps ba z0 (State.modWdt s agent f) := by
  unfold State.modWdt; try dsimp only
  repeat' with_reducible (first | assumption | refine Keeps.upd rfl (fun _ => rfl) id id id id id id id ?_)

theorem State.activate_keeps {ba : Bool} {z0 s : State} (gw7 : Bool) (hk : Keeps ba z0 s) :
    Keeps ba z0 (State.activate s gw7) := by
  unfold State.activate; try dsimp only
  repeat' with_reducible (first | assumption | apply State.cntOvf_keeps | split | refine Keeps.upd rfl (fun _ => rfl) id id id id id id id ?_)

theorem State.panelFails_keeps {ba : Bool} {z0 s : State} (gw7 : Bool) (hk : Keeps ba z0 s) :
    Keeps ba z0 (State.panelFails s gw7) := by
  unfold State.panelFails; try dsimp only
  repeat' with_reducible (first | assumption | apply State.activate_keeps | refine Keeps.ite (fun _ => ?_) (fun _ => ?_) | refine Keeps.upd rfl (fun _ => rfl) id id id id id id id ?_)

theorem State.gatewayServicesOut_keeps {ba : Bool} {z0 s : State} (g : Nat) (hk : Keeps ba z0 s) :
    Keeps ba z0 (State.gatewayServicesOut s g) := by
  unfold State.gatewayServicesOut; try dsimp only
  repeat' with_reducible (first | assumption | apply State.channelOut_keeps | apply State.gatewayDown_keeps | apply State.each_keeps | intro _)

theorem State.modErg_keeps {ba : Bool} {z0 s : State} (e : Nat) (f : ErgPwr → ErgPwr) (hk : Keeps ba z0 s) :
    Keeps ba z0 (State.modErg s e f) := by
  unfold State.modErg; try dsimp only
  repeat' with_reducible (first | assumption | exact id | apply State.modPwr_keeps | refine Keeps.upd rfl (fun _ => rfl) id id id id id id id ?_)

theorem State.modDieClk_keeps {ba : Bool} {z0 s : State} (site : Nat) (f : DieClk → DieClk) (hk : Keeps ba z0 s) :
    Keeps ba z0 (State.modDieClk s site f) := by
  unfold State.modDieClk; try dsimp only
  repeat' with_reducible (first | assumption | exact id | apply State.modClk_keeps | refine Keeps.upd rfl (fun _ => rfl) id id id id id id id ?_)

theorem State.clockGone_keeps {ba : Bool} {z0 s : State} (sites : List Nat) (hk : Keeps ba z0 s) :
    Keeps ba z0 (State.clockGone s sites) := by
  unfold State.clockGone; try dsimp only
  repeat' with_reducible (first | assumption | exact id | apply State.modClk_keeps | apply foldl_keeps | refine Keeps.ite (fun _ => ?_) (fun _ => ?_) | intro _ | refine Keeps.upd rfl (fun _ => rfl) id id id id id id id ?_)

theorem State.gatewayGone_keeps {ba : Bool} {z0 s : State} (g : Nat) (hk : Keeps ba z0 s) :
    Keeps ba z0 (State.gatewayGone s g) := by
  unfold State.gatewayGone; try dsimp only
  repeat' with_reducible (first | assumption | apply State.panelFails_keeps | apply State.modWdt_keeps | apply State.gatewayOut_keeps | refine Keeps.ite (fun _ => ?_) (fun _ => ?_) | refine Keeps.upd rfl (fun _ => rfl) id id id id id id id ?_)

theorem State.setRole_srams (s : State) (x : Nat) (r : Role) : (s.setRole x r).srams = s.srams := by
  unfold State.setRole; split <;> rfl

theorem State.siteDark_keeps {ba : Bool} {s0 s : State} (site : Nat) (hk : Keeps ba s0 s) : Keeps ba s0 (s.siteDark site) := by
  unfold State.siteDark
  extract_lets out s1 s2 w
  have h2 : Keeps ba s0 s1 := State.modPanel_keeps _ (State.dropMoves_keeps site hk)
  have h3 : Keeps ba s0 s2 := State.setRole_keeps site .dark h2
  have e : s2.srams = s1.srams := State.setRole_srams _ _ _
  clear_value s2 s1 out
  exact Keeps.upd (s := s2) rfl (fun _ => rfl) id id id id (fun hh => Memory.tfilter_wf _ (e ▸ hh)) id id h3

theorem State.loseErg_keeps {ba : Bool} {z0 s : State} (e : Nat) (park : Bool) (hk : Keeps ba z0 s) :
    Keeps ba z0 (State.loseErg s e park) := by
  unfold State.loseErg; try dsimp only
  repeat' with_reducible (first | assumption | exact id | apply State.siteDark_keeps | apply State.gatewayGone_keeps | apply State.clockGone_keeps | apply State.replaceLost_keeps | apply State.modClk_keeps | apply State.attachAnew_keeps | apply State.loseStack_keeps | apply State.endJob_keeps | apply State.modPanel_keeps | apply State.each_keeps | refine Keeps.ite (fun _ => ?_) (fun _ => ?_) | split | intro _ | refine Keeps.upd rfl (fun _ => rfl) id id id id id id id ?_)

theorem State.park_keeps {ba : Bool} {z0 s : State} (e : Nat) (trip : Bool) (hk : Keeps ba z0 s) :
    Keeps ba z0 (State.park s e trip) := by
  unfold State.park; try dsimp only
  repeat' with_reducible (first | assumption | exact id | exact Pwr.dropFloor_cap | apply State.loseErg_keeps | apply State.modErg_keeps | apply State.modClk_keeps | apply State.modPwr_keeps | apply State.raise_keeps | refine Keeps.ite (fun _ => ?_) (fun _ => ?_) | refine Keeps.upd rfl (fun _ => rfl) id id id id id id id ?_)

theorem State.ergDark_keeps {ba : Bool} {z0 s : State} (e : Nat) (short : Bool) (hk : Keeps ba z0 s) :
    Keeps ba z0 (State.ergDark s e short) := by
  unfold State.ergDark
  exact State.loseErg_keeps _ _ (State.raise_keeps _ _ _ _ (State.modPwr_keeps _ (fun hh => Pwr.dropFloor_cap hh)
    (State.modErg_keeps _ _ hk)))

theorem State.migrateErg_keeps {ba : Bool} {z0 s : State} (e : Nat) (k_0 : Nat) (hk : Keeps ba z0 s) :
    Keeps ba z0 (State.migrateErg s e k_0) := by
  induction k_0 generalizing s e with
  | zero =>
    unfold State.migrateErg; try dsimp only
    repeat' with_reducible (first | assumption | apply State.applyMove_keeps | apply State.dress_keeps | apply State.setRole_keeps | apply State.modPanel_keeps | refine Keeps.ite (fun _ => ?_) (fun _ => ?_) | split | refine Keeps.upd rfl (fun _ => rfl) id id id id id id id ?_)
  | succ n_ ih =>
    unfold State.migrateErg; try dsimp only
    repeat' with_reducible (first | assumption | apply ih | apply State.applyMove_keeps | apply State.dress_keeps | apply State.setRole_keeps | apply State.modPanel_keeps | refine Keeps.ite (fun _ => ?_) (fun _ => ?_) | split | refine Keeps.upd rfl (fun _ => rfl) id id id id id id id ?_)

theorem State.raiseFloor_keeps {ba : Bool} {z0 s : State} (k_0 : Nat) (hk : Keeps ba z0 s) :
    Keeps ba z0 (State.raiseFloor s k_0) := by
  induction k_0 generalizing s with
  | zero =>
    unfold State.raiseFloor; try dsimp only
    repeat' with_reducible (first | assumption | exact id | apply State.modPwr_keeps | refine Keeps.ite (fun _ => ?_) (fun _ => ?_) | split | refine Keeps.upd rfl (fun _ => rfl) id id id id id id id ?_)
  | succ n_ ih =>
    unfold State.raiseFloor; try dsimp only
    repeat' with_reducible (first | assumption | exact id | apply ih | apply State.modPwr_keeps | refine Keeps.ite (fun _ => ?_) (fun _ => ?_) | split | refine Keeps.upd rfl (fun _ => rfl) id id id id id id id ?_)

theorem State.migrate_keeps {ba : Bool} {z0 s : State} (hk : Keeps ba z0 s) :
    Keeps ba z0 (State.migrate s) := by
  unfold State.migrate; try dsimp only
  repeat' with_reducible (first | assumption | exact id | apply State.raiseFloor_keeps | apply State.migrateErg_keeps | apply State.modPwr_keeps | apply State.commitRecord_keeps | apply State.each_keeps | refine Keeps.ite (fun _ => ?_) (fun _ => ?_) | intro _ | refine Keeps.upd rfl (fun _ => rfl) id id id id id id id ?_)

theorem State.replaceSite_keeps {ba : Bool} {z0 s : State} (site : Nat) (hk : Keeps ba z0 s) :
    Keeps ba z0 (State.replaceSite s site) := by
  unfold State.replaceSite; try dsimp only
  repeat' with_reducible (first | assumption | apply State.replaceLost_keeps | apply State.dropMoves_keeps | apply State.dress_keeps | apply State.commitRecord_keeps | apply State.setRole_keeps | refine Keeps.ite (fun _ => ?_) (fun _ => ?_) | split)

theorem State.anomSubst_keeps {ba : Bool} {z0 s : State} (hk : Keeps ba z0 s) :
    Keeps ba z0 (State.anomSubst s) := by
  unfold State.anomSubst; try dsimp only
  repeat' with_reducible (first | assumption | exact id | apply State.replaceSite_keeps | apply State.modPwr_keeps | apply State.each_keeps | intro _ | refine Keeps.upd rfl (fun _ => rfl) id id id id id id id ?_)

theorem State.afterJob_keeps {ba : Bool} {z0 s : State} (hk : Keeps ba z0 s) :
    Keeps ba z0 (State.afterJob s) := by
  unfold State.afterJob; try dsimp only
  repeat' with_reducible (first | assumption | apply State.anomSubst_keeps | apply State.migrate_keeps | refine Keeps.ite (fun _ => ?_) (fun _ => ?_))

end Sys2Proof.Machine
end

