-- ==== Sys2Proof/Laws/KeepsHostOps.lean ====
section
/-! SUPPORT. What the operations of Machine/HostOps.lean keep. -/

namespace Sys2Proof.Machine

open Sys2Proof

theorem State.beginCmd_keeps {ba : Bool} {z0 s : State} (q : Nat) (i : Nat) (phase : Nat) (hk : Keeps ba z0 s) :
    Keeps ba z0 (State.beginCmd s q i phase) := by
  unfold State.beginCmd; try dsimp only
  repeat' with_reducible (first | assumption | apply State.modStatus_keeps | refine Keeps.upd rfl (fun _ => rfl) id id id id id id id ?_)

theorem State.modCopy_keeps {ba : Bool} {z0 s : State} (q : Nat) (f : CopyRec → CopyRec) (hk : Keeps ba z0 s) :
    Keeps ba z0 (State.modCopy s q f) := by
  unfold State.modCopy; try dsimp only
  repeat' with_reducible (first | assumption | exact id | apply State.modHif_keeps | split | refine Keeps.upd rfl (fun _ => rfl) id id id id id id id ?_)

theorem State.askChunk_keeps {ba : Bool} {z0 s : State} (q : Nat) (c : CopyRec) (hk : Keeps ba z0 s) :
    Keeps ba z0 (State.askChunk s q c) := by
  unfold State.askChunk; try dsimp only
  repeat' with_reducible (first | assumption | apply State.hostXfer_keeps | apply State.askStack_keeps | refine Keeps.ite (fun _ => ?_) (fun _ => ?_))

theorem State.closeBcast_keeps {ba : Bool} {z0 s : State} (g : Nat) (hk : Keeps ba z0 s) :
    Keeps ba z0 (State.closeBcast s g) := by
  unfold State.closeBcast; try dsimp only
  repeat' with_reducible (first | assumption | apply State.modCvu_keeps | split | refine Keeps.upd rfl (fun _ => rfl) id id id id id id id ?_)

theorem State.workCvu_keeps {ba : Bool} {z0 s : State} (u : Nat) (k_0 : Nat) (hk : Keeps ba z0 s) :
    Keeps ba z0 (State.workCvu s u k_0) := by
  induction k_0 generalizing s u with
  | zero =>
    unfold State.workCvu; try dsimp only
    repeat' with_reducible (first | assumption | apply State.askChunk_keeps | apply State.modCopy_keeps | apply State.snapBegin_keeps | apply State.commitCheck_keeps | apply State.checkTrailer_keeps | apply State.modIncoming_keeps | apply State.settle_keeps | apply State.startSend_keeps | apply State.modCvu_keeps | refine Keeps.ite (fun _ => ?_) (fun _ => ?_) | split | refine Keeps.upd rfl (fun _ => rfl) id id id id id id id ?_)
  | succ n_ ih =>
    unfold State.workCvu; try dsimp only
    repeat' with_reducible (first | assumption | apply ih | apply State.askChunk_keeps | apply State.modCopy_keeps | apply State.snapBegin_keeps | apply State.commitCheck_keeps | apply State.checkTrailer_keeps | apply State.modIncoming_keeps | apply State.settle_keeps | apply State.startSend_keeps | apply State.modCvu_keeps | refine Keeps.ite (fun _ => ?_) (fun _ => ?_) | split | refine Keeps.upd rfl (fun _ => rfl) id id id id id id id ?_)

theorem State.cvuNext_keeps {ba : Bool} {z0 s : State} (u : Nat) (hk : Keeps ba z0 s) :
    Keeps ba z0 (State.cvuNext s u) := by
  unfold State.cvuNext; try dsimp only
  repeat' with_reducible (first | assumption | apply State.workCvu_keeps | apply State.modCvu_keeps)

theorem State.leaveCvu_keeps {ba : Bool} {z0 s : State} (c : CopyRec) (hk : Keeps ba z0 s) :
    Keeps ba z0 (State.leaveCvu s c) := by
  unfold State.leaveCvu; try dsimp only
  repeat' with_reducible (first | assumption | apply State.cvuNext_keeps | apply State.modCvu_keeps | refine Keeps.ite (fun _ => ?_) (fun _ => ?_) | refine Keeps.upd rfl (fun _ => rfl) id id id id id id id ?_)

theorem State.dropCopy_keeps {ba : Bool} {z0 s : State} (q : Nat) (hk : Keeps ba z0 s) :
    Keeps ba z0 (State.dropCopy s q) := by
  unfold State.dropCopy; try dsimp only
  repeat' with_reducible (first | assumption | exact id | apply State.leaveCvu_keeps | apply State.dropXfers_keeps | apply State.modHif_keeps | split | refine Keeps.upd rfl (fun _ => rfl) id id id id id id id ?_)

theorem State.endCopy_keeps {ba : Bool} {z0 s : State} (q : Nat) (code : Nat) (hk : Keeps ba z0 s) :
    Keeps ba z0 (State.endCopy s q code) := by
  unfold State.endCopy; try dsimp only
  repeat' with_reducible (first | assumption | apply State.dropCopy_keeps | apply State.finishCmd_keeps | split)

theorem State.chunkMoved_keeps {ba : Bool} {z0 s : State} (q : Nat) (n : Nat) (hk : Keeps ba z0 s) :
    Keeps ba z0 (State.chunkMoved s q n) := by
  unfold State.chunkMoved; try dsimp only
  repeat' with_reducible (first | assumption | apply State.endCopy_keeps | apply State.askChunk_keeps | apply State.modCopy_keeps | apply State.modStatus_keeps | refine Keeps.ite (fun _ => ?_) (fun _ => ?_) | split | refine Keeps.upd rfl (fun _ => rfl) id id id id id id id ?_)

theorem State.copyServed_keeps {ba : Bool} {z0 s : State} (q : Nat) (code : Nat) (bytes : List (BitVec 8)) (bad : List Bool) (hk : Keeps ba z0 s) :
    Keeps ba z0 (State.copyServed s q code bytes bad) := by
  unfold State.copyServed; try dsimp only
  repeat' with_reducible (first | assumption | apply State.chunkMoved_keeps | apply State.endCopy_keeps | apply State.modCopy_keeps | apply State.hostXfer_keeps | refine Keeps.ite (fun _ => ?_) (fun _ => ?_) | split | refine Keeps.upd rfl (fun _ => rfl) id id id id id id id ?_)

theorem State.resultStep_keeps {ba : Bool} {z0 s : State} (hk : Keeps ba z0 s) :
    Keeps ba z0 (State.resultStep s) := by
  unfold State.resultStep; try dsimp only
  repeat' with_reducible (first | assumption | apply State.askStack_keeps | refine Keeps.ite (fun _ => ?_) (fun _ => ?_) | split | refine Keeps.upd rfl (fun _ => rfl) id id id id id id id ?_)

theorem State.resultGo_keeps {ba : Bool} {z0 s : State} (k_0 : Nat) (hk : Keeps ba z0 s) :
    Keeps ba z0 (State.resultGo s k_0) := by
  induction k_0 generalizing s with
  | zero =>
    unfold State.resultGo; try dsimp only
    repeat' with_reducible (first | assumption | apply State.resultStep_keeps | refine Keeps.ite (fun _ => ?_) (fun _ => ?_) | split)
  | succ n_ ih =>
    unfold State.resultGo; try dsimp only
    repeat' with_reducible (first | assumption | apply ih | apply State.resultStep_keeps | refine Keeps.ite (fun _ => ?_) (fun _ => ?_) | split)

theorem State.resultServed_keeps {ba : Bool} {z0 s : State} (code : Nat) (bytes : List (BitVec 8)) (bad : List Bool) (hk : Keeps ba z0 s) :
    Keeps ba z0 (State.resultServed s code bytes bad) := by
  unfold State.resultServed; try dsimp only
  repeat' with_reducible (first | assumption | apply State.hostXfer_keeps | apply State.endJob_keeps | refine Keeps.ite (fun _ => ?_) (fun _ => ?_) | split | refine Keeps.upd rfl (fun _ => rfl) id id id id id id id ?_)

theorem State.modBox_keeps {ba : Bool} {z0 s : State} (m : Nat) (f : MbxRec → MbxRec) (hk : Keeps ba z0 s) :
    Keeps ba z0 (State.modBox s m f) := by
  unfold State.modBox; try dsimp only
  repeat' with_reducible (first | assumption | exact id | apply State.modHif_keeps | refine Keeps.upd rfl (fun _ => rfl) id id id id id id id ?_)

theorem State.ackBox_keeps {ba : Bool} {z0 s : State} (m : Nat) (rcode : Nat) (hk : Keeps ba z0 s) :
    Keeps ba z0 (State.ackBox s m rcode) := by
  unfold State.ackBox; try dsimp only
  repeat' with_reducible (first | assumption | apply State.modBox_keeps | refine Keeps.upd rfl (fun _ => rfl) id id id id id id id ?_)

theorem State.replyBox_keeps {ba : Bool} {z0 s : State} (m : Nat) (words : List Nat) (hk : Keeps ba z0 s) :
    Keeps ba z0 (State.replyBox s m words) := by
  unfold State.replyBox; try dsimp only
  repeat' with_reducible (first | assumption | apply State.ackBox_keeps | apply State.modBox_keeps | refine Keeps.upd rfl (fun _ => rfl) id id id id id id id ?_)

theorem State.lockRead_keeps {ba : Bool} {z0 s : State} (m : Nat) (agent : Nat) (hk : Keeps ba z0 s) :
    Keeps ba z0 (State.lockRead s m agent).1 := by
  unfold State.lockRead; try dsimp only
  repeat' with_reducible (first | assumption | exact id | apply State.modBox_keeps | refine Keeps.ite (fun _ => ?_) (fun _ => ?_) | split | exact Memory.writeBytes_wf _ _ | exact Memory.clear_wf _ _ | intro _ | refine Keeps.upd rfl (fun _ => rfl) id id id id id id id ?_)

theorem State.freeBox_keeps {ba : Bool} {z0 s : State} (m : Nat) (hk : Keeps ba z0 s) :
    Keeps ba z0 (State.freeBox s m) := by
  unfold State.freeBox; try dsimp only
  repeat' with_reducible (first | assumption | apply State.modBox_keeps | apply State.dropXfers_keeps | refine Keeps.upd rfl (fun _ => rfl) id id id id id id id ?_)

theorem State.lockWrite_keeps {ba : Bool} {z0 s : State} (m : Nat) (agent : Nat) (value : Nat) (hk : Keeps ba z0 s) :
    Keeps ba z0 (State.lockWrite s m agent value) := by
  unfold State.lockWrite; try dsimp only
  repeat' with_reducible (first | assumption | apply State.freeBox_keeps | refine Keeps.ite (fun _ => ?_) (fun _ => ?_))

theorem State.dbWrite_keeps {ba : Bool} {z0 s : State} (m : Nat) (agent : Nat) (service : Nat) (hk : Keeps ba z0 s) :
    Keeps ba z0 (State.dbWrite s m agent service) := by
  unfold State.dbWrite; try dsimp only
  repeat' with_reducible (first | assumption | exact id | apply State.ackBox_keeps | apply State.modBox_keeps | apply State.modHif_keeps | apply State.raise_keeps | refine Keeps.ite (fun _ => ?_) (fun _ => ?_) | split | refine Keeps.upd rfl (fun _ => rfl) id id id id id id id ?_)

theorem State.ackWrite_keeps {ba : Bool} {z0 s : State} (m : Nat) (agent : Nat) (rcode : Nat) (hk : Keeps ba z0 s) :
    Keeps ba z0 (State.ackWrite s m agent rcode) := by
  unfold State.ackWrite; try dsimp only
  repeat' with_reducible (first | assumption | apply State.ackBox_keeps | refine Keeps.ite (fun _ => ?_) (fun _ => ?_))

theorem State.dataWrite_keeps {ba : Bool} {z0 s : State} (m : Nat) (agent : Nat) (w : Nat) (v : BitVec 32) (hk : Keeps ba z0 s) :
    Keeps ba z0 (State.dataWrite s m agent w v) := by
  unfold State.dataWrite; try dsimp only
  repeat' with_reducible (first | assumption | apply State.modBox_keeps | refine Keeps.ite (fun _ => ?_) (fun _ => ?_) | refine Keeps.upd rfl (fun _ => rfl) id id id id id id id ?_)

end Sys2Proof.Machine
end

