-- ==== Sys2Proof/Laws/KeepsSecure.lean ====
section
/-! SUPPORT. What the operations of Machine/Secure.lean keep. -/

namespace Sys2Proof.Machine

open Sys2Proof

theorem State.modSec_keeps {ba : Bool} {z0 s : State} (f : Sec → Sec) (hk : Keeps ba z0 s) :
    Keeps ba z0 (State.modSec s f) := by
  unfold State.modSec; try dsimp only
  repeat' with_reducible (first | assumption | refine Keeps.upd rfl (fun _ => rfl) id id id id id id id ?_)

theorem State.mbxWrite_keeps {ba : Bool} {z0 s : State} (m : Nat) (addr : Nat) (bytes : List (BitVec 8)) (k_0 : Nat) (hk : Keeps ba z0 s) :
    Keeps ba z0 (State.mbxWrite s m addr bytes k_0) := by
  induction k_0 generalizing s m addr bytes with
  | zero =>
    unfold State.mbxWrite; try dsimp only
    repeat' with_reducible (first | assumption | apply State.hostXfer_keeps | refine Keeps.ite (fun _ => ?_) (fun _ => ?_) | split)
  | succ n_ ih =>
    unfold State.mbxWrite; try dsimp only
    repeat' with_reducible (first | assumption | apply ih | apply State.hostXfer_keeps | refine Keeps.ite (fun _ => ?_) (fun _ => ?_) | split)

theorem State.deliver_keeps {ba : Bool} {z0 s : State} (m : Nat) (words : List Nat) (addr : Nat) (bytes : List (BitVec 8)) (hk : Keeps ba z0 s) :
    Keeps ba z0 (State.deliver s m words addr bytes) := by
  unfold State.deliver; try dsimp only
  repeat' with_reducible (first | assumption | apply State.mbxWrite_keeps | apply State.modBox_keeps | refine Keeps.upd rfl (fun _ => rfl) id id id id id id id ?_)

theorem execIdent_keeps {ba : Bool} {z0 s : State} (m : Mbx) (hk : Keeps ba z0 s) :
    OKeeps ba z0 (execIdent m s) := by
  unfold execIdent; try dsimp only
  repeat' with_reducible (first | assumption | apply State.deliver_keeps | apply State.ackBox_keeps | apply OKeeps.next | refine Keeps.ite (fun _ => ?_) (fun _ => ?_) | refine OKeeps.ite (fun _ => ?_) (fun _ => ?_))

theorem execAttest_keeps {ba : Bool} {z0 s : State} (m : Mbx) (hk : Keeps ba z0 s) :
    OKeeps ba z0 (execAttest m s) := by
  unfold execAttest; try dsimp only
  repeat' with_reducible (first | assumption | apply State.deliver_keeps | apply State.ackBox_keeps | apply OKeeps.next | refine Keeps.ite (fun _ => ?_) (fun _ => ?_) | refine OKeeps.ite (fun _ => ?_) (fun _ => ?_))

theorem execFwUpdate_keeps {ba : Bool} {z0 s : State} (m : Mbx) (header : Option (List (BitVec 8))) (whole : Bool) (digest : List (BitVec 8)) (keyOk : Bool) (sigOk : Bool) (hk : Keeps ba z0 s) :
    OKeeps ba z0 (execFwUpdate m header whole digest keyOk sigOk s) := by
  unfold execFwUpdate; try dsimp only
  repeat' with_reducible (first | assumption | apply State.modSec_keeps | apply State.ackBox_keeps | apply OKeeps.next | refine Keeps.ite (fun _ => ?_) (fun _ => ?_) | refine OKeeps.ite (fun _ => ?_) (fun _ => ?_) | split | refine Keeps.upd rfl (fun _ => rfl) id id id id id id id ?_)

theorem execExtLoad_keeps {ba : Bool} {z0 s : State} (m : Mbx) (header : Option (List (BitVec 8))) (whole : Bool) (digest : List (BitVec 8)) (keyOk : Bool) (sigOk : Bool) (hk : Keeps ba z0 s) :
    OKeeps ba z0 (execExtLoad m header whole digest keyOk sigOk s) := by
  unfold execExtLoad; try dsimp only
  repeat' with_reducible (first | assumption | apply State.modSec_keeps | apply State.ackBox_keeps | apply OKeeps.next | refine Keeps.ite (fun _ => ?_) (fun _ => ?_) | refine OKeeps.ite (fun _ => ?_) (fun _ => ?_) | split | refine Keeps.upd rfl (fun _ => rfl) id id id id id id id ?_)

theorem execExtUnload_keeps {ba : Bool} {z0 s : State} (m : Mbx) (hk : Keeps ba z0 s) :
    OKeeps ba z0 (execExtUnload m s) := by
  unfold execExtUnload; try dsimp only
  repeat' with_reducible (first | assumption | apply State.modSec_keeps | apply State.ackBox_keeps | apply OKeeps.next | refine Keeps.ite (fun _ => ?_) (fun _ => ?_) | refine OKeeps.ite (fun _ => ?_) (fun _ => ?_) | refine Keeps.upd rfl (fun _ => rfl) id id id id id id id ?_)

theorem execOwnerEnroll_keeps {ba : Bool} {z0 s : State} (m : Mbx) (hk : Keeps ba z0 s) :
    OKeeps ba z0 (execOwnerEnroll m s) := by
  unfold execOwnerEnroll; try dsimp only
  repeat' with_reducible (first | assumption | apply State.modSec_keeps | apply State.ackBox_keeps | apply OKeeps.next | refine Keeps.ite (fun _ => ?_) (fun _ => ?_) | refine OKeeps.ite (fun _ => ?_) (fun _ => ?_) | refine Keeps.upd rfl (fun _ => rfl) id id id id id id id ?_)

theorem execExtFault_keeps {ba : Bool} {z0 s : State} (slot : Fin 4) (hk : Keeps ba z0 s) :
    OKeeps ba z0 (execExtFault slot s) := by
  unfold execExtFault; try dsimp only
  repeat' with_reducible (first | assumption | apply State.modSec_keeps | apply State.raise_keeps | apply OKeeps.next | refine Keeps.ite (fun _ => ?_) (fun _ => ?_) | refine OKeeps.ite (fun _ => ?_) (fun _ => ?_) | split | refine Keeps.upd rfl (fun _ => rfl) id id id id id id id ?_)

theorem execDebugChallenge_keeps {ba : Bool} {z0 s : State} (m : Mbx) (hk : Keeps ba z0 s) :
    OKeeps ba z0 (execDebugChallenge m s) := by
  unfold execDebugChallenge; try dsimp only
  repeat' with_reducible (first | assumption | apply State.modSec_keeps | apply State.replyBox_keeps | apply State.ackBox_keeps | apply OKeeps.next | refine Keeps.ite (fun _ => ?_) (fun _ => ?_) | refine OKeeps.ite (fun _ => ?_) (fun _ => ?_) | refine Keeps.upd rfl (fun _ => rfl) id id id id id id id ?_)

theorem State.unlock_keeps {ba : Bool} {z0 s : State} (scan : Bool) (hk : Keeps ba z0 s) :
    Keeps ba z0 (State.unlock s scan) := by
  unfold State.unlock; try dsimp only
  repeat' with_reducible (first | assumption | apply State.modSec_keeps | apply State.modPanel_keeps | split | refine Keeps.upd rfl (fun _ => rfl) id id id id id id id ?_)

theorem execDebugUnlock_keeps {ba : Bool} {z0 s : State} (m : Mbx) (token : Option (List (BitVec 8))) (keyOk : Bool) (sigOk : Bool) (hk : Keeps ba z0 s) :
    OKeeps ba z0 (execDebugUnlock m token keyOk sigOk s) := by
  unfold execDebugUnlock; try dsimp only
  repeat' with_reducible (first | assumption | apply State.unlock_keeps | apply State.ackBox_keeps | apply State.ready_keeps | apply OKeeps.next | refine Keeps.ite (fun _ => ?_) (fun _ => ?_) | refine OKeeps.ite (fun _ => ?_) (fun _ => ?_) | split)

end Sys2Proof.Machine
end

