-- ==== Sys2Proof/Laws/KeepsBootOps.lean ====
section
/-! SUPPORT. What the operations of Machine/BootOps.lean keep. -/

namespace Sys2Proof.Machine

open Sys2Proof

theorem State.modBoot_keeps {ba : Bool} {z0 s : State} (f : Boot → Boot) (hk : Keeps ba z0 s) :
    Keeps ba z0 (State.modBoot s f) := by
  unfold State.modBoot; try dsimp only
  repeat' with_reducible (first | assumption | refine Keeps.upd rfl (fun _ => rfl) id id id id id id id ?_)

theorem State.bistFail_keeps {ba : Bool} {z0 s : State} (site : Nat) (kind : Nat) (core : Nat) (bank : Nat) (word : Nat) (bit : Nat) (hk : Keeps ba z0 s) :
    Keeps ba z0 (State.bistFail s site kind core bank word bit) := by
  unfold State.bistFail; try dsimp only
  repeat' with_reducible (first | assumption | apply State.modBoot_keeps | refine Keeps.upd rfl (fun _ => rfl) id id id id id id id ?_)

theorem State.retireSite_keeps {ba : Bool} {z0 s : State} (site : Nat) (routerLost : Bool) (hk : Keeps ba z0 s) :
    Keeps ba z0 (State.retireSite s site routerLost) := by
  unfold State.retireSite; try dsimp only
  repeat' with_reducible (first | assumption | apply State.dropMoves_keeps | apply State.dieMode_keeps | apply State.setRole_keeps | apply State.modPanel_keeps | refine Keeps.ite (fun _ => ?_) (fun _ => ?_) | refine Keeps.upd rfl (fun _ => rfl) id id id id id id id ?_)

theorem State.coreFaulty_keeps {ba : Bool} {z0 s : State} (site : Nat) (k : Nat) (hk : Keeps ba z0 s) :
    Keeps ba z0 (State.coreFaulty s site k) := by
  unfold State.coreFaulty; try dsimp only
  repeat' with_reducible (first | assumption | apply State.retireSite_keeps | apply State.pinRow_keeps | refine Keeps.ite (fun _ => ?_) (fun _ => ?_) | split)

theorem State.linkDead_keeps {ba : Bool} {z0 s : State} (site : Nat) (dir : Nat) (hk : Keeps ba z0 s) :
    Keeps ba z0 (State.linkDead s site dir) := by
  unfold State.linkDead; try dsimp only
  repeat' with_reducible (first | assumption | apply State.retireSite_keeps | refine Keeps.ite (fun _ => ?_) (fun _ => ?_) | split)

theorem State.bistRegion_keeps {ba : Bool} {z0 s : State} (n : Nat) (region : Nat) (hk : Keeps ba z0 s) :
    Keeps ba z0 (State.bistRegion s n region) := by
  unfold State.bistRegion; try dsimp only
  repeat' with_reducible (first | assumption | apply State.modBoot_keeps | apply State.retireRegion_keeps | apply State.modStack_keeps | refine Keeps.ite (fun _ => ?_) (fun _ => ?_) | split | refine Keeps.upd rfl (fun _ => rfl) id id id id id id id ?_)

theorem State.bistNote_keeps {ba : Bool} {z0 s : State} (f : BistFailure) (hk : Keeps ba z0 s) :
    Keeps ba z0 (State.bistNote s f) := by
  unfold State.bistNote; try dsimp only
  repeat' with_reducible (first | assumption | apply State.bistFail_keeps | apply State.modBoot_keeps | refine Keeps.ite (fun _ => ?_) (fun _ => ?_) | split | refine Keeps.upd rfl (fun _ => rfl) id id id id id id id ?_)

theorem State.siteFaulty_keeps {ba : Bool} {z0 s : State} (site : Nat) (hk : Keeps ba z0 s) :
    Keeps ba z0 (State.siteFaulty s site) := by
  unfold State.siteFaulty; try dsimp only
  repeat' with_reducible (first | assumption | apply State.retireSite_keeps | apply State.gatewayGone_keeps | split)

theorem State.serdesFaulty_keeps {ba : Bool} {z0 s : State} (link : Nat) (lanes : BitVec 8) (hk : Keeps ba z0 s) :
    Keeps ba z0 (State.serdesFaulty s link lanes) := by
  unfold State.serdesFaulty; try dsimp only
  repeat' with_reducible (first | assumption | apply State.takeDown_keeps | apply State.modPort_keeps | refine Keeps.ite (fun _ => ?_) (fun _ => ?_) | refine Keeps.upd rfl (fun _ => rfl) id id id id id id id ?_)

theorem State.bistFix_keeps {ba : Bool} {z0 s : State} (f : BistFailure) (hk : Keeps ba z0 s) :
    Keeps ba z0 (State.bistFix s f) := by
  unfold State.bistFix; try dsimp only
  repeat' with_reducible (first | assumption | apply State.serdesFaulty_keeps | apply State.siteFaulty_keeps | apply State.bistNote_keeps | apply State.bistRegion_keeps | apply State.linkDead_keeps | apply State.coreFaulty_keeps | apply State.loseStack_keeps | refine Keeps.ite (fun _ => ?_) (fun _ => ?_) | split)

theorem State.bistRan_keeps {ba : Bool} {z0 s : State} (sel : Nat) (sites : List Nat) (plos : List Nat) (hk : Keeps ba z0 s) :
    Keeps ba z0 (State.bistRan s sel sites plos) := by
  unfold State.bistRan; try dsimp only
  repeat' with_reducible (first | assumption | apply State.modBoot_keeps | apply foldl_keeps | intro _ | refine Keeps.upd rfl (fun _ => rfl) id id id id id id id ?_)

theorem State.advanceFuses_keeps {ba : Bool} {z0 s : State} (i : FwImage) (hk : Keeps ba z0 s) :
    Keeps ba z0 (State.advanceFuses s i) := by
  unfold State.advanceFuses; try dsimp only
  repeat' with_reducible (first | assumption | apply State.modSec_keeps | apply State.raise_keeps | apply State.each_keeps | refine Keeps.ite (fun _ => ?_) (fun _ => ?_) | split | intro _ | refine Keeps.upd rfl (fun _ => rfl) id id id id id id id ?_)

end Sys2Proof.Machine
end

