-- ==== Sys2Proof/Laws/KeepsCons.lean ====
section
/-! SUPPORT. What the operations of Machine/Cons.lean keep. -/

namespace Sys2Proof.Machine

open Sys2Proof

theorem State.stewardLost_keeps {ba : Bool} {z0 s : State} (agent : Nat) (hk : Keeps ba z0 s) :
    Keeps ba z0 (State.stewardLost s agent) := by
  unfold State.stewardLost; try dsimp only
  repeat' with_reducible (first | assumption | apply State.gatewayServicesOut_keeps | apply State.panelFails_keeps | apply State.modWdt_keeps | apply State.failDie_keeps | apply State.loseStack_keeps | refine Keeps.ite (fun _ => ?_) (fun _ => ?_) | refine Keeps.upd rfl (fun _ => rfl) id id id id id id id ?_)

theorem execStewardWdt_keeps {ba : Bool} {z0 s : State} (agent : Nat) (hk : Keeps ba z0 s) :
    OKeeps ba z0 (execStewardWdt agent s) := by
  unfold execStewardWdt; try dsimp only
  repeat' with_reducible (first | assumption | apply State.stewardLost_keeps | apply State.panelFails_keeps | apply State.modWdt_keeps | apply State.raise_keeps | apply OKeeps.next | refine Keeps.ite (fun _ => ?_) (fun _ => ?_) | refine OKeeps.ite (fun _ => ?_) (fun _ => ?_) | split | refine Keeps.upd rfl (fun _ => rfl) id id id id id id id ?_)

theorem execPanelStewardSilence_keeps {ba : Bool} {z0 s : State} (hk : Keeps ba z0 s) :
    OKeeps ba z0 (execPanelStewardSilence s) := by
  unfold execPanelStewardSilence; try dsimp only
  repeat' with_reducible (first | assumption | apply State.modCons_keeps | apply State.advance_keeps | apply OKeeps.next | refine Keeps.ite (fun _ => ?_) (fun _ => ?_) | refine OKeeps.ite (fun _ => ?_) (fun _ => ?_) | refine Keeps.upd rfl (fun _ => rfl) id id id id id id id ?_)

theorem State.learn_keeps {ba : Bool} {z0 s : State} (hk : Keeps ba z0 s) :
    Keeps ba z0 (State.learn s) := by
  unfold State.learn; try dsimp only
  repeat' with_reducible (first | assumption | apply State.modCons_keeps | refine Keeps.ite (fun _ => ?_) (fun _ => ?_) | refine Keeps.upd rfl (fun _ => rfl) id id id id id id id ?_)

theorem State.takeState_keeps {ba : Bool} {z0 s : State} (rx : Nat) (sub : Nat) (hk : Keeps ba z0 s) :
    Keeps ba z0 (State.takeState s rx sub).1 := by
  unfold State.takeState; try dsimp only
  repeat' with_reducible (first | assumption | refine State.arrivalDrop_keeps (by assumption) ?_ | apply State.dropRx_keeps | refine Keeps.ite (fun _ => ?_) (fun _ => ?_) | split)

theorem State.fenceSelf_keeps {ba : Bool} {z0 s : State} (hk : Keeps ba z0 s) :
    Keeps ba z0 (State.fenceSelf s) := by
  unfold State.fenceSelf; try dsimp only
  repeat' with_reducible (first | assumption | apply State.reportEnd_keeps | apply State.finishJob_keeps | apply State.raise_keeps | refine Keeps.upd rfl (fun _ => rfl) id id id id id id id ?_)

theorem State.rewindTo_keeps {ba : Bool} {z0 s : State} (step : Nat) (hk : Keeps ba z0 s) :
    Keeps ba z0 (State.rewindTo s step) := by
  unfold State.rewindTo; try dsimp only
  repeat' with_reducible (first | assumption | apply State.haltJob_keeps | apply State.cutSnapshot_keeps | apply State.modStatus_keeps | refine Keeps.ite (fun _ => ?_) (fun _ => ?_) | refine Keeps.upd rfl (fun _ => rfl) id id id id id id id ?_)

theorem State.settleShadow_keeps {ba : Bool} {z0 s : State} (step : Nat) (hk : Keeps ba z0 s) :
    Keeps ba z0 (State.settleShadow s step) := by
  unfold State.settleShadow; try dsimp only
  repeat' with_reducible (first | assumption | apply State.applyShadow_keeps | apply State.modCons_keeps | refine Keeps.upd rfl (fun _ => rfl) id id id id id id id ?_)

theorem State.adopt_keeps {ba : Bool} {z0 s : State} (view : Nat) (cause : Nat) (step : Nat) (ranks : List Nat) (join : Option (Nat × Nat)) (hk : Keeps ba z0 s) :
    Keeps ba z0 (State.adopt s view cause step ranks join) := by
  unfold State.adopt; try dsimp only
  repeat' with_reducible (first | assumption | apply State.settleShadow_keeps | apply State.rewindTo_keeps | apply State.learn_keeps | apply State.gstepCheck_keeps | apply State.paceCheck_keeps | apply State.reportEnd_keeps | apply State.endJob_keeps | apply State.raise_keeps | refine Keeps.ite (fun _ => ?_) (fun _ => ?_) | split | refine Keeps.upd rfl (fun _ => rfl) id id id id id id id ?_)

theorem State.majority_keeps {ba : Bool} {z0 s : State} (hk : Keeps ba z0 s) :
    Keeps ba z0 (State.majority s) := by
  unfold State.majority; try dsimp only
  repeat' with_reducible (first | assumption | apply State.adopt_keeps | apply State.tellAll_keeps | refine Keeps.ite (fun _ => ?_) (fun _ => ?_) | split)

theorem State.startChange_keeps {ba : Bool} {z0 s : State} (cause : Nat) (ranks : List Nat) (join : Option (Nat × Nat)) (hk : Keeps ba z0 s) :
    Keeps ba z0 (State.startChange s cause ranks join) := by
  unfold State.startChange; try dsimp only
  repeat' with_reducible (first | assumption | apply State.majority_keeps | apply State.tellAll_keeps | apply State.modCons_keeps | refine Keeps.upd rfl (fun _ => rfl) id id id id id id id ?_)

theorem State.trigger_keeps {ba : Bool} {z0 s : State} (cause : Nat) (ranks : List Nat) (join : Option (Nat × Nat)) (hk : Keeps ba z0 s) :
    Keeps ba z0 (State.trigger s cause ranks join) := by
  unfold State.trigger; try dsimp only
  repeat' with_reducible (first | assumption | apply State.startChange_keeps | apply State.modCons_keeps | refine Keeps.ite (fun _ => ?_) (fun _ => ?_) | split | refine Keeps.upd rfl (fun _ => rfl) id id id id id id id ?_)

theorem State.nextChange_keeps {ba : Bool} {z0 s : State} (hk : Keeps ba z0 s) :
    Keeps ba z0 (State.nextChange s) := by
  unfold State.nextChange; try dsimp only
  repeat' with_reducible (first | assumption | apply State.startChange_keeps | apply State.modCons_keeps | refine Keeps.ite (fun _ => ?_) (fun _ => ?_) | split | refine Keeps.upd rfl (fun _ => rfl) id id id id id id id ?_)

theorem State.triggerIn_keeps {ba : Bool} {z0 s : State} (cause : Nat) (ranks : List Nat) (join : Option (Nat × Nat)) (hk : Keeps ba z0 s) :
    Keeps ba z0 (State.triggerIn s cause ranks join) := by
  unfold State.triggerIn; try dsimp only
  repeat' with_reducible (first | assumption | apply State.trigger_keeps | refine Keeps.ite (fun _ => ?_) (fun _ => ?_))

theorem State.beaconTo_keeps {ba : Bool} {z0 s : State} (r : Nat) (hk : Keeps ba z0 s) :
    Keeps ba z0 (State.beaconTo s r) := by
  unfold State.beaconTo; try dsimp only
  repeat' with_reducible (first | assumption | apply State.sendPacket_keeps)

theorem execBeaconPeriod_keeps {ba : Bool} {z0 s : State} (hk : Keeps ba z0 s) :
    OKeeps ba z0 (execBeaconPeriod s) := by
  unfold execBeaconPeriod; try dsimp only
  repeat' with_reducible (first | assumption | apply State.beaconTo_keeps | apply State.learn_keeps | apply State.gstepCheck_keeps | apply State.paceCheck_keeps | apply State.modCons_keeps | apply State.each_keeps | apply OKeeps.next | refine Keeps.ite (fun _ => ?_) (fun _ => ?_) | refine OKeeps.ite (fun _ => ?_) (fun _ => ?_) | split | intro _ | refine Keeps.upd rfl (fun _ => rfl) id id id id id id id ?_)

theorem execBeacon_keeps {ba : Bool} {z0 s : State} (rx : Nat) (hk : Keeps ba z0 s) :
    OKeeps ba z0 (execBeacon rx s) := by
  unfold execBeacon; try dsimp only
  repeat' with_reducible (first | assumption | refine State.arrivalDrop_keeps (by assumption) ?_ | apply State.learn_keeps | apply State.gstepCheck_keeps | apply State.paceCheck_keeps | apply State.modCons_keeps | apply State.dropRx_keeps | apply OKeeps.next | refine Keeps.ite (fun _ => ?_) (fun _ => ?_) | refine OKeeps.ite (fun _ => ?_) (fun _ => ?_) | split | refine Keeps.upd rfl (fun _ => rfl) id id id id id id id ?_)

theorem State.countSuspect_keeps {ba : Bool} {z0 s : State} (hk : Keeps ba z0 s) :
    Keeps ba z0 (State.countSuspect s) := by
  unfold State.countSuspect; try dsimp only
  repeat' with_reducible (first | assumption | apply State.modCons_keeps | apply State.cntOvf_keeps | refine Keeps.upd rfl (fun _ => rfl) id id id id id id id ?_)

theorem State.sendSuspect_keeps {ba : Bool} {z0 s : State} (rank : Nat) (to_ : Option Nat) (hk : Keeps ba z0 s) :
    Keeps ba z0 (State.sendSuspect s rank to_) := by
  unfold State.sendSuspect; try dsimp only
  repeat' with_reducible (first | assumption | apply State.countSuspect_keeps | apply State.sendState_keeps | split)

theorem execBeaconSilence_keeps {ba : Bool} {z0 s : State} (rank : Nat) (hk : Keeps ba z0 s) :
    OKeeps ba z0 (execBeaconSilence rank s) := by
  unfold execBeaconSilence; try dsimp only
  repeat' with_reducible (first | assumption | apply State.sendSuspect_keeps | apply State.modCons_keeps | apply State.advance_keeps | apply OKeeps.next | refine Keeps.ite (fun _ => ?_) (fun _ => ?_) | refine OKeeps.ite (fun _ => ?_) (fun _ => ?_) | split | refine Keeps.upd rfl (fun _ => rfl) id id id id id id id ?_)

theorem execSuspect_keeps {ba : Bool} {z0 s : State} (rx : Nat) (hk : Keeps ba z0 s) :
    OKeeps ba z0 (execSuspect rx s) := by
  unfold execSuspect; try dsimp only
  repeat' with_reducible (first | assumption | apply State.triggerIn_keeps | apply State.takeState_keeps | apply OKeeps.next | refine Keeps.ite (fun _ => ?_) (fun _ => ?_) | refine OKeeps.ite (fun _ => ?_) (fun _ => ?_) | split)

theorem execPropose_keeps {ba : Bool} {z0 s : State} (rx : Nat) (hk : Keeps ba z0 s) :
    OKeeps ba z0 (execPropose rx s) := by
  unfold execPropose; try dsimp only
  repeat' with_reducible (first | assumption | apply State.takeState_keeps | apply State.sendState_keeps | apply OKeeps.next | refine Keeps.ite (fun _ => ?_) (fun _ => ?_) | refine OKeeps.ite (fun _ => ?_) (fun _ => ?_) | split | refine Keeps.upd rfl (fun _ => rfl) id id id id id id id ?_)

theorem execAck_keeps {ba : Bool} {z0 s : State} (rx : Nat) (hk : Keeps ba z0 s) :
    OKeeps ba z0 (execAck rx s) := by
  unfold execAck; try dsimp only
  repeat' with_reducible (first | assumption | apply State.nextChange_keeps | apply State.majority_keeps | apply State.takeState_keeps | apply State.modCons_keeps | apply OKeeps.next | refine Keeps.ite (fun _ => ?_) (fun _ => ?_) | refine OKeeps.ite (fun _ => ?_) (fun _ => ?_) | split | refine Keeps.upd rfl (fun _ => rfl) id id id id id id id ?_)

theorem execCommit_keeps {ba : Bool} {z0 s : State} (rx : Nat) (hk : Keeps ba z0 s) :
    OKeeps ba z0 (execCommit rx s) := by
  unfold execCommit; try dsimp only
  repeat' with_reducible (first | assumption | apply State.nextChange_keeps | apply State.adopt_keeps | apply State.takeState_keeps | apply OKeeps.next | refine Keeps.ite (fun _ => ?_) (fun _ => ?_) | refine OKeeps.ite (fun _ => ?_) (fun _ => ?_) | split)

theorem execFenced_keeps {ba : Bool} {z0 s : State} (rx : Nat) (hk : Keeps ba z0 s) :
    OKeeps ba z0 (execFenced rx s) := by
  unfold execFenced; try dsimp only
  repeat' with_reducible (first | assumption | apply State.fenceSelf_keeps | apply State.takeState_keeps | apply OKeeps.next | refine Keeps.ite (fun _ => ?_) (fun _ => ?_) | refine OKeeps.ite (fun _ => ?_) (fun _ => ?_) | split)

theorem execJoin_keeps {ba : Bool} {z0 s : State} (rx : Nat) (hk : Keeps ba z0 s) :
    OKeeps ba z0 (execJoin rx s) := by
  unfold execJoin; try dsimp only
  repeat' with_reducible (first | assumption | apply State.triggerIn_keeps | apply State.takeState_keeps | apply OKeeps.next | refine Keeps.ite (fun _ => ?_) (fun _ => ?_) | refine OKeeps.ite (fun _ => ?_) (fun _ => ?_) | split)

theorem execLeave_keeps {ba : Bool} {z0 s : State} (rx : Nat) (hk : Keeps ba z0 s) :
    OKeeps ba z0 (execLeave rx s) := by
  unfold execLeave; try dsimp only
  repeat' with_reducible (first | assumption | apply State.triggerIn_keeps | apply State.takeState_keeps | apply OKeeps.next | refine Keeps.ite (fun _ => ?_) (fun _ => ?_) | refine OKeeps.ite (fun _ => ?_) (fun _ => ?_) | split)

theorem execRewind_keeps {ba : Bool} {z0 s : State} (rx : Nat) (hk : Keeps ba z0 s) :
    OKeeps ba z0 (execRewind rx s) := by
  unfold execRewind; try dsimp only
  repeat' with_reducible (first | assumption | apply State.triggerIn_keeps | apply State.takeState_keeps | apply OKeeps.next | split)

theorem execGstep_keeps {ba : Bool} {z0 s : State} (rx : Nat) (hk : Keeps ba z0 s) :
    OKeeps ba z0 (execGstep rx s) := by
  unfold execGstep; try dsimp only
  repeat' with_reducible (first | assumption | apply State.takeState_keeps | apply State.applyShadow_keeps | apply State.modCons_keeps | apply OKeeps.next | refine Keeps.ite (fun _ => ?_) (fun _ => ?_) | refine OKeeps.ite (fun _ => ?_) (fun _ => ?_) | split | refine Keeps.upd rfl (fun _ => rfl) id id id id id id id ?_)

theorem execStepLog_keeps {ba : Bool} {z0 s : State} (rx : Nat) (hk : Keeps ba z0 s) :
    OKeeps ba z0 (execStepLog rx s) := by
  unfold execStepLog; try dsimp only
  repeat' with_reducible (first | assumption | apply State.takeState_keeps | apply State.recount_keeps | apply State.modCons_keeps | apply OKeeps.next | refine Keeps.ite (fun _ => ?_) (fun _ => ?_) | refine OKeeps.ite (fun _ => ?_) (fun _ => ?_) | split | refine Keeps.upd rfl (fun _ => rfl) id id id id id id id ?_)

theorem execApply_keeps {ba : Bool} {z0 s : State} (rx : Nat) (hk : Keeps ba z0 s) :
    OKeeps ba z0 (execApply rx s) := by
  unfold execApply; try dsimp only
  repeat' with_reducible (first | assumption | apply State.takeState_keeps | apply State.modCons_keeps | apply OKeeps.next | refine Keeps.ite (fun _ => ?_) (fun _ => ?_) | refine OKeeps.ite (fun _ => ?_) (fun _ => ?_) | split | refine Keeps.upd rfl (fun _ => rfl) id id id id id id id ?_)

theorem execProposeTimeout_keeps {ba : Bool} {z0 s : State} (hk : Keeps ba z0 s) :
    OKeeps ba z0 (execProposeTimeout s) := by
  unfold execProposeTimeout; try dsimp only
  repeat' with_reducible (first | assumption | apply State.fenceSelf_keeps | apply State.advance_keeps | apply OKeeps.next | split)

theorem execSuspectRetry_keeps {ba : Bool} {z0 s : State} (hk : Keeps ba z0 s) :
    OKeeps ba z0 (execSuspectRetry s) := by
  unfold execSuspectRetry; try dsimp only
  repeat' with_reducible (first | assumption | apply State.sendSuspect_keeps | apply State.advance_keeps | apply OKeeps.next | split)

theorem execSuspectTimeout_keeps {ba : Bool} {z0 s : State} (hk : Keeps ba z0 s) :
    OKeeps ba z0 (execSuspectTimeout s) := by
  unfold execSuspectTimeout; try dsimp only
  repeat' with_reducible (first | assumption | apply State.fenceSelf_keeps | apply State.advance_keeps | apply OKeeps.next | refine Keeps.ite (fun _ => ?_) (fun _ => ?_) | refine OKeeps.ite (fun _ => ?_) (fun _ => ?_))

theorem execStragglerCheck_keeps {ba : Bool} {z0 s : State} (rank : Nat) (hk : Keeps ba z0 s) :
    OKeeps ba z0 (execStragglerCheck rank s) := by
  unfold execStragglerCheck; try dsimp only
  repeat' with_reducible (first | assumption | apply State.trigger_keeps | apply State.modCons_keeps | apply State.cntOvf_keeps | apply State.raise_keeps | apply OKeeps.next | refine Keeps.ite (fun _ => ?_) (fun _ => ?_) | refine OKeeps.ite (fun _ => ?_) (fun _ => ?_) | split | refine Keeps.upd rfl (fun _ => rfl) id id id id id id id ?_)

theorem execC0RequestTimeout_keeps {ba : Bool} {z0 s : State} (n : Nat) (hk : Keeps ba z0 s) :
    OKeeps ba z0 (execC0RequestTimeout n s) := by
  unfold execC0RequestTimeout; try dsimp only
  repeat' with_reducible (first | assumption | apply State.sendPacket_keeps | apply State.advance_keeps | apply OKeeps.next | split | refine Keeps.upd rfl (fun _ => rfl) id id id id id id id ?_)

theorem execGroupSet_keeps {ba : Bool} {z0 s : State} (m : Mbx) (desc : Option (List (BitVec 8))) (hk : Keeps ba z0 s) :
    OKeeps ba z0 (execGroupSet m desc s) := by
  unfold execGroupSet; try dsimp only
  repeat' with_reducible (first | assumption | apply State.ackBox_keeps | apply State.ready_keeps | apply State.sendState_keeps | apply OKeeps.next | refine Keeps.ite (fun _ => ?_) (fun _ => ?_) | refine OKeeps.ite (fun _ => ?_) (fun _ => ?_) | split | refine Keeps.upd rfl (fun _ => rfl) id id id id id id id ?_)

theorem execGroupLeave_keeps {ba : Bool} {z0 s : State} (m : Mbx) (hk : Keeps ba z0 s) :
    OKeeps ba z0 (execGroupLeave m s) := by
  unfold execGroupLeave; try dsimp only
  repeat' with_reducible (first | assumption | apply State.ackBox_keeps | apply State.ready_keeps | apply State.tellCoord_keeps | apply OKeeps.next | refine Keeps.ite (fun _ => ?_) (fun _ => ?_) | refine OKeeps.ite (fun _ => ?_) (fun _ => ?_))

end Sys2Proof.Machine
end

