-- ==== Sys2Proof/Laws/KeepsBcast.lean ====
section
/-! SUPPORT. What the operations of Machine/Bcast.lean keep. -/

namespace Sys2Proof.Machine

open Sys2Proof

theorem execSettingsWrite_keeps {ba : Bool} {z0 s : State} (entries : List (Nat × Nat × List (BitVec 8))) (hk : Keeps ba z0 s) :
    OKeeps ba z0 (execSettingsWrite entries s) := by
  unfold execSettingsWrite; try dsimp only
  repeat' with_reducible (first | assumption | apply State.modBoot_keeps | apply State.modNvm_keeps | apply State.sysPut_keeps | apply foldl_keeps | apply OKeeps.next | refine Keeps.ite (fun _ => ?_) (fun _ => ?_) | refine OKeeps.ite (fun _ => ?_) (fun _ => ?_) | intro _ | refine Keeps.upd rfl (fun _ => rfl) id id id id id id id ?_)

theorem execRetrainDone_keeps {ba : Bool} {z0 s : State} (link : Fin 96) (pass : Bool) (fullPass : Bool) (lanesOk : BitVec 8) (peer : BitVec 16) (hk : Keeps ba z0 s) :
    OKeeps ba z0 (execRetrainDone link pass fullPass lanesOk peer s) := by
  unfold execRetrainDone; try dsimp only
  repeat' with_reducible (first | assumption | apply State.channelOut_keeps | apply State.modChan_keeps | apply State.trained_keeps | apply State.failedLink_keeps | apply State.linkQual_keeps | apply State.modPort_keeps | apply State.raise_keeps | apply OKeeps.next | refine Keeps.ite (fun _ => ?_) (fun _ => ?_) | refine OKeeps.ite (fun _ => ?_) (fun _ => ?_) | split | refine Keeps.upd rfl (fun _ => rfl) id id id id id id id ?_)

theorem State.setXfer_keeps {ba : Bool} {z0 s : State} (g : Nat) (t : BcastRec) (hk : Keeps ba z0 s) :
    Keeps ba z0 (State.setXfer s g t) := by
  unfold State.setXfer; try dsimp only
  repeat' with_reducible (first | assumption | apply State.modBoot_keeps | refine Keeps.upd rfl (fun _ => rfl) id id id id id id id ?_)

theorem State.bcastReg_keeps {ba : Bool} {z0 s : State} (unit : Nat) (f : DieBcast → DieBcast) (hk : Keeps ba z0 s) :
    Keeps ba z0 (State.bcastReg s unit f) := by
  unfold State.bcastReg; try dsimp only
  repeat' with_reducible (first | assumption | apply State.modBoot_keeps | refine Keeps.ite (fun _ => ?_) (fun _ => ?_) | refine Keeps.upd rfl (fun _ => rfl) id id id id id id id ?_)

theorem execBcastAnnounce_keeps {ba : Bool} {z0 s : State} (g : Gateway) (obj : BitVec 8) (image : Nat) (object : List (BitVec 8)) (sites : List Nat) (plos : List Nat) (heard : List Nat) (hk : Keeps ba z0 s) :
    OKeeps ba z0 (execBcastAnnounce g obj image object sites plos heard s) := by
  unfold execBcastAnnounce; try dsimp only
  repeat' with_reducible (first | assumption | apply State.bcastReg_keeps | apply State.setXfer_keeps | apply State.modBoot_keeps | apply State.workCvu_keeps | apply State.askCvu_keeps | apply foldl_keeps | apply OKeeps.next | refine Keeps.ite (fun _ => ?_) (fun _ => ?_) | refine OKeeps.ite (fun _ => ?_) (fun _ => ?_) | split | intro _ | refine Keeps.upd rfl (fun _ => rfl) id id id id id id id ?_)

theorem State.putPacket_keeps {ba : Bool} {z0 s : State} (p : Nat) (num : Nat) (bytes : List (BitVec 8)) (hk : Keeps ba z0 s) :
    Keeps ba z0 (State.putPacket s p num bytes) := by
  unfold State.putPacket; try dsimp only
  repeat' with_reducible (first | assumption | apply State.putBundle_keeps | apply State.each_keeps | intro _)

theorem execBcastData_keeps {ba : Bool} {z0 s : State} (g : Gateway) (unit : Fin 160) (num : BitVec 15) (bytes : List (BitVec 8)) (hk : Keeps ba z0 s) :
    OKeeps ba z0 (execBcastData g unit num bytes s) := by
  unfold execBcastData; try dsimp only
  repeat' with_reducible (first | assumption | apply State.putPacket_keeps | apply State.setXfer_keeps | apply State.each_keeps | apply OKeeps.next | refine Keeps.ite (fun _ => ?_) (fun _ => ?_) | refine OKeeps.ite (fun _ => ?_) (fun _ => ?_) | split | intro _ | refine Keeps.upd rfl (fun _ => rfl) id id id id id id id ?_)

theorem execBcastEnd_keeps {ba : Bool} {z0 s : State} (g : Gateway) (unit : Fin 160) (hk : Keeps ba z0 s) :
    OKeeps ba z0 (execBcastEnd g unit s) := by
  unfold execBcastEnd; try dsimp only
  repeat' with_reducible (first | assumption | apply State.bcastReg_keeps | apply State.setXfer_keeps | apply OKeeps.next | refine Keeps.ite (fun _ => ?_) (fun _ => ?_) | refine OKeeps.ite (fun _ => ?_) (fun _ => ?_) | split | refine Keeps.upd rfl (fun _ => rfl) id id id id id id id ?_)

theorem State.closeXfer_keeps {ba : Bool} {z0 s : State} (g : Nat) (t : BcastRec) (hk : Keeps ba z0 s) :
    Keeps ba z0 (State.closeXfer s g t) := by
  unfold State.closeXfer; try dsimp only
  repeat' with_reducible (first | assumption | apply State.setXfer_keeps | apply State.closeBcast_keeps | refine Keeps.ite (fun _ => ?_) (fun _ => ?_))

theorem execBcastReport_keeps {ba : Bool} {z0 s : State} (g : Gateway) (unit : Fin 160) (hk : Keeps ba z0 s) :
    OKeeps ba z0 (execBcastReport g unit s) := by
  unfold execBcastReport; try dsimp only
  repeat' with_reducible (first | assumption | apply State.closeXfer_keeps | apply State.ready_keeps | apply OKeeps.next | split | refine Keeps.upd rfl (fun _ => rfl) id id id id id id id ?_)

theorem State.bcastLost_keeps {ba : Bool} {z0 s : State} (obj : Nat) (unit : Nat) (hk : Keeps ba z0 s) :
    Keeps ba z0 (State.bcastLost s obj unit) := by
  unfold State.bcastLost; try dsimp only
  repeat' with_reducible (first | assumption | apply State.stewardLost_keeps | apply State.gatewayServicesOut_keeps | apply State.modWdt_keeps | apply State.replaceLost_keeps | apply State.dropMoves_keeps | apply State.dieMode_keeps | apply State.loseStack_keeps | apply State.setRole_keeps | refine Keeps.ite (fun _ => ?_) (fun _ => ?_) | split | refine Keeps.upd rfl (fun _ => rfl) id id id id id id id ?_)

theorem execReportWaitExpiry_keeps {ba : Bool} {z0 s : State} (g : Gateway) (hk : Keeps ba z0 s) :
    OKeeps ba z0 (execReportWaitExpiry g s) := by
  unfold execReportWaitExpiry; try dsimp only
  repeat' with_reducible (first | assumption | apply State.bcastLost_keeps | apply State.closeXfer_keeps | apply State.bcastReg_keeps | apply State.setXfer_keeps | apply State.closeBcast_keeps | apply State.raise_keeps | apply State.each_keeps | apply OKeeps.next | refine Keeps.ite (fun _ => ?_) (fun _ => ?_) | refine OKeeps.ite (fun _ => ?_) (fun _ => ?_) | split | intro _ | refine Keeps.upd rfl (fun _ => rfl) id id id id id id id ?_)

end Sys2Proof.Machine
end

