-- ==== Sys2Proof/Laws/KeepsPanel.lean ====
section
/-! SUPPORT. What the operations of Machine/Panel.lean keep. -/

namespace Sys2Proof.Machine

open Sys2Proof

theorem execMapCommit_keeps {ba : Bool} {z0 s : State} (readbackOk : Bool) (hk : Keeps ba z0 s) :
    OKeeps ba z0 (execMapCommit readbackOk s) := by
  unfold execMapCommit; try dsimp only
  repeat' with_reducible (first | assumption | apply State.rebindJob_keeps | apply State.commitRecord_keeps | apply State.modPanel_keeps | apply OKeeps.next | refine Keeps.ite (fun _ => ?_) (fun _ => ?_) | refine OKeeps.ite (fun _ => ?_) (fun _ => ?_) | refine Keeps.upd rfl (fun _ => rfl) id id id id id id id ?_)

theorem execFitTestComplete_keeps {ba : Bool} {z0 s : State} (pass : Bool) (added : Nat) (hk : Keeps ba z0 s) :
    OKeeps ba z0 (execFitTestComplete pass added s) := by
  unfold execFitTestComplete; try dsimp only
  repeat' with_reducible (first | assumption | apply State.endRelay_keeps | apply OKeeps.next | refine Keeps.ite (fun _ => ?_) (fun _ => ?_) | refine OKeeps.ite (fun _ => ?_) (fun _ => ?_))

theorem execGatewayRouterFail_keeps {ba : Bool} {z0 s : State} (g : Gateway) (fitPass : Bool) (added : Nat) (hk : Keeps ba z0 s) :
    OKeeps ba z0 (execGatewayRouterFail g fitPass added s) := by
  unfold execGatewayRouterFail; try dsimp only
  repeat' with_reducible (first | assumption | apply State.gatewayGone_keeps | apply State.endRelay_keeps | apply State.beginRelay_keeps | apply State.attachAnew_keeps | apply OKeeps.next | refine Keeps.ite (fun _ => ?_) (fun _ => ?_) | refine OKeeps.ite (fun _ => ?_) (fun _ => ?_))

theorem execRestingSelfcheckDone_keeps {ba : Bool} {z0 s : State} (site : Site) (row : Row) (pass : Bool) (hk : Keeps ba z0 s) :
    OKeeps ba z0 (execRestingSelfcheckDone site row pass s) := by
  unfold execRestingSelfcheckDone; try dsimp only
  repeat' with_reducible (first | assumption | apply State.pinRow_keeps | apply State.rebindJob_keeps | apply State.dropMove_keeps | apply State.commitRecord_keeps | apply State.modPanel_keeps | apply OKeeps.next | refine Keeps.ite (fun _ => ?_) (fun _ => ?_) | refine OKeeps.ite (fun _ => ?_) (fun _ => ?_) | split | refine Keeps.upd rfl (fun _ => rfl) id id id id id id id ?_)

theorem State.findFlips_keeps {ba : Bool} {z0 s : State} (p : Nat) (hk : Keeps ba z0 s) :
    Keeps ba z0 (State.findFlips s p) := by
  unfold State.findFlips; try dsimp only
  repeat' with_reducible (first | assumption | apply State.readWord_keeps | apply State.each_keeps | intro _)

theorem execBulkCopyDone_keeps {ba : Bool} {z0 s : State} (site : Site) (row : Row) (hk : Keeps ba z0 s) :
    OKeeps ba z0 (execBulkCopyDone site row s) := by
  unfold execBulkCopyDone; try dsimp only
  repeat' with_reducible (first | assumption | exact id | exact fun hh => Memory.copyKeys_wf _ _ _ hh | apply State.findFlips_keeps | apply State.modPanel_keeps | apply State.modSrams_keeps | apply OKeeps.next | refine Keeps.ite (fun _ => ?_) (fun _ => ?_) | refine OKeeps.ite (fun _ => ?_) (fun _ => ?_) | split | refine Keeps.upd rfl (fun _ => rfl) id id id id id id id ?_)

theorem execHandover_keeps {ba : Bool} {z0 s : State} (site : Site) (row : Row) (hk : Keeps ba z0 s) :
    OKeeps ba z0 (execHandover site row s) := by
  unfold execHandover; try dsimp only
  repeat' with_reducible (first | assumption | apply State.syncAll_keeps | apply State.ready_keeps | apply State.modPanel_keeps | apply State.advance_keeps | apply OKeeps.next | refine Keeps.ite (fun _ => ?_) (fun _ => ?_) | refine OKeeps.ite (fun _ => ?_) (fun _ => ?_) | split | refine Keeps.upd rfl (fun _ => rfl) id id id id id id id ?_)

theorem State.faultReport_keeps {ba : Bool} {z0 s : State} (p : Nat) (selfcheckOk : Bool) (hk : Keeps ba z0 s) :
    Keeps ba z0 (State.faultReport s p selfcheckOk) := by
  unfold State.faultReport; try dsimp only
  repeat' with_reducible (first | assumption | apply State.declareCore_keeps | apply State.resumeJob_keeps | apply State.endJob_keeps | apply State.modCore_keeps | apply State.raise_keeps | refine Keeps.ite (fun _ => ?_) (fun _ => ?_) | split | refine Keeps.upd rfl (fun _ => rfl) id id id id id id id ?_)

theorem execCoreFaultReport_keeps {ba : Bool} {z0 s : State} (p : PCore) (selfcheckOk : Bool) (hk : Keeps ba z0 s) :
    OKeeps ba z0 (execCoreFaultReport p selfcheckOk s) := by
  unfold execCoreFaultReport; try dsimp only
  repeat' with_reducible (first | assumption | apply State.faultReport_keeps | apply OKeeps.next | exact OKeeps.fault _ | refine Keeps.ite (fun _ => ?_) (fun _ => ?_) | refine OKeeps.ite (fun _ => ?_) (fun _ => ?_) | split)

theorem execSelfcheckDone_keeps {ba : Bool} {z0 s : State} (p : PCore) (pass : Bool) (hk : Keeps ba z0 s) :
    OKeeps ba z0 (execSelfcheckDone p pass s) := by
  unfold execSelfcheckDone; try dsimp only
  repeat' with_reducible (first | assumption | apply State.declareCore_keeps | apply State.modStat_keeps | apply OKeeps.next | refine Keeps.ite (fun _ => ?_) (fun _ => ?_) | refine OKeeps.ite (fun _ => ?_) (fun _ => ?_) | refine Keeps.upd rfl (fun _ => rfl) id id id id id id id ?_)

theorem execSweep_keeps {ba : Bool} {z0 s : State} (p : PCore) (hk : Keeps ba z0 s) :
    OKeeps ba z0 (execSweep p s) := by
  unfold execSweep; try dsimp only
  repeat' with_reducible (first | assumption | apply State.sweepCore_keeps | apply OKeeps.next | refine Keeps.ite (fun _ => ?_) (fun _ => ?_) | refine OKeeps.ite (fun _ => ?_) (fun _ => ?_))

end Sys2Proof.Machine
end

