-- ==== Sys2Proof/Laws/KeepsSelfTest.lean ====
section
/-! SUPPORT. What the operations of Machine/SelfTest.lean keep. -/

namespace Sys2Proof.Machine

open Sys2Proof

theorem State.settleMap_keeps {ba : Bool} {s0 s : State} (old : State) (hk : Keeps ba s0 s) : Keeps ba s0 (State.settleMap old s) := by
  unfold State.settleMap
  repeat' with_reducible (first | assumption | apply State.replaceLost_keeps | apply State.rebindJob_keeps | apply State.commitRecord_keeps | split)

theorem State.marched_keeps {ba : Bool} {z0 s : State} (sel : Nat) (hk : Keeps ba z0 s) :
    Keeps ba z0 (State.marched s sel) := by
  unfold State.marched; try dsimp only
  repeat' with_reducible (first | assumption | refine Keeps.upd rfl (fun _ => rfl) id id id id (fun _ => rfl) (fun _ => rfl) id ?_ | refine Keeps.ite (fun _ => ?_) (fun _ => ?_) | refine Keeps.upd rfl (fun _ => rfl) id id id id id id id ?_)

theorem State.sweepStacks_keeps {ba : Bool} {z0 s : State} (hk : Keeps ba z0 s) :
    Keeps ba z0 (State.sweepStacks s) := by
  unfold State.sweepStacks; try dsimp only
  repeat' with_reducible (first | assumption | refine Keeps.ite (fun _ => ?_) (fun _ => ?_) | refine Keeps.upd rfl (fun _ => rfl) id id id id id id id ?_)

theorem execSelftest_keeps {ba : Bool} {z0 s : State} (m : Mbx) (found : List BistFailure) (hk : Keeps ba z0 s) :
    OKeeps ba z0 (execSelftest m found s) := by
  unfold execSelftest; try dsimp only
  repeat' with_reducible (first | assumption | apply State.sweepStacks_keeps | apply State.marched_keeps | apply State.settleMap_keeps | apply State.bistRan_keeps | apply State.bistFix_keeps | apply State.ackBox_keeps | apply State.ready_keeps | apply State.attachAnew_keeps | apply State.dress_keeps | apply State.each_keeps | apply foldl_keeps | apply OKeeps.next | refine Keeps.ite (fun _ => ?_) (fun _ => ?_) | refine OKeeps.ite (fun _ => ?_) (fun _ => ?_) | intro _)

theorem execDietest_keeps {ba : Bool} {z0 s : State} (m : Mbx) (hk : Keeps ba z0 s) :
    OKeeps ba z0 (execDietest m s) := by
  unfold execDietest; try dsimp only
  repeat' with_reducible (first | assumption | apply State.modBoot_keeps | apply State.ackBox_keeps | apply State.clockGone_keeps | apply State.dieMode_keeps | apply State.ready_keeps | apply State.attachAnew_keeps | apply State.modPanel_keeps | apply OKeeps.next | refine Keeps.ite (fun _ => ?_) (fun _ => ?_) | refine OKeeps.ite (fun _ => ?_) (fun _ => ?_) | refine Keeps.upd rfl (fun _ => rfl) id id id id id id id ?_)

theorem State.d2dTrained_keeps {ba : Bool} {z0 s : State} (site : Nat) (dir : Nat) (st : QualMode) (trainings : Nat) (errors : Nat) (hk : Keeps ba z0 s) :
    Keeps ba z0 (State.d2dTrained s site dir st trainings errors) := by
  unfold State.d2dTrained; try dsimp only
  repeat' with_reducible (first | assumption | apply State.modBoot_keeps | refine Keeps.ite (fun _ => ?_) (fun _ => ?_) | split | refine Keeps.upd rfl (fun _ => rfl) id id id id id id id ?_)

theorem State.d2dEvent_keeps {ba : Bool} {z0 s : State} (site : Nat) (hk : Keeps ba z0 s) :
    Keeps ba z0 (State.d2dEvent s site) := by
  unfold State.d2dEvent; try dsimp only
  repeat' with_reducible (first | assumption | apply State.raise_keeps)

theorem execDieTestEnd_keeps {ba : Bool} {z0 s : State} (found : List BistFailure) (linksOk : Bool) (hk : Keeps ba z0 s) :
    OKeeps ba z0 (execDieTestEnd found linksOk s) := by
  unfold execDieTestEnd; try dsimp only
  repeat' with_reducible (first | assumption | exact id | apply State.d2dEvent_keeps | apply State.d2dTrained_keeps | apply State.bistRan_keeps | apply State.bistNote_keeps | apply State.modBoot_keeps | apply State.ackBox_keeps | apply State.modDieClk_keeps | apply State.dieMode_keeps | apply State.modClk_keeps | apply State.ready_keeps | apply State.sweepSite_keeps | apply State.commitRecord_keeps | apply State.setRole_keeps | apply State.modPanel_keeps | apply State.each_keeps | apply foldl_keeps | apply OKeeps.next | refine Keeps.ite (fun _ => ?_) (fun _ => ?_) | refine OKeeps.ite (fun _ => ?_) (fun _ => ?_) | split | intro _ | refine Keeps.upd rfl (fun _ => rfl) id id id id id id id ?_)

theorem execD2dRetrain_keeps {ba : Bool} {z0 s : State} (site : Site) (dir : Fin 4) (pass : Bool) (errors : BitVec 16) (hk : Keeps ba z0 s) :
    OKeeps ba z0 (execD2dRetrain site dir pass errors s) := by
  unfold execD2dRetrain; try dsimp only
  repeat' with_reducible (first | assumption | apply State.d2dEvent_keeps | apply State.d2dTrained_keeps | apply State.settleMap_keeps | apply State.linkDead_keeps | apply State.attachAnew_keeps | apply OKeeps.next | refine Keeps.ite (fun _ => ?_) (fun _ => ?_) | refine OKeeps.ite (fun _ => ?_) (fun _ => ?_) | split)

theorem State.levelsAnew_keeps {ba : Bool} {z0 s : State} (site : Nat) (hk : Keeps ba z0 s) :
    Keeps ba z0 (State.levelsAnew s site) := by
  unfold State.levelsAnew; try dsimp only
  repeat' with_reducible (first | assumption | split | refine Keeps.upd rfl (fun _ => rfl) id id id id id id id ?_)

theorem execComputeResetDone_keeps {ba : Bool} {z0 s : State} (site : Site) (imageOk : Bool) (bistOk : Bool) (hk : Keeps ba z0 s) :
    OKeeps ba z0 (execComputeResetDone site imageOk bistOk s) := by
  unfold execComputeResetDone; try dsimp only
  repeat' with_reducible (first | assumption | apply State.levelsAnew_keeps | apply State.computeReset_keeps | apply State.dieMode_keeps | apply State.loadProgram_keeps | apply State.ready_keeps | apply State.modPanel_keeps | apply OKeeps.next | refine Keeps.ite (fun _ => ?_) (fun _ => ?_) | refine OKeeps.ite (fun _ => ?_) (fun _ => ?_) | refine Keeps.upd rfl (fun _ => rfl) id id id id id id id ?_)

theorem execComputeResetTimeout_keeps {ba : Bool} {z0 s : State} (site : Site) (hk : Keeps ba z0 s) :
    OKeeps ba z0 (execComputeResetTimeout site s) := by
  unfold execComputeResetTimeout; try dsimp only
  repeat' with_reducible (first | assumption | apply State.failDie_keeps | apply State.computeReset_keeps | apply State.modPanel_keeps | apply State.advance_keeps | apply OKeeps.next | split | refine Keeps.upd rfl (fun _ => rfl) id id id id id id id ?_)

theorem execStewardRestartDone_keeps {ba : Bool} {z0 s : State} (agent : Nat) (bad : List PCore) (hk : Keeps ba z0 s) :
    OKeeps ba z0 (execStewardRestartDone agent bad s) := by
  unfold execStewardRestartDone; try dsimp only
  repeat' with_reducible (first | assumption | apply State.faultReport_keeps | apply State.activate_keeps | apply State.modWdt_keeps | apply State.each_keeps | apply OKeeps.next | exact OKeeps.fault _ | refine Keeps.ite (fun _ => ?_) (fun _ => ?_) | refine OKeeps.ite (fun _ => ?_) (fun _ => ?_) | intro _ | refine Keeps.upd rfl (fun _ => rfl) id id id id id id id ?_)

end Sys2Proof.Machine
end

