-- ==== Sys2Proof/Laws/KeepsWindows.lean ====
section
/-! SUPPORT. What the operations of Machine/Windows.lean keep. -/

namespace Sys2Proof.Machine

open Sys2Proof

theorem State.dropWadi_keeps {ba : Bool} {z0 s : State} (p : Nat) (l : Nat) (src : Nat) (gran : Nat) (reason : Nat) (tag : Option Nat) (hk : Keeps ba z0 s) :
    Keeps ba z0 (State.dropWadi s p l src gran reason tag) := by
  unfold State.dropWadi; try dsimp only
  repeat' with_reducible (first | assumption | apply State.account_keeps | apply State.modDrop_keeps | apply State.cntOvf_keeps | apply State.raise_keeps | refine Keeps.ite (fun _ => ?_) (fun _ => ?_) | refine Keeps.upd rfl (fun _ => rfl) id id id id id id id ?_)

theorem State.coreWadi_keeps {ba : Bool} {z0 s : State} (flit : Nat) (f : Flit) (pos : Nat) (due : Nat) (dir : Dir) (hk : Keeps ba z0 s) :
    Keeps ba z0 (State.coreWadi s flit f pos due dir) := by
  unfold State.coreWadi; try dsimp only
  repeat' with_reducible (first | assumption | apply State.dropWadi_keeps | apply State.discard_keeps | apply State.goRound_keeps | apply State.dropFlit_keeps | apply State.setFlit_keeps | apply State.account_keeps | apply State.modPipe_keeps | refine Keeps.ite (fun _ => ?_) (fun _ => ?_) | split | refine Keeps.upd rfl (fun _ => rfl) id id id id id id id ?_)

theorem State.freeBank_keeps {ba : Bool} {z0 s : State} (p : Nat) (bank : Nat) (k_0 : Nat) (hk : Keeps ba z0 s) :
    Keeps ba z0 (State.freeBank s p bank k_0) := by
  induction k_0 generalizing s p bank with
  | zero =>
    unfold State.freeBank; try dsimp only
    repeat' with_reducible (first | assumption | apply State.sync_keeps | apply State.advance_keeps | refine Keeps.ite (fun _ => ?_) (fun _ => ?_) | split)
  | succ n_ ih =>
    unfold State.freeBank; try dsimp only
    repeat' with_reducible (first | assumption | apply ih | apply State.sync_keeps | apply State.advance_keeps | refine Keeps.ite (fun _ => ?_) (fun _ => ?_) | split)

theorem State.landRecords_keeps {ba : Bool} {z0 s : State} (p : Nat) (k_0 : Nat) (hk : Keeps ba z0 s) :
    Keeps ba z0 (State.landRecords s p k_0) := by
  induction k_0 generalizing s p with
  | zero =>
    unfold State.landRecords; try dsimp only
    repeat' with_reducible (first | assumption | apply State.sync_keeps | apply State.recordHead_keeps | apply State.advance_keeps | refine Keeps.ite (fun _ => ?_) (fun _ => ?_) | split)
  | succ n_ ih =>
    unfold State.landRecords; try dsimp only
    repeat' with_reducible (first | assumption | apply ih | apply State.sync_keeps | apply State.recordHead_keeps | apply State.advance_keeps | refine Keeps.ite (fun _ => ?_) (fun _ => ?_) | split)

theorem execWadiFlitLand_keeps {ba : Bool} {z0 s : State} (p : PCore) (hk : Keeps ba z0 s) :
    OKeeps ba z0 (execWadiFlitLand p s) := by
  unfold execWadiFlitLand; try dsimp only
  repeat' with_reducible (first | assumption | apply State.freeBank_keeps | apply State.dropWadi_keeps | apply State.account_keeps | apply State.putGranule_keeps | apply State.modPipe_keeps | apply OKeeps.next | split | refine Keeps.upd rfl (fun _ => rfl) id id id id id id id ?_)

theorem execWadiExpiry_keeps {ba : Bool} {z0 s : State} (hk : Keeps ba z0 s) :
    OKeeps ba z0 (execWadiExpiry s) := by
  unfold execWadiExpiry; try dsimp only
  repeat' with_reducible (first | assumption | apply OKeeps.next | split | refine Keeps.upd rfl (fun _ => rfl) id id id id id id id ?_)

theorem State.completeRdma_keeps {ba : Bool} {z0 s : State} (key : Nat) (code : Nat) (hk : Keeps ba z0 s) :
    Keeps ba z0 (State.completeRdma s key code) := by
  unfold State.completeRdma; try dsimp only
  repeat' with_reducible (first | assumption | apply State.landRecords_keeps | apply State.finishRdma_keeps | split)

theorem execRdmaReport_keeps {ba : Bool} {z0 s : State} (l : LCore) (slot : Fin 4) (hk : Keeps ba z0 s) :
    OKeeps ba z0 (execRdmaReport l slot s) := by
  unfold execRdmaReport; try dsimp only
  repeat' with_reducible (first | assumption | apply State.completeRdma_keeps | apply OKeeps.next | refine Keeps.ite (fun _ => ?_) (fun _ => ?_) | refine OKeeps.ite (fun _ => ?_) (fun _ => ?_) | split)

theorem execRdmaTimeout_keeps {ba : Bool} {z0 s : State} (l : LCore) (slot : Fin 4) (hk : Keeps ba z0 s) :
    OKeeps ba z0 (execRdmaTimeout l slot s) := by
  unfold execRdmaTimeout; try dsimp only
  repeat' with_reducible (first | assumption | apply State.completeRdma_keeps | apply State.advance_keeps | apply OKeeps.next | refine Keeps.ite (fun _ => ?_) (fun _ => ?_) | refine OKeeps.ite (fun _ => ?_) (fun _ => ?_) | split)

theorem State.restAgain_keeps {ba : Bool} {z0 s : State} (site : Nat) (k : Nat) (hk : Keeps ba z0 s) :
    Keeps ba z0 (State.restAgain s site k) := by
  unfold State.restAgain; try dsimp only
  repeat' with_reducible (first | assumption | apply State.modStat_keeps | refine Keeps.ite (fun _ => ?_) (fun _ => ?_) | split | refine Keeps.upd rfl (fun _ => rfl) id id id id id id id ?_)

theorem State.siteBack_keeps {ba : Bool} {z0 s : State} (site : Nat) (hk : Keeps ba z0 s) :
    Keeps ba z0 (State.siteBack s site) := by
  unfold State.siteBack; try dsimp only
  repeat' with_reducible (first | assumption | apply State.ready_keeps | apply State.dress_keeps | apply State.setRole_keeps | apply State.modPanel_keeps | refine Keeps.ite (fun _ => ?_) (fun _ => ?_) | refine Keeps.upd rfl (fun _ => rfl) id id id id id id id ?_)

theorem State.ergBack_keeps {ba : Bool} {z0 s : State} (e : Nat) (hk : Keeps ba z0 s) :
    Keeps ba z0 (State.ergBack s e) := by
  unfold State.ergBack; try dsimp only
  repeat' with_reducible (first | assumption | apply State.siteBack_keeps | apply State.rebindJob_keeps | apply State.shortOver_keeps | apply State.rebind_keeps | apply State.commitRecord_keeps | apply State.modPanel_keeps | apply State.each_keeps | intro _ | refine Keeps.upd rfl (fun _ => rfl) id id id id id id id ?_)

theorem State.siteServes_keeps {ba : Bool} {z0 s : State} (site : Nat) (hk : Keeps ba z0 s) :
    Keeps ba z0 (State.siteServes s site) := by
  unfold State.siteServes; try dsimp only
  repeat' with_reducible (first | assumption | apply State.ergBack_keeps | apply State.rebindLate_keeps | refine Keeps.ite (fun _ => ?_) (fun _ => ?_))

theorem State.siteSwept_keeps {ba : Bool} {z0 s : State} (site : Nat) (hk : Keeps ba z0 s) :
    Keeps ba z0 (State.siteSwept s site) := by
  unfold State.siteSwept; try dsimp only
  repeat' with_reducible (first | assumption | apply State.siteServes_keeps | apply State.reportEnd_keeps | apply State.sweepEvent_keeps | apply State.modSweep_keeps | refine Keeps.ite (fun _ => ?_) (fun _ => ?_) | refine Keeps.upd rfl (fun _ => rfl) id id id id id id id ?_)

theorem execSweepComplete_keeps {ba : Bool} {z0 s : State} (site : Site) (k : Option (Fin 104)) (hk : Keeps ba z0 s) :
    OKeeps ba z0 (execSweepComplete site k s) := by
  unfold execSweepComplete; try dsimp only
  repeat' with_reducible (first | assumption | apply State.siteSwept_keeps | apply State.restAgain_keeps | apply State.sweptCore_keeps | apply State.modSweep_keeps | apply State.each_keeps | apply OKeeps.next | refine Keeps.ite (fun _ => ?_) (fun _ => ?_) | refine OKeeps.ite (fun _ => ?_) (fun _ => ?_) | split | intro _ | refine Keeps.upd rfl (fun _ => rfl) id id id id id id id ?_)

theorem execSweepTimeout_keeps {ba : Bool} {z0 s : State} (p : PCore) (hk : Keeps ba z0 s) :
    OKeeps ba z0 (execSweepTimeout p s) := by
  unfold execSweepTimeout; try dsimp only
  repeat' with_reducible (first | assumption | apply State.siteSwept_keeps | apply State.modSweep_keeps | apply State.recordOffBundle_keeps | apply State.modStat_keeps | apply OKeeps.next | refine Keeps.ite (fun _ => ?_) (fun _ => ?_) | refine OKeeps.ite (fun _ => ?_) (fun _ => ?_) | refine Keeps.upd rfl (fun _ => rfl) id id id id id id id ?_)

theorem execCvuRequest_keeps {ba : Bool} {z0 s : State} (unit : Cvu) (node : Nat) (rseq : Nat) (mode : Fin 4) (alg64 : Bool) (expect : Option Nat) (hk : Keeps ba z0 s) :
    OKeeps ba z0 (execCvuRequest unit node rseq mode alg64 expect s) := by
  unfold execCvuRequest; try dsimp only
  repeat' with_reducible (first | assumption | apply State.askCvu_keeps | apply OKeeps.next | refine Keeps.ite (fun _ => ?_) (fun _ => ?_) | refine OKeeps.ite (fun _ => ?_) (fun _ => ?_))

end Sys2Proof.Machine
end

