-- ==== Sys2Proof/Laws/KeepsThermal.lean ====
section
/-! SUPPORT. What the operations of Machine/Thermal.lean keep. -/

namespace Sys2Proof.Machine

open Sys2Proof

theorem execRefclkLoss_keeps {ba : Bool} {z0 s : State} (b : Bool) (hk : Keeps ba z0 s) :
    OKeeps ba z0 (execRefclkLoss b s) := by
  unfold execRefclkLoss; try dsimp only
  repeat' with_reducible (first | assumption | exact id | apply State.modClk_keeps | apply State.raise_keeps | apply OKeeps.next | refine Keeps.ite (fun _ => ?_) (fun _ => ?_) | refine OKeeps.ite (fun _ => ?_) (fun _ => ?_) | refine Keeps.upd rfl (fun _ => rfl) id id id id id id id ?_)

theorem execRefclkReturn_keeps {ba : Bool} {z0 s : State} (b : Bool) (hk : Keeps ba z0 s) :
    OKeeps ba z0 (execRefclkReturn b s) := by
  unfold execRefclkReturn; try dsimp only
  repeat' with_reducible (first | assumption | exact id | apply State.modClk_keeps | apply OKeeps.next | refine Keeps.ite (fun _ => ?_) (fun _ => ?_) | refine OKeeps.ite (fun _ => ?_) (fun _ => ?_) | split | refine Keeps.upd rfl (fun _ => rfl) id id id id id id id ?_)

theorem execPllLockLoss_keeps {ba : Bool} {z0 s : State} (g : Gateway) (hk : Keeps ba z0 s) :
    OKeeps ba z0 (execPllLockLoss g s) := by
  unfold execPllLockLoss; try dsimp only
  repeat' with_reducible (first | assumption | exact id | apply State.clockGone_keeps | apply State.modClk_keeps | apply State.raise_keeps | apply OKeeps.next | refine Keeps.ite (fun _ => ?_) (fun _ => ?_) | refine OKeeps.ite (fun _ => ?_) (fun _ => ?_) | refine Keeps.upd rfl (fun _ => rfl) id id id id id id id ?_)

theorem execPllRelock_keeps {ba : Bool} {z0 s : State} (g : Gateway) (hk : Keeps ba z0 s) :
    OKeeps ba z0 (execPllRelock g s) := by
  unfold execPllRelock; try dsimp only
  repeat' with_reducible (first | assumption | exact id | apply State.modDieClk_keeps | apply State.modClk_keeps | apply State.each_keeps | apply OKeeps.next | refine Keeps.ite (fun _ => ?_) (fun _ => ?_) | refine OKeeps.ite (fun _ => ?_) (fun _ => ?_) | split | intro _ | refine Keeps.upd rfl (fun _ => rfl) id id id id id id id ?_)

theorem execPrimaryClockLoss_keeps {ba : Bool} {z0 s : State} (site : Site) (secGood : Bool) (links : BitVec 4) (hk : Keeps ba z0 s) :
    OKeeps ba z0 (execPrimaryClockLoss site secGood links s) := by
  unfold execPrimaryClockLoss; try dsimp only
  repeat' with_reducible (first | assumption | exact id | apply State.clockGone_keeps | apply State.modDieClk_keeps | apply State.failDie_keeps | apply State.modClk_keeps | apply OKeeps.next | refine Keeps.ite (fun _ => ?_) (fun _ => ?_) | refine OKeeps.ite (fun _ => ?_) (fun _ => ?_) | refine Keeps.upd rfl (fun _ => rfl) id id id id id id id ?_)

theorem State.layPlan_keeps {ba : Bool} {z0 s : State} (plan : List (Nat × Nat × Option Nat)) (hk : Keeps ba z0 s) :
    Keeps ba z0 (State.layPlan s plan) := by
  unfold State.layPlan; try dsimp only
  repeat' with_reducible (first | assumption | exact id | apply State.modDieClk_keeps | apply State.modClk_keeps | apply foldl_keeps | refine Keeps.ite (fun _ => ?_) (fun _ => ?_) | intro _ | refine Keeps.upd rfl (fun _ => rfl) id id id id id id id ?_)

theorem execClockPlanRelay_keeps {ba : Bool} {z0 s : State} (plan : List (Nat × Nat × Option Nat)) (hk : Keeps ba z0 s) :
    OKeeps ba z0 (execClockPlanRelay plan s) := by
  unfold execClockPlanRelay; try dsimp only
  repeat' with_reducible (first | assumption | apply State.layPlan_keeps | apply State.raise_keeps | apply OKeeps.next | refine Keeps.ite (fun _ => ?_) (fun _ => ?_) | refine OKeeps.ite (fun _ => ?_) (fun _ => ?_))

theorem execClockReturn_keeps {ba : Bool} {z0 s : State} (site : Site) (links : BitVec 4) (hk : Keeps ba z0 s) :
    OKeeps ba z0 (execClockReturn site links s) := by
  unfold execClockReturn; try dsimp only
  repeat' with_reducible (first | assumption | exact id | apply State.modDieClk_keeps | apply State.modClk_keeps | apply OKeeps.next | refine Keeps.ite (fun _ => ?_) (fun _ => ?_) | refine OKeeps.ite (fun _ => ?_) (fun _ => ?_) | refine Keeps.upd rfl (fun _ => rfl) id id id id id id id ?_)

theorem execStepRequest_keeps {ba : Bool} {z0 s : State} (value : BitVec 32) (hk : Keeps ba z0 s) :
    OKeeps ba z0 (execStepRequest value s) := by
  unfold execStepRequest; try dsimp only
  repeat' with_reducible (first | assumption | exact id | apply State.modClk_keeps | apply OKeeps.next | refine Keeps.ite (fun _ => ?_) (fun _ => ?_) | refine OKeeps.ite (fun _ => ?_) (fun _ => ?_) | split | exact Memory.writeBytes_wf _ _ | exact Memory.clear_wf _ _ | intro _ | refine Keeps.upd rfl (fun _ => rfl) id id id id id id id ?_)

theorem execStepChangeRequest_keeps {ba : Bool} {z0 s : State} (hk : Keeps ba z0 s) :
    OKeeps ba z0 (execStepChangeRequest s) := by
  unfold execStepChangeRequest; try dsimp only
  repeat' with_reducible (first | assumption | exact id | apply State.setSetpoints_keeps | apply State.modClk_keeps | apply OKeeps.next | refine Keeps.ite (fun _ => ?_) (fun _ => ?_) | refine OKeeps.ite (fun _ => ?_) (fun _ => ?_) | refine Keeps.upd rfl (fun _ => rfl) id id id id id id id ?_)

theorem execStepChange_keeps {ba : Bool} {z0 s : State} (hk : Keeps ba z0 s) :
    OKeeps ba z0 (execStepChange s) := by
  unfold execStepChange; try dsimp only
  repeat' with_reducible (first | assumption | apply State.stepDue_keeps | apply OKeeps.next | refine Keeps.ite (fun _ => ?_) (fun _ => ?_) | refine OKeeps.ite (fun _ => ?_) (fun _ => ?_))

theorem State.thmRegs_keeps {ba : Bool} {z0 s : State} (js : List Junction) (hk : Keeps ba z0 s) :
    Keeps ba z0 (State.thmRegs s js) := by
  unfold State.thmRegs; try dsimp only
  repeat' with_reducible (first | assumption | exact id | apply State.modDieClk_keeps | apply State.modClk_keeps | apply foldl_keeps | refine Keeps.ite (fun _ => ?_) (fun _ => ?_) | intro _ | refine Keeps.upd rfl (fun _ => rfl) id id id id id id id ?_)

theorem State.thmErg_keeps {ba : Bool} {z0 s : State} (js : List Junction) (e : Nat) (hk : Keeps ba z0 s) :
    Keeps ba z0 (State.thmErg s js e) := by
  unfold State.thmErg; try dsimp only
  repeat' with_reducible (first | assumption | exact id | apply State.modClk_keeps | apply State.raise_keeps | refine Keeps.ite (fun _ => ?_) (fun _ => ?_) | split | refine Keeps.upd rfl (fun _ => rfl) id id id id id id id ?_)

theorem State.throttle_keeps {ba : Bool} {z0 s : State} (js : List Junction) (hk : Keeps ba z0 s) :
    Keeps ba z0 (State.throttle s js) := by
  unfold State.throttle; try dsimp only
  repeat' with_reducible (first | assumption | exact id | apply State.park_keeps | apply State.modClk_keeps | apply State.raise_keeps | apply State.each_keeps | refine Keeps.ite (fun _ => ?_) (fun _ => ?_) | split | exact Memory.writeBytes_wf _ _ | exact Memory.clear_wf _ _ | intro _ | refine Keeps.upd rfl (fun _ => rfl) id id id id id id id ?_)

theorem State.stretchDie_keeps {ba : Bool} {z0 s : State} (j : Junction) (hk : Keeps ba z0 s) :
    Keeps ba z0 (State.stretchDie s j) := by
  unfold State.stretchDie; try dsimp only
  repeat' with_reducible (first | assumption | apply State.modDieClk_keeps | apply State.syncAll_keeps | refine Keeps.ite (fun _ => ?_) (fun _ => ?_) | refine Keeps.upd rfl (fun _ => rfl) id id id id id id id ?_)

theorem execThermalForecast_keeps {ba : Bool} {z0 s : State} (junctions : List Junction) (hk : Keeps ba z0 s) :
    OKeeps ba z0 (execThermalForecast junctions s) := by
  unfold execThermalForecast; try dsimp only
  repeat' with_reducible (first | assumption | apply State.stretchDie_keeps | apply State.throttle_keeps | apply State.thmErg_keeps | apply State.thmRegs_keeps | apply State.ready_keeps | apply State.each_keeps | apply foldl_keeps | apply OKeeps.next | refine Keeps.ite (fun _ => ?_) (fun _ => ?_) | refine OKeeps.ite (fun _ => ?_) (fun _ => ?_) | intro _)

theorem execThermalTrip_keeps {ba : Bool} {z0 s : State} (unit : Fin 160) (tj : BitVec 8) (hk : Keeps ba z0 s) :
    OKeeps ba z0 (execThermalTrip unit tj s) := by
  unfold execThermalTrip; try dsimp only
  repeat' with_reducible (first | assumption | apply State.park_keeps | apply State.loseStack_keeps | apply State.raise_keeps | apply OKeeps.next | refine Keeps.ite (fun _ => ?_) (fun _ => ?_) | refine OKeeps.ite (fun _ => ?_) (fun _ => ?_) | refine Keeps.upd rfl (fun _ => rfl) id id id id id id id ?_)

theorem State.siteOn_keeps {ba : Bool} {z0 s : State} (site : Nat) (hk : Keeps ba z0 s) :
    Keeps ba z0 (State.siteOn s site) := by
  unfold State.siteOn; try dsimp only
  repeat' with_reducible (first | assumption | apply State.modDieClk_keeps | apply State.sweepSite_keeps | apply State.modPanel_keeps | refine Keeps.ite (fun _ => ?_) (fun _ => ?_) | refine Keeps.upd rfl (fun _ => rfl) id id id id id id id ?_)

theorem State.ergOn_keeps {ba : Bool} {z0 s : State} (e : Nat) (hk : Keeps ba z0 s) :
    Keeps ba z0 (State.ergOn s e) := by
  unfold State.ergOn; try dsimp only
  repeat' with_reducible (first | assumption | exact id | apply State.migrate_keeps | apply State.modErg_keeps | apply State.modPwr_keeps | refine Keeps.ite (fun _ => ?_) (fun _ => ?_) | refine Keeps.upd rfl (fun _ => rfl) id id id id id id id ?_)

theorem execErgUnpark_keeps {ba : Bool} {z0 s : State} (erg : Erg) (hk : Keeps ba z0 s) :
    OKeeps ba z0 (execErgUnpark erg s) := by
  unfold execErgUnpark; try dsimp only
  repeat' with_reducible (first | assumption | exact id | apply State.ergOn_keeps | apply State.siteOn_keeps | apply State.ergBack_keeps | apply State.modClk_keeps | apply State.attachAnew_keeps | apply State.modPanel_keeps | apply State.each_keeps | apply OKeeps.next | refine Keeps.ite (fun _ => ?_) (fun _ => ?_) | refine OKeeps.ite (fun _ => ?_) (fun _ => ?_) | intro _ | refine Keeps.upd rfl (fun _ => rfl) id id id id id id id ?_)

theorem State.rotateRow_keeps {ba : Bool} {z0 s : State} (ld : Nat) (site : Nat) (row : Nat) (hk : Keeps ba z0 s) :
    Keeps ba z0 (State.rotateRow s ld site row) := by
  unfold State.rotateRow; try dsimp only
  repeat' with_reducible (first | assumption | exact id | apply State.modClk_keeps | apply State.modPanel_keeps | apply State.modStat_keeps | apply State.cntOvf_keeps | refine Keeps.ite (fun _ => ?_) (fun _ => ?_) | refine Keeps.upd rfl (fun _ => rfl) id id id id id id id ?_)

theorem execRotationInterval_keeps {ba : Bool} {z0 s : State} (hk : Keeps ba z0 s) :
    OKeeps ba z0 (execRotationInterval s) := by
  unfold execRotationInterval; try dsimp only
  repeat' with_reducible (first | assumption | apply State.rotateRow_keeps | apply State.ready_keeps | apply State.each_keeps | apply foldl_keeps | apply OKeeps.next | split | intro _)

theorem execWaterSample_keeps {ba : Bool} {z0 s : State} (inlet : Option (BitVec 8)) (outlet : Option (BitVec 8)) (hk : Keeps ba z0 s) :
    OKeeps ba z0 (execWaterSample inlet outlet s) := by
  unfold execWaterSample; try dsimp only
  repeat' with_reducible (first | assumption | exact id | apply State.modClk_keeps | apply State.raise_keeps | apply OKeeps.next | refine Keeps.ite (fun _ => ?_) (fun _ => ?_) | refine OKeeps.ite (fun _ => ?_) (fun _ => ?_) | split | refine Keeps.upd rfl (fun _ => rfl) id id id id id id id ?_)

end Sys2Proof.Machine
end

