-- ==== Sys2Proof/Laws/KeepsCold.lean ====
section
/-! SUPPORT. What the operations of Machine/Cold.lean keep. -/

namespace Sys2Proof.Machine

open Sys2Proof

theorem State.ergStart_keeps {ba : Bool} {z0 s : State} (f : StartFacts) (e : Nat) (hk : Keeps ba z0 s) :
    Keeps ba z0 (State.ergStart f s e) := by
  unfold State.ergStart; try dsimp only
  repeat' with_reducible (first | assumption | exact id | apply State.migrate_keeps | apply State.modErg_keeps | apply State.modPwr_keeps | apply State.raise_keeps | refine Keeps.ite (fun _ => ?_) (fun _ => ?_) | refine Keeps.upd rfl (fun _ => rfl) id id id id id id id ?_)

theorem State.settingsStart_keeps {ba : Bool} {z0 s : State} (hk : Keeps ba z0 s) :
    Keeps ba z0 (State.settingsStart s) := by
  unfold State.settingsStart; try dsimp only
  repeat' with_reducible (first | assumption | apply State.modBoot_keeps | apply foldl_keeps | refine Keeps.ite (fun _ => ?_) (fun _ => ?_) | split | intro _ | refine Keeps.upd rfl (fun _ => rfl) id id id id id id id ?_)

theorem State.bootStat_keeps {ba : Bool} {z0 s : State} (f : StartFacts) (step : Nat) (codeA : Nat) (codeB : Nat) (hk : Keeps ba z0 s) :
    Keeps ba z0 (State.bootStat s f step codeA codeB) := by
  unfold State.bootStat; try dsimp only
  repeat' with_reducible (first | assumption | apply State.modBoot_keeps | refine Keeps.upd rfl (fun _ => rfl) id id id id id id id ?_)

theorem State.firmware_keeps {ba : Bool} {z0 s : State} (f : StartFacts) (hk : Keeps ba z0 s) :
    Keeps ba z0 (State.firmware s f) := by
  unfold State.firmware; try dsimp only
  repeat' with_reducible (first | assumption | apply State.modSec_keeps | apply foldl_keeps | refine Keeps.ite (fun _ => ?_) (fun _ => ?_) | intro _ | refine Keeps.upd rfl (fun _ => rfl) id id id id id id id ?_)

theorem State.jistoStart_keeps {ba : Bool} {z0 s : State} (f : StartFacts) (l : Nat) (hk : Keeps ba z0 s) :
    Keeps ba z0 (State.jistoStart f s l) := by
  unfold State.jistoStart; try dsimp only
  repeat' with_reducible (first | assumption | apply State.comeUp_keeps | apply State.linkQual_keeps | apply State.modPort_keeps | refine Keeps.ite (fun _ => ?_) (fun _ => ?_) | split | refine Keeps.upd rfl (fun _ => rfl) id id id id id id id ?_)

theorem State.stewardsStart_keeps {ba : Bool} {z0 s : State} (a : Bool) (b : Bool) (hk : Keeps ba z0 s) :
    Keeps ba z0 (State.stewardsStart s a b) := by
  unfold State.stewardsStart; try dsimp only
  repeat' with_reducible (first | assumption | apply State.modSec_keeps | apply State.modWdt_keeps | refine Keeps.ite (fun _ => ?_) (fun _ => ?_) | refine Keeps.upd rfl (fun _ => rfl) id id id id id id id ?_)

theorem State.chanStart_keeps {ba : Bool} {z0 s : State} (f : StartFacts) (c : Nat) (hk : Keeps ba z0 s) :
    Keeps ba z0 (State.chanStart f s c) := by
  unfold State.chanStart; try dsimp only
  repeat' with_reducible (first | assumption | apply State.modChan_keeps | apply foldl_keeps | refine Keeps.ite (fun _ => ?_) (fun _ => ?_) | split | intro _ | refine Keeps.upd rfl (fun _ => rfl) id id id id id id id ?_)

theorem State.chansStart_keeps {ba : Bool} {z0 s : State} (f : StartFacts) (hk : Keeps ba z0 s) :
    Keeps ba z0 (State.chansStart s f) := by
  unfold State.chansStart; try dsimp only
  repeat' with_reducible (first | assumption | apply State.chanStart_keeps | apply State.modNvm_keeps | apply State.sysTable_keeps | apply State.each_keeps | refine Keeps.ite (fun _ => ?_) (fun _ => ?_) | intro _ | refine Keeps.upd rfl (fun _ => rfl) id id id id id id id ?_)

theorem State.qualify_keeps {ba : Bool} {z0 s : State} (f : StartFacts) (hk : Keeps ba z0 s) :
    Keeps ba z0 (State.qualify s f) := by
  unfold State.qualify; try dsimp only
  repeat' with_reducible (first | assumption | apply State.modBoot_keeps | refine Keeps.ite (fun _ => ?_) (fun _ => ?_) | refine Keeps.upd rfl (fun _ => rfl) id id id id id id id ?_)

theorem State.clockStart_keeps {ba : Bool} {z0 s : State} (f : StartFacts) (hk : Keeps ba z0 s) :
    Keeps ba z0 (State.clockStart s f) := by
  unfold State.clockStart; try dsimp only
  repeat' with_reducible (first | assumption | exact id | apply State.layPlan_keeps | apply State.modDieClk_keeps | apply State.modClk_keeps | apply foldl_keeps | refine Keeps.ite (fun _ => ?_) (fun _ => ?_) | split | intro _ | refine Keeps.upd rfl (fun _ => rfl) id id id id id id id ?_)

theorem State.commonStart_keeps {s0 s : State} (hk : Keeps false s0 s) : Keeps false s0 s.commonStart :=
  Keeps.upd rfl nofun id id id id id id id hk

theorem State.routersStart_keeps {ba : Bool} {z0 s : State} (hk : Keeps ba z0 s) :
    Keeps ba z0 (State.routersStart s) := by
  unfold State.routersStart; try dsimp only
  repeat' with_reducible (first | assumption | apply State.modWdt_keeps | apply State.modPanel_keeps | apply State.each_keeps | refine Keeps.ite (fun _ => ?_) (fun _ => ?_) | intro _ | refine Keeps.upd rfl (fun _ => rfl) id id id id id id id ?_)

theorem State.silentOut_keeps {ba : Bool} {z0 s : State} (f : StartFacts) (hk : Keeps ba z0 s) :
    Keeps ba z0 (State.silentOut s f) := by
  unfold State.silentOut; try dsimp only
  repeat' with_reducible (first | assumption | apply State.siteFaulty_keeps | apply State.loseStack_keeps | apply State.each_keeps | intro _)

theorem State.mediaStart_keeps {ba : Bool} {z0 s : State} (hk : Keeps ba z0 s) :
    Keeps ba z0 (State.mediaStart s) := by
  unfold State.mediaStart; try dsimp only
  repeat' with_reducible (first | assumption | apply State.modPort_keeps | apply State.each_keeps | intro _ | refine Keeps.upd rfl (fun _ => rfl) id id id id id id id ?_)

theorem State.storeStart_keeps {ba : Bool} {z0 s0 : State} (f : StartFacts) (hk : Keeps ba z0 s0) :
    Keeps ba z0 (State.storeStart s0 f) := by
  unfold State.storeStart; try dsimp only
  repeat' with_reducible (first | assumption | apply State.modNvm_keeps | refine Keeps.ite (fun _ => ?_) (fun _ => ?_) | split | refine Keeps.upd rfl (fun _ => rfl) id id id id id id id ?_)

theorem State.unreached_keeps {ba : Bool} {z0 s : State} (unit : Nat) (hk : Keeps ba z0 s) :
    Keeps ba z0 (State.unreached s unit) := by
  unfold State.unreached; try dsimp only
  repeat' with_reducible (first | assumption | apply State.retireSite_keeps | apply State.gatewayServicesOut_keeps | apply State.modWdt_keeps | apply State.loseStack_keeps | refine Keeps.ite (fun _ => ?_) (fun _ => ?_) | split | refine Keeps.upd rfl (fun _ => rfl) id id id id id id id ?_)

theorem State.imagesStart_keeps {ba : Bool} {z0 s : State} (f : StartFacts) (hk : Keeps ba z0 s) :
    Keeps ba z0 (State.imagesStart s f) := by
  unfold State.imagesStart; try dsimp only
  repeat' with_reducible (first | assumption | apply State.unreached_keeps | apply State.modBoot_keeps | apply State.modSec_keeps | apply State.inForce_keeps | apply State.raise_keeps | apply State.each_keeps | refine Keeps.ite (fun _ => ?_) (fun _ => ?_) | intro _ | refine Keeps.upd rfl (fun _ => rfl) id id id id id id id ?_)

theorem State.takeRecord_keeps {ba : Bool} {z0 s : State} (r : MapRecord) (b : Bool) (memory : Bool) (hk : Keeps ba z0 s) :
    Keeps ba z0 (State.takeRecord s r b memory) := by
  unfold State.takeRecord; try dsimp only
  repeat' with_reducible (first | assumption | apply State.modPanel_keeps | refine Keeps.ite (fun _ => ?_) (fun _ => ?_) | refine Keeps.upd rfl (fun _ => rfl) id id id id id id id ?_)

theorem State.restStart_keeps {ba : Bool} {z0 s : State} (hk : Keeps ba z0 s) :
    Keeps ba z0 (State.restStart s) := by
  unfold State.restStart; try dsimp only
  repeat' with_reducible (first | assumption | apply State.modPanel_keeps | refine Keeps.upd rfl (fun _ => rfl) id id id id id id id ?_)

theorem State.stacksStart_keeps {ba : Bool} {z0 s : State} (spares : Tab Nat) (hk : Keeps ba z0 s) :
    Keeps ba z0 (State.stacksStart s spares) := by
  unfold State.stacksStart; try dsimp only
  repeat' with_reducible (first | assumption | apply State.ready_keeps | apply State.loseStack_keeps | apply State.modStack_keeps | apply State.each_keeps | intro _ | refine Keeps.upd rfl (fun _ => rfl) id id id id id id id ?_)

theorem State.bindStart_keeps {ba : Bool} {z0 s : State} (hk : Keeps ba z0 s) :
    Keeps ba z0 (State.bindStart s) := by
  unfold State.bindStart; try dsimp only
  repeat' with_reducible (first | assumption | apply State.rebind_keeps | apply State.unbindDie_keeps | apply State.modPanel_keeps | apply foldl_keeps | refine Keeps.ite (fun _ => ?_) (fun _ => ?_) | intro _ | refine Keeps.upd rfl (fun _ => rfl) id id id id id id id ?_)

theorem State.confirm_keeps {ba : Bool} {z0 s : State} (r : MapRecord) (hk : Keeps ba z0 s) :
    Keeps ba z0 (State.confirm s r) := by
  unfold State.confirm; try dsimp only
  repeat' with_reducible (first | assumption | exact id | apply State.bindStart_keeps | apply State.restStart_keeps | apply State.migrate_keeps | apply State.inForce_keeps | apply State.setSetpoints_keeps | apply State.modClk_keeps | apply State.ready_keeps | apply State.dress_keeps | apply State.commitRecord_keeps | apply State.modPanel_keeps | apply State.raise_keeps | apply State.each_keeps | refine Keeps.ite (fun _ => ?_) (fun _ => ?_) | intro _ | refine Keeps.upd rfl (fun _ => rfl) id id id id id id id ?_)

theorem State.bringUp_keeps {z0 s : State} (f : StartFacts) (codeA : Nat) (codeB : Nat) (hk : Keeps false z0 s) :
    Keeps false z0 (State.bringUp s f codeA codeB) := by
  unfold State.bringUp; try dsimp only
  repeat' with_reducible (first | assumption | apply State.confirm_keeps | apply State.stacksStart_keeps | apply State.takeRecord_keeps | apply State.imagesStart_keeps | apply State.storeStart_keeps | apply State.mediaStart_keeps | apply State.silentOut_keeps | apply State.commonStart_keeps | apply State.clockStart_keeps | apply State.qualify_keeps | apply State.chansStart_keeps | apply State.bootStat_keeps | apply State.d2dEvent_keeps | apply State.advanceFuses_keeps | apply State.bistRan_keeps | apply State.bistFix_keeps | apply State.linkDead_keeps | apply State.inForce_keeps | apply State.ready_keeps | apply State.attachAnew_keeps | apply State.raise_keeps | apply foldl_keeps | refine Keeps.ite (fun _ => ?_) (fun _ => ?_) | split | intro _)

theorem execColdStart_keeps {z0 s : State} (facts : StartFacts) (hk : Keeps false z0 s) : OKeeps false z0 (execColdStart facts s) := by
  unfold execColdStart
  refine OKeeps.ite (fun _ => OKeeps.next hk) (fun _ => ?_)
  extract_lets s1 m1 s2 s3 image a b code s4 q4
  have h1 : Keeps false z0 s1 := State.firmware_keeps _ (State.settingsStart_keeps (State.routersStart_keeps (State.each_keeps _ _ (fun _ _ h => State.ergStart_keeps _ _ h) hk)))
  clear_value s1 m1
  have h2 : Keeps false z0 s2 := Keeps.upd (s := s1) rfl nofun id id id id id id id h1
  clear_value s2
  have h3 : Keeps false z0 s3 := State.each_keeps _ _ (fun _ _ h => State.jistoStart_keeps _ _ h) h2
  clear_value s3
  have h4 : Keeps false z0 s4 := State.bootStat_keeps _ _ _ _ h3
  clear_value s4
  refine OKeeps.ite (fun _ => OKeeps.next ?_) (fun _ => OKeeps.next ?_)
  · exact Keeps.upd (s := s4) rfl nofun id id id id id id id h4
  · exact State.bringUp_keeps _ _ _ (State.stewardsStart_keeps _ _ h3)

end Sys2Proof.Machine
end

