-- ==== Sys2Proof/Laws/KeepsCoreCtl.lean ====
section
/-! SUPPORT. What the operations of Machine/CoreCtl.lean keep. -/

namespace Sys2Proof.Machine

open Sys2Proof

theorem execHeldBundleIssue_keeps {ba : Bool} {z0 s : State} (p : PCore) (hk : Keeps ba z0 s) :
    OKeeps ba z0 (execHeldBundleIssue p s) := by
  unfold execHeldBundleIssue; try dsimp only
  repeat' with_reducible (first | assumption | apply State.serveOn_keeps | apply OKeeps.next)

theorem execHoldExpiry_keeps {ba : Bool} {z0 s : State} (p : PCore) (hk : Keeps ba z0 s) :
    OKeeps ba z0 (execHoldExpiry p s) := by
  unfold execHoldExpiry; try dsimp only
  repeat' with_reducible (first | assumption | apply State.issueBundle_keeps | apply OKeeps.next)

theorem execStop_keeps {ba : Bool} {z0 s : State} (p : PCore) (hold : BitVec 5) (hk : Keeps ba z0 s) :
    OKeeps ba z0 (execStop p hold s) := by
  unfold execStop; try dsimp only
  repeat' with_reducible (first | assumption | apply State.issueBundle_keeps | apply State.sync_keeps | apply State.advance_keeps | apply OKeeps.next | split)

theorem execPageMark_keeps {ba : Bool} {z0 s : State} (p : PCore) (hold : BitVec 5) (hk : Keeps ba z0 s) :
    OKeeps ba z0 (execPageMark p hold s) := by
  unfold execPageMark; try dsimp only
  repeat' with_reducible (first | assumption | apply State.issueBundle_keeps | apply OKeeps.next)

theorem execTsyncArrival_keeps {ba : Bool} {z0 s : State} (p : PCore) (hk : Keeps ba z0 s) :
    OKeeps ba z0 (execTsyncArrival p s) := by
  unfold execTsyncArrival; try dsimp only
  repeat' with_reducible (first | assumption | apply State.sync_keeps | apply State.advance_keeps | apply OKeeps.next | split)

theorem execPageinComplete_keeps {ba : Bool} {z0 s : State} (p : PCore) (hk : Keeps ba z0 s) :
    OKeeps ba z0 (execPageinComplete p s) := by
  unfold execPageinComplete; try dsimp only
  repeat' with_reducible (first | assumption | apply State.sync_keeps | apply State.syncCtx_keeps | apply State.advance_keeps | apply OKeeps.next | split)

theorem execCoreHwCheck_keeps {ba : Bool} {z0 s : State} (p : PCore) (hk : Keeps ba z0 s) :
    OKeeps ba z0 (execCoreHwCheck p s) := by
  unfold execCoreHwCheck; try dsimp only
  repeat' with_reducible (first | assumption | apply State.sync_keeps | apply State.recordOffBundle_keeps | apply OKeeps.next | refine Keeps.ite (fun _ => ?_) (fun _ => ?_) | refine OKeeps.ite (fun _ => ?_) (fun _ => ?_))

theorem execHold_keeps {ba : Bool} {z0 s : State} (p : PCore) (hk : Keeps ba z0 s) :
    OKeeps ba z0 (execHold p s) := by
  unfold execHold; try dsimp only
  repeat' with_reducible (first | assumption | apply State.sync_keeps | apply State.modStat_keeps | apply State.modPipe_keeps | apply OKeeps.next | refine Keeps.ite (fun _ => ?_) (fun _ => ?_) | refine OKeeps.ite (fun _ => ?_) (fun _ => ?_) | refine Keeps.upd rfl (fun _ => rfl) id id id id id id id ?_)

theorem execResume_keeps {ba : Bool} {z0 s : State} (p : PCore) (hk : Keeps ba z0 s) :
    OKeeps ba z0 (execResume p s) := by
  unfold execResume; try dsimp only
  repeat' with_reducible (first | assumption | apply State.sync_keeps | apply State.modPipe_keeps | apply State.setCore_keeps | apply OKeeps.next | refine Keeps.ite (fun _ => ?_) (fun _ => ?_) | refine OKeeps.ite (fun _ => ?_) (fun _ => ?_) | refine Keeps.upd rfl (fun _ => rfl) id id id id id id id ?_)

theorem execSelfcheck_keeps {ba : Bool} {z0 s : State} (p : PCore) (hk : Keeps ba z0 s) :
    OKeeps ba z0 (execSelfcheck p s) := by
  unfold execSelfcheck; try dsimp only
  repeat' with_reducible (first | assumption | apply State.sync_keeps | apply State.setCore_keeps | apply OKeeps.next | refine Keeps.ite (fun _ => ?_) (fun _ => ?_) | refine OKeeps.ite (fun _ => ?_) (fun _ => ?_) | refine Keeps.upd rfl (fun _ => rfl) id id id id id id id ?_)

end Sys2Proof.Machine
end

