-- ==== Sys2Proof/Laws/KeepsCtrl.lean ====
section
/-! SUPPORT. What the operations of Machine/Ctrl.lean keep. -/

namespace Sys2Proof.Machine

open Sys2Proof

theorem execNop_keeps {ba : Bool} {z0 s : State} (p : PCore) (h : Header) (g : BitVec 5) (hk : Keeps ba z0 s) :
    OKeeps ba z0 (execNop p h g s) := by
  unfold execNop; try dsimp only
  repeat' with_reducible (first | assumption | apply State.issueBundle_keeps | apply OKeeps.next)

theorem execMovi_keeps {ba : Bool} {z0 s : State} (p : PCore) (h : Header) (g : BitVec 5) (dst : BitVec 5) (imm : BitVec 16) (hk : Keeps ba z0 s) :
    OKeeps ba z0 (execMovi p h g dst imm s) := by
  unfold execMovi; try dsimp only
  repeat' with_reducible (first | assumption | apply State.issueBundle_keeps | apply OKeeps.next)

theorem execMovhi_keeps {ba : Bool} {z0 s : State} (p : PCore) (h : Header) (g : BitVec 5) (dst : BitVec 5) (imm : BitVec 16) (hk : Keeps ba z0 s) :
    OKeeps ba z0 (execMovhi p h g dst imm s) := by
  unfold execMovhi; try dsimp only
  repeat' with_reducible (first | assumption | apply State.issueBundle_keeps | apply OKeeps.next)

theorem execAddi_keeps {ba : Bool} {z0 s : State} (p : PCore) (h : Header) (g : BitVec 5) (dst : BitVec 5) (imm : BitVec 16) (hk : Keeps ba z0 s) :
    OKeeps ba z0 (execAddi p h g dst imm s) := by
  unfold execAddi; try dsimp only
  repeat' with_reducible (first | assumption | apply State.issueBundle_keeps | apply OKeeps.next)

theorem execAluAdd_keeps {ba : Bool} {z0 s : State} (p : PCore) (h : Header) (g : BitVec 5) (dst : BitVec 5) (s1 : BitVec 5) (s2 : BitVec 5) (hk : Keeps ba z0 s) :
    OKeeps ba z0 (execAluAdd p h g dst s1 s2 s) := by
  unfold execAluAdd; try dsimp only
  repeat' with_reducible (first | assumption | apply State.issueBundle_keeps | apply OKeeps.next)

theorem execAluSub_keeps {ba : Bool} {z0 s : State} (p : PCore) (h : Header) (g : BitVec 5) (dst : BitVec 5) (s1 : BitVec 5) (s2 : BitVec 5) (hk : Keeps ba z0 s) :
    OKeeps ba z0 (execAluSub p h g dst s1 s2 s) := by
  unfold execAluSub; try dsimp only
  repeat' with_reducible (first | assumption | apply State.issueBundle_keeps | apply OKeeps.next)

theorem execAluMul_keeps {ba : Bool} {z0 s : State} (p : PCore) (h : Header) (g : BitVec 5) (dst : BitVec 5) (s1 : BitVec 5) (s2 : BitVec 5) (hk : Keeps ba z0 s) :
    OKeeps ba z0 (execAluMul p h g dst s1 s2 s) := by
  unfold execAluMul; try dsimp only
  repeat' with_reducible (first | assumption | apply State.issueBundle_keeps | apply OKeeps.next)

theorem execAluAnd_keeps {ba : Bool} {z0 s : State} (p : PCore) (h : Header) (g : BitVec 5) (dst : BitVec 5) (s1 : BitVec 5) (s2 : BitVec 5) (hk : Keeps ba z0 s) :
    OKeeps ba z0 (execAluAnd p h g dst s1 s2 s) := by
  unfold execAluAnd; try dsimp only
  repeat' with_reducible (first | assumption | apply State.issueBundle_keeps | apply OKeeps.next)

theorem execAluOr_keeps {ba : Bool} {z0 s : State} (p : PCore) (h : Header) (g : BitVec 5) (dst : BitVec 5) (s1 : BitVec 5) (s2 : BitVec 5) (hk : Keeps ba z0 s) :
    OKeeps ba z0 (execAluOr p h g dst s1 s2 s) := by
  unfold execAluOr; try dsimp only
  repeat' with_reducible (first | assumption | apply State.issueBundle_keeps | apply OKeeps.next)

theorem execAluXor_keeps {ba : Bool} {z0 s : State} (p : PCore) (h : Header) (g : BitVec 5) (dst : BitVec 5) (s1 : BitVec 5) (s2 : BitVec 5) (hk : Keeps ba z0 s) :
    OKeeps ba z0 (execAluXor p h g dst s1 s2 s) := by
  unfold execAluXor; try dsimp only
  repeat' with_reducible (first | assumption | apply State.issueBundle_keeps | apply OKeeps.next)

theorem execAluShl_keeps {ba : Bool} {z0 s : State} (p : PCore) (h : Header) (g : BitVec 5) (dst : BitVec 5) (s1 : BitVec 5) (s2 : BitVec 5) (hk : Keeps ba z0 s) :
    OKeeps ba z0 (execAluShl p h g dst s1 s2 s) := by
  unfold execAluShl; try dsimp only
  repeat' with_reducible (first | assumption | apply State.issueBundle_keeps | apply OKeeps.next)

theorem execAluShr_keeps {ba : Bool} {z0 s : State} (p : PCore) (h : Header) (g : BitVec 5) (dst : BitVec 5) (s1 : BitVec 5) (s2 : BitVec 5) (hk : Keeps ba z0 s) :
    OKeeps ba z0 (execAluShr p h g dst s1 s2 s) := by
  unfold execAluShr; try dsimp only
  repeat' with_reducible (first | assumption | apply State.issueBundle_keeps | apply OKeeps.next)

theorem execAluSra_keeps {ba : Bool} {z0 s : State} (p : PCore) (h : Header) (g : BitVec 5) (dst : BitVec 5) (s1 : BitVec 5) (s2 : BitVec 5) (hk : Keeps ba z0 s) :
    OKeeps ba z0 (execAluSra p h g dst s1 s2 s) := by
  unfold execAluSra; try dsimp only
  repeat' with_reducible (first | assumption | apply State.issueBundle_keeps | apply OKeeps.next)

theorem execAluMin_keeps {ba : Bool} {z0 s : State} (p : PCore) (h : Header) (g : BitVec 5) (dst : BitVec 5) (s1 : BitVec 5) (s2 : BitVec 5) (hk : Keeps ba z0 s) :
    OKeeps ba z0 (execAluMin p h g dst s1 s2 s) := by
  unfold execAluMin; try dsimp only
  repeat' with_reducible (first | assumption | apply State.issueBundle_keeps | apply OKeeps.next)

theorem execAluMax_keeps {ba : Bool} {z0 s : State} (p : PCore) (h : Header) (g : BitVec 5) (dst : BitVec 5) (s1 : BitVec 5) (s2 : BitVec 5) (hk : Keeps ba z0 s) :
    OKeeps ba z0 (execAluMax p h g dst s1 s2 s) := by
  unfold execAluMax; try dsimp only
  repeat' with_reducible (first | assumption | apply State.issueBundle_keeps | apply OKeeps.next)

theorem execAluMinu_keeps {ba : Bool} {z0 s : State} (p : PCore) (h : Header) (g : BitVec 5) (dst : BitVec 5) (s1 : BitVec 5) (s2 : BitVec 5) (hk : Keeps ba z0 s) :
    OKeeps ba z0 (execAluMinu p h g dst s1 s2 s) := by
  unfold execAluMinu; try dsimp only
  repeat' with_reducible (first | assumption | apply State.issueBundle_keeps | apply OKeeps.next)

theorem execAluMaxu_keeps {ba : Bool} {z0 s : State} (p : PCore) (h : Header) (g : BitVec 5) (dst : BitVec 5) (s1 : BitVec 5) (s2 : BitVec 5) (hk : Keeps ba z0 s) :
    OKeeps ba z0 (execAluMaxu p h g dst s1 s2 s) := by
  unfold execAluMaxu; try dsimp only
  repeat' with_reducible (first | assumption | apply State.issueBundle_keeps | apply OKeeps.next)

theorem execAluFadd_keeps {ba : Bool} {z0 s : State} (p : PCore) (h : Header) (g : BitVec 5) (dst : BitVec 5) (s1 : BitVec 5) (s2 : BitVec 5) (hk : Keeps ba z0 s) :
    OKeeps ba z0 (execAluFadd p h g dst s1 s2 s) := by
  unfold execAluFadd; try dsimp only
  repeat' with_reducible (first | assumption | apply State.issueBundle_keeps | apply OKeeps.next)

theorem execAluFsub_keeps {ba : Bool} {z0 s : State} (p : PCore) (h : Header) (g : BitVec 5) (dst : BitVec 5) (s1 : BitVec 5) (s2 : BitVec 5) (hk : Keeps ba z0 s) :
    OKeeps ba z0 (execAluFsub p h g dst s1 s2 s) := by
  unfold execAluFsub; try dsimp only
  repeat' with_reducible (first | assumption | apply State.issueBundle_keeps | apply OKeeps.next)

theorem execAluFmul_keeps {ba : Bool} {z0 s : State} (p : PCore) (h : Header) (g : BitVec 5) (dst : BitVec 5) (s1 : BitVec 5) (s2 : BitVec 5) (hk : Keeps ba z0 s) :
    OKeeps ba z0 (execAluFmul p h g dst s1 s2 s) := by
  unfold execAluFmul; try dsimp only
  repeat' with_reducible (first | assumption | apply State.issueBundle_keeps | apply OKeeps.next)

theorem execAluFmin_keeps {ba : Bool} {z0 s : State} (p : PCore) (h : Header) (g : BitVec 5) (dst : BitVec 5) (s1 : BitVec 5) (s2 : BitVec 5) (hk : Keeps ba z0 s) :
    OKeeps ba z0 (execAluFmin p h g dst s1 s2 s) := by
  unfold execAluFmin; try dsimp only
  repeat' with_reducible (first | assumption | apply State.issueBundle_keeps | apply OKeeps.next)

theorem execAluFmax_keeps {ba : Bool} {z0 s : State} (p : PCore) (h : Header) (g : BitVec 5) (dst : BitVec 5) (s1 : BitVec 5) (s2 : BitVec 5) (hk : Keeps ba z0 s) :
    OKeeps ba z0 (execAluFmax p h g dst s1 s2 s) := by
  unfold execAluFmax; try dsimp only
  repeat' with_reducible (first | assumption | apply State.issueBundle_keeps | apply OKeeps.next)

theorem execCmpEq_keeps {ba : Bool} {z0 s : State} (p : PCore) (h : Header) (g : BitVec 5) (dst : BitVec 5) (s1 : BitVec 5) (s2 : BitVec 5) (hk : Keeps ba z0 s) :
    OKeeps ba z0 (execCmpEq p h g dst s1 s2 s) := by
  unfold execCmpEq; try dsimp only
  repeat' with_reducible (first | assumption | apply State.issueBundle_keeps | apply OKeeps.next)

theorem execCmpNe_keeps {ba : Bool} {z0 s : State} (p : PCore) (h : Header) (g : BitVec 5) (dst : BitVec 5) (s1 : BitVec 5) (s2 : BitVec 5) (hk : Keeps ba z0 s) :
    OKeeps ba z0 (execCmpNe p h g dst s1 s2 s) := by
  unfold execCmpNe; try dsimp only
  repeat' with_reducible (first | assumption | apply State.issueBundle_keeps | apply OKeeps.next)

theorem execCmpLt_keeps {ba : Bool} {z0 s : State} (p : PCore) (h : Header) (g : BitVec 5) (dst : BitVec 5) (s1 : BitVec 5) (s2 : BitVec 5) (hk : Keeps ba z0 s) :
    OKeeps ba z0 (execCmpLt p h g dst s1 s2 s) := by
  unfold execCmpLt; try dsimp only
  repeat' with_reducible (first | assumption | apply State.issueBundle_keeps | apply OKeeps.next)

theorem execCmpLe_keeps {ba : Bool} {z0 s : State} (p : PCore) (h : Header) (g : BitVec 5) (dst : BitVec 5) (s1 : BitVec 5) (s2 : BitVec 5) (hk : Keeps ba z0 s) :
    OKeeps ba z0 (execCmpLe p h g dst s1 s2 s) := by
  unfold execCmpLe; try dsimp only
  repeat' with_reducible (first | assumption | apply State.issueBundle_keeps | apply OKeeps.next)

theorem execCmpLtu_keeps {ba : Bool} {z0 s : State} (p : PCore) (h : Header) (g : BitVec 5) (dst : BitVec 5) (s1 : BitVec 5) (s2 : BitVec 5) (hk : Keeps ba z0 s) :
    OKeeps ba z0 (execCmpLtu p h g dst s1 s2 s) := by
  unfold execCmpLtu; try dsimp only
  repeat' with_reducible (first | assumption | apply State.issueBundle_keeps | apply OKeeps.next)

theorem execCmpLeu_keeps {ba : Bool} {z0 s : State} (p : PCore) (h : Header) (g : BitVec 5) (dst : BitVec 5) (s1 : BitVec 5) (s2 : BitVec 5) (hk : Keeps ba z0 s) :
    OKeeps ba z0 (execCmpLeu p h g dst s1 s2 s) := by
  unfold execCmpLeu; try dsimp only
  repeat' with_reducible (first | assumption | apply State.issueBundle_keeps | apply OKeeps.next)

theorem execCmpFeq_keeps {ba : Bool} {z0 s : State} (p : PCore) (h : Header) (g : BitVec 5) (dst : BitVec 5) (s1 : BitVec 5) (s2 : BitVec 5) (hk : Keeps ba z0 s) :
    OKeeps ba z0 (execCmpFeq p h g dst s1 s2 s) := by
  unfold execCmpFeq; try dsimp only
  repeat' with_reducible (first | assumption | apply State.issueBundle_keeps | apply OKeeps.next)

theorem execCmpFlt_keeps {ba : Bool} {z0 s : State} (p : PCore) (h : Header) (g : BitVec 5) (dst : BitVec 5) (s1 : BitVec 5) (s2 : BitVec 5) (hk : Keeps ba z0 s) :
    OKeeps ba z0 (execCmpFlt p h g dst s1 s2 s) := by
  unfold execCmpFlt; try dsimp only
  repeat' with_reducible (first | assumption | apply State.issueBundle_keeps | apply OKeeps.next)

theorem execCmpFle_keeps {ba : Bool} {z0 s : State} (p : PCore) (h : Header) (g : BitVec 5) (dst : BitVec 5) (s1 : BitVec 5) (s2 : BitVec 5) (hk : Keeps ba z0 s) :
    OKeeps ba z0 (execCmpFle p h g dst s1 s2 s) := by
  unfold execCmpFle; try dsimp only
  repeat' with_reducible (first | assumption | apply State.issueBundle_keeps | apply OKeeps.next)

theorem execCmpNan_keeps {ba : Bool} {z0 s : State} (p : PCore) (h : Header) (g : BitVec 5) (dst : BitVec 5) (s1 : BitVec 5) (s2 : BitVec 5) (hk : Keeps ba z0 s) :
    OKeeps ba z0 (execCmpNan p h g dst s1 s2 s) := by
  unfold execCmpNan; try dsimp only
  repeat' with_reducible (first | assumption | apply State.issueBundle_keeps | apply OKeeps.next)

theorem execPlogAnd_keeps {ba : Bool} {z0 s : State} (p : PCore) (h : Header) (g : BitVec 5) (dst : BitVec 5) (s1 : BitVec 5) (s2 : BitVec 5) (hk : Keeps ba z0 s) :
    OKeeps ba z0 (execPlogAnd p h g dst s1 s2 s) := by
  unfold execPlogAnd; try dsimp only
  repeat' with_reducible (first | assumption | apply State.issueBundle_keeps | apply OKeeps.next)

theorem execPlogOr_keeps {ba : Bool} {z0 s : State} (p : PCore) (h : Header) (g : BitVec 5) (dst : BitVec 5) (s1 : BitVec 5) (s2 : BitVec 5) (hk : Keeps ba z0 s) :
    OKeeps ba z0 (execPlogOr p h g dst s1 s2 s) := by
  unfold execPlogOr; try dsimp only
  repeat' with_reducible (first | assumption | apply State.issueBundle_keeps | apply OKeeps.next)

theorem execPlogXor_keeps {ba : Bool} {z0 s : State} (p : PCore) (h : Header) (g : BitVec 5) (dst : BitVec 5) (s1 : BitVec 5) (s2 : BitVec 5) (hk : Keeps ba z0 s) :
    OKeeps ba z0 (execPlogXor p h g dst s1 s2 s) := by
  unfold execPlogXor; try dsimp only
  repeat' with_reducible (first | assumption | apply State.issueBundle_keeps | apply OKeeps.next)

theorem execPlogAndn_keeps {ba : Bool} {z0 s : State} (p : PCore) (h : Header) (g : BitVec 5) (dst : BitVec 5) (s1 : BitVec 5) (s2 : BitVec 5) (hk : Keeps ba z0 s) :
    OKeeps ba z0 (execPlogAndn p h g dst s1 s2 s) := by
  unfold execPlogAndn; try dsimp only
  repeat' with_reducible (first | assumption | apply State.issueBundle_keeps | apply OKeeps.next)

theorem execPlogNot_keeps {ba : Bool} {z0 s : State} (p : PCore) (h : Header) (g : BitVec 5) (dst : BitVec 5) (s1 : BitVec 5) (hk : Keeps ba z0 s) :
    OKeeps ba z0 (execPlogNot p h g dst s1 s) := by
  unfold execPlogNot; try dsimp only
  repeat' with_reducible (first | assumption | apply State.issueBundle_keeps | apply OKeeps.next)

theorem execPlogMov_keeps {ba : Bool} {z0 s : State} (p : PCore) (h : Header) (g : BitVec 5) (dst : BitVec 5) (s1 : BitVec 5) (hk : Keeps ba z0 s) :
    OKeeps ba z0 (execPlogMov p h g dst s1 s) := by
  unfold execPlogMov; try dsimp only
  repeat' with_reducible (first | assumption | apply State.issueBundle_keeps | apply OKeeps.next)

theorem execPlogAny_keeps {ba : Bool} {z0 s : State} (p : PCore) (h : Header) (g : BitVec 5) (dst : BitVec 5) (s1 : BitVec 5) (hk : Keeps ba z0 s) :
    OKeeps ba z0 (execPlogAny p h g dst s1 s) := by
  unfold execPlogAny; try dsimp only
  repeat' with_reducible (first | assumption | apply State.issueBundle_keeps | apply OKeeps.next)

theorem execPlogAll_keeps {ba : Bool} {z0 s : State} (p : PCore) (h : Header) (g : BitVec 5) (dst : BitVec 5) (s1 : BitVec 5) (hk : Keeps ba z0 s) :
    OKeeps ba z0 (execPlogAll p h g dst s1 s) := by
  unfold execPlogAll; try dsimp only
  repeat' with_reducible (first | assumption | apply State.issueBundle_keeps | apply OKeeps.next)

theorem execPlogSetall_keeps {ba : Bool} {z0 s : State} (p : PCore) (h : Header) (g : BitVec 5) (dst : BitVec 5) (hk : Keeps ba z0 s) :
    OKeeps ba z0 (execPlogSetall p h g dst s) := by
  unfold execPlogSetall; try dsimp only
  repeat' with_reducible (first | assumption | apply State.issueBundle_keeps | apply OKeeps.next)

theorem execPlogClrall_keeps {ba : Bool} {z0 s : State} (p : PCore) (h : Header) (g : BitVec 5) (dst : BitVec 5) (hk : Keeps ba z0 s) :
    OKeeps ba z0 (execPlogClrall p h g dst s) := by
  unfold execPlogClrall; try dsimp only
  repeat' with_reducible (first | assumption | apply State.issueBundle_keeps | apply OKeeps.next)

theorem execJmp_keeps {ba : Bool} {z0 s : State} (p : PCore) (h : Header) (g : BitVec 5) (imm : BitVec 21) (hk : Keeps ba z0 s) :
    OKeeps ba z0 (execJmp p h g imm s) := by
  unfold execJmp; try dsimp only
  repeat' with_reducible (first | assumption | apply State.issueBundle_keeps | apply OKeeps.next)

theorem execJmpr_keeps {ba : Bool} {z0 s : State} (p : PCore) (h : Header) (g : BitVec 5) (s1 : BitVec 5) (hk : Keeps ba z0 s) :
    OKeeps ba z0 (execJmpr p h g s1 s) := by
  unfold execJmpr; try dsimp only
  repeat' with_reducible (first | assumption | apply State.issueBundle_keeps | apply OKeeps.next)

theorem execLoop_keeps {ba : Bool} {z0 s : State} (p : PCore) (h : Header) (g : BitVec 5) (dst : BitVec 5) (imm : BitVec 16) (hk : Keeps ba z0 s) :
    OKeeps ba z0 (execLoop p h g dst imm s) := by
  unfold execLoop; try dsimp only
  repeat' with_reducible (first | assumption | apply State.issueBundle_keeps | apply OKeeps.next)

theorem execTsync_keeps {ba : Bool} {z0 s : State} (p : PCore) (h : Header) (g : BitVec 5) (imm : BitVec 21) (hk : Keeps ba z0 s) :
    OKeeps ba z0 (execTsync p h g imm s) := by
  unfold execTsync; try dsimp only
  repeat' with_reducible (first | assumption | apply State.issueBundle_keeps | apply OKeeps.next)

theorem execAccswap_keeps {ba : Bool} {z0 s : State} (p : PCore) (h : Header) (g : BitVec 5) (hk : Keeps ba z0 s) :
    OKeeps ba z0 (execAccswap p h g s) := by
  unfold execAccswap; try dsimp only
  repeat' with_reducible (first | assumption | apply State.issueBundle_keeps | apply OKeeps.next)

theorem execPagein_keeps {ba : Bool} {z0 s : State} (p : PCore) (h : Header) (g : BitVec 5) (imm : BitVec 21) (hk : Keeps ba z0 s) :
    OKeeps ba z0 (execPagein p h g imm s) := by
  unfold execPagein; try dsimp only
  repeat' with_reducible (first | assumption | apply State.issueBundle_keeps | apply OKeeps.next)

theorem execLoadhint_keeps {ba : Bool} {z0 s : State} (p : PCore) (h : Header) (g : BitVec 5) (imm : BitVec 21) (hk : Keeps ba z0 s) :
    OKeeps ba z0 (execLoadhint p h g imm s) := by
  unfold execLoadhint; try dsimp only
  repeat' with_reducible (first | assumption | apply State.issueBundle_keeps | apply OKeeps.next)

theorem execSrseed_keeps {ba : Bool} {z0 s : State} (p : PCore) (h : Header) (g : BitVec 5) (s1 : BitVec 5) (s2 : BitVec 5) (hk : Keeps ba z0 s) :
    OKeeps ba z0 (execSrseed p h g s1 s2 s) := by
  unfold execSrseed; try dsimp only
  repeat' with_reducible (first | assumption | apply State.issueBundle_keeps | apply OKeeps.next)

theorem execWaitstr_keeps {ba : Bool} {z0 s : State} (p : PCore) (h : Header) (g : BitVec 5) (dst : BitVec 5) (s1 : BitVec 5) (fn : BitVec 6) (hk : Keeps ba z0 s) :
    OKeeps ba z0 (execWaitstr p h g dst s1 fn s) := by
  unfold execWaitstr; try dsimp only
  repeat' with_reducible (first | assumption | apply State.issueBundle_keeps | apply OKeeps.next)

theorem execWaitstrRelease_keeps {ba : Bool} {z0 s : State} (p : PCore) (hk : Keeps ba z0 s) :
    OKeeps ba z0 (execWaitstrRelease p s) := by
  unfold execWaitstrRelease; try dsimp only
  repeat' with_reducible (first | assumption | apply State.firstRequest_keeps | apply State.sync_keeps | apply State.syncCtx_keeps | apply State.modPipe_keeps | apply State.modCtl_keeps | apply OKeeps.next | refine Keeps.ite (fun _ => ?_) (fun _ => ?_) | refine OKeeps.ite (fun _ => ?_) (fun _ => ?_) | split | refine Keeps.upd rfl (fun _ => rfl) id id id id id id id ?_)

theorem execStrcnt_keeps {ba : Bool} {z0 s : State} (p : PCore) (h : Header) (g : BitVec 5) (dst : BitVec 5) (fn : BitVec 6) (hk : Keeps ba z0 s) :
    OKeeps ba z0 (execStrcnt p h g dst fn s) := by
  unfold execStrcnt; try dsimp only
  repeat' with_reducible (first | assumption | apply State.issueBundle_keeps | apply OKeeps.next)

theorem execCsrrdLcore_keeps {ba : Bool} {z0 s : State} (p : PCore) (h : Header) (g : BitVec 5) (dst : BitVec 5) (hk : Keeps ba z0 s) :
    OKeeps ba z0 (execCsrrdLcore p h g dst s) := by
  unfold execCsrrdLcore; try dsimp only
  repeat' with_reducible (first | assumption | apply State.issueBundle_keeps | apply OKeeps.next)

theorem execCsrrdTickLo_keeps {ba : Bool} {z0 s : State} (p : PCore) (h : Header) (g : BitVec 5) (dst : BitVec 5) (hk : Keeps ba z0 s) :
    OKeeps ba z0 (execCsrrdTickLo p h g dst s) := by
  unfold execCsrrdTickLo; try dsimp only
  repeat' with_reducible (first | assumption | apply State.issueBundle_keeps | apply OKeeps.next)

theorem execCsrrdTickHi_keeps {ba : Bool} {z0 s : State} (p : PCore) (h : Header) (g : BitVec 5) (dst : BitVec 5) (hk : Keeps ba z0 s) :
    OKeeps ba z0 (execCsrrdTickHi p h g dst s) := by
  unfold execCsrrdTickHi; try dsimp only
  repeat' with_reducible (first | assumption | apply State.issueBundle_keeps | apply OKeeps.next)

theorem execCsrrdCycle_keeps {ba : Bool} {z0 s : State} (p : PCore) (h : Header) (g : BitVec 5) (dst : BitVec 5) (hk : Keeps ba z0 s) :
    OKeeps ba z0 (execCsrrdCycle p h g dst s) := by
  unfold execCsrrdCycle; try dsimp only
  repeat' with_reducible (first | assumption | apply State.issueBundle_keeps | apply OKeeps.next)

theorem execCsrrdMapGen_keeps {ba : Bool} {z0 s : State} (p : PCore) (h : Header) (g : BitVec 5) (dst : BitVec 5) (hk : Keeps ba z0 s) :
    OKeeps ba z0 (execCsrrdMapGen p h g dst s) := by
  unfold execCsrrdMapGen; try dsimp only
  repeat' with_reducible (first | assumption | apply State.issueBundle_keeps | apply OKeeps.next)

theorem execCsrrdTickLen_keeps {ba : Bool} {z0 s : State} (p : PCore) (h : Header) (g : BitVec 5) (dst : BitVec 5) (hk : Keeps ba z0 s) :
    OKeeps ba z0 (execCsrrdTickLen p h g dst s) := by
  unfold execCsrrdTickLen; try dsimp only
  repeat' with_reducible (first | assumption | apply State.issueBundle_keeps | apply OKeeps.next)

end Sys2Proof.Machine
end

