-- ==== Sys2Proof/Laws/KeepsHost.lean ====
section
/-! SUPPORT. What the operations of Machine/Host.lean keep. -/

namespace Sys2Proof.Machine

open Sys2Proof

theorem State.setTail_keeps {ba : Bool} {z0 s : State} (q : Nat) (tail : Nat) (hk : Keeps ba z0 s) :
    Keeps ba z0 (State.setTail s q tail) := by
  unfold State.setTail; try dsimp only
  repeat' with_reducible (first | assumption | apply State.modQueue_keeps | refine Keeps.ite (fun _ => ?_) (fun _ => ?_) | refine Keeps.upd rfl (fun _ => rfl) id id id id id id id ?_)

theorem execDoorbell_keeps {ba : Bool} {z0 s : State} (q : Queue) (tail : BitVec 12) (hk : Keeps ba z0 s) :
    OKeeps ba z0 (execDoorbell q tail s) := by
  unfold execDoorbell; try dsimp only
  repeat' with_reducible (first | assumption | apply State.setTail_keeps | apply OKeeps.next)

theorem State.writeQctl_keeps {ba : Bool} {z0 s : State} (q : Nat) (v : Nat) (hk : Keeps ba z0 s) :
    Keeps ba z0 (State.writeQctl s q v) := by
  unfold State.writeQctl; try dsimp only
  repeat' with_reducible (first | assumption | exact id | apply State.modQueue_keeps | apply State.modHif_keeps | refine Keeps.ite (fun _ => ?_) (fun _ => ?_) | refine Keeps.upd rfl (fun _ => rfl) id id id id id id id ?_)

theorem execHifQctlWrite_keeps {ba : Bool} {z0 s : State} (q : Queue) (value : BitVec 32) (hk : Keeps ba z0 s) :
    OKeeps ba z0 (execHifQctlWrite q value s) := by
  unfold execHifQctlWrite; try dsimp only
  repeat' with_reducible (first | assumption | apply State.writeQctl_keeps | apply OKeeps.next)

theorem State.abortCmd_keeps {ba : Bool} {z0 s : State} (tq : Nat) (ti : Nat) (q : Nat) (i : Nat) (hk : Keeps ba z0 s) :
    Keeps ba z0 (State.abortCmd s tq ti q i) := by
  unfold State.abortCmd; try dsimp only
  repeat' with_reducible (first | assumption | exact id | apply State.dropCopy_keeps | apply State.modNvm_keeps | apply State.finishCmd_keeps | apply State.endCmd_keeps | apply State.modHif_keeps | refine Keeps.ite (fun _ => ?_) (fun _ => ?_) | refine Keeps.upd rfl (fun _ => rfl) id id id id id id id ?_)

theorem State.abortJob_keeps {ba : Bool} {z0 s : State} (q : Nat) (i : Nat) (hk : Keeps ba z0 s) :
    Keeps ba z0 (State.abortJob s q i) := by
  unfold State.abortJob; try dsimp only
  repeat' with_reducible (first | assumption | apply State.closeBcast_keeps | apply State.dropXfers_keeps | apply State.reportEnd_keeps | apply State.finishJob_keeps | apply State.modStatus_keeps | apply State.each_keeps | split | intro _ | refine Keeps.upd rfl (fun _ => rfl) id id id id id id id ?_)

theorem State.actAbort_keeps {ba : Bool} {z0 s : State} (q : Nat) (i : Nat) (hk : Keeps ba z0 s) :
    Keeps ba z0 (State.actAbort s q i) := by
  unfold State.actAbort; try dsimp only
  repeat' with_reducible (first | assumption | apply State.abortJob_keeps | apply State.abortCmd_keeps | apply State.finishCmd_keeps | refine Keeps.ite (fun _ => ?_) (fun _ => ?_) | split | refine Keeps.upd rfl (fun _ => rfl) id id id id id id id ?_)

theorem State.takeSlot_keeps {ba : Bool} {z0 s : State} (q : Nat) (hk : Keeps ba z0 s) :
    Keeps ba z0 (State.takeSlot s q) := by
  unfold State.takeSlot; try dsimp only
  repeat' with_reducible (first | assumption | exact id | apply State.actAbort_keeps | apply State.modStatus_keeps | apply State.modQueue_keeps | apply State.modHif_keeps | refine Keeps.ite (fun _ => ?_) (fun _ => ?_) | refine Keeps.upd rfl (fun _ => rfl) id id id id id id id ?_)

theorem execSlotTake_keeps {ba : Bool} {z0 s : State} (q : Queue) (hk : Keeps ba z0 s) :
    OKeeps ba z0 (execSlotTake q s) := by
  unfold execSlotTake; try dsimp only
  repeat' with_reducible (first | assumption | apply State.takeSlot_keeps | apply OKeeps.next | refine Keeps.ite (fun _ => ?_) (fun _ => ?_) | refine OKeeps.ite (fun _ => ?_) (fun _ => ?_))

theorem execAbort_keeps {ba : Bool} {z0 s : State} (q : Queue) (hk : Keeps ba z0 s) :
    OKeeps ba z0 (execAbort q s) := by
  unfold execAbort; try dsimp only
  repeat' with_reducible (first | assumption | apply State.takeSlot_keeps | apply OKeeps.next | refine Keeps.ite (fun _ => ?_) (fun _ => ?_) | refine OKeeps.ite (fun _ => ?_) (fun _ => ?_))

theorem execQueueNop_keeps {ba : Bool} {z0 s : State} (q : Queue) (hk : Keeps ba z0 s) :
    OKeeps ba z0 (execQueueNop q s) := by
  unfold execQueueNop; try dsimp only
  repeat' with_reducible (first | assumption | apply State.finishCmd_keeps | apply OKeeps.next | split)

theorem State.runStart_keeps {ba : Bool} {z0 s : State} (q : Nat) (i : Nat) (desc : Option (List (BitVec 8))) (image : Option (List (BitVec 8))) (fit : Option Nat) (hk : Keeps ba z0 s) :
    Keeps ba z0 (State.runStart s q i desc image fit) := by
  unfold State.runStart; try dsimp only
  repeat' with_reducible (first | assumption | exact id | apply State.beginStart_keeps | apply State.loadJob_keeps | apply State.hostXfer_keeps | apply State.ready_keeps | apply State.finishCmd_keeps | apply State.modHif_keeps | refine Keeps.ite (fun _ => ?_) (fun _ => ?_) | refine Keeps.upd rfl (fun _ => rfl) id id id id id id id ?_)

theorem execStart_keeps {ba : Bool} {z0 s : State} (q : Queue) (desc : Option (List (BitVec 8))) (image : Option (List (BitVec 8))) (fitPass : Bool) (left : Nat) (hk : Keeps ba z0 s) :
    OKeeps ba z0 (execStart q desc image fitPass left s) := by
  unfold execStart; try dsimp only
  repeat' with_reducible (first | assumption | apply State.runStart_keeps | apply State.loadJob_keeps | apply State.dropXfers_keeps | apply OKeeps.next | refine Keeps.ite (fun _ => ?_) (fun _ => ?_) | refine OKeeps.ite (fun _ => ?_) (fun _ => ?_) | split)

theorem execStartBegin_keeps {ba : Bool} {z0 s : State} (desc : Option (List (BitVec 8))) (image : Option (List (BitVec 8))) (fitPass : Bool) (left : Nat) (hk : Keeps ba z0 s) :
    OKeeps ba z0 (execStartBegin desc image fitPass left s) := by
  unfold execStartBegin; try dsimp only
  repeat' with_reducible (first | assumption | apply State.runStart_keeps | apply OKeeps.next | split)

theorem execCopy_keeps {ba : Bool} {z0 s : State} (q : Queue) (hk : Keeps ba z0 s) :
    OKeeps ba z0 (execCopy q s) := by
  unfold execCopy; try dsimp only
  repeat' with_reducible (first | assumption | exact id | apply State.workCvu_keeps | apply State.askChunk_keeps | apply State.beginCmd_keeps | apply State.finishCmd_keeps | apply State.askCvu_keeps | apply State.modHif_keeps | apply OKeeps.next | refine Keeps.ite (fun _ => ?_) (fun _ => ?_) | refine OKeeps.ite (fun _ => ?_) (fun _ => ?_) | split | refine Keeps.upd rfl (fun _ => rfl) id id id id id id id ?_)

theorem execSnapshot_keeps {ba : Bool} {z0 s : State} (q : Queue) (hk : Keeps ba z0 s) :
    OKeeps ba z0 (execSnapshot q s) := by
  unfold execSnapshot; try dsimp only
  repeat' with_reducible (first | assumption | apply State.modNvm_keeps | apply State.finishCmd_keeps | apply OKeeps.next | split | refine Keeps.upd rfl (fun _ => rfl) id id id id id id id ?_)

theorem execImageWrite_keeps {ba : Bool} {z0 s : State} (q : Queue) (image : Option (List (BitVec 8))) (extents : Option (List (Nat × List (BitVec 8)))) (hk : Keeps ba z0 s) :
    OKeeps ba z0 (execImageWrite q image extents s) := by
  unfold execImageWrite; try dsimp only
  repeat' with_reducible (first | assumption | apply State.beginCmd_keeps | apply State.dropXfers_keeps | apply State.hostXfer_keeps | apply State.modNvm_keeps | apply State.finishCmd_keeps | apply State.modStatus_keeps | apply OKeeps.next | refine Keeps.ite (fun _ => ?_) (fun _ => ?_) | refine OKeeps.ite (fun _ => ?_) (fun _ => ?_) | split | refine Keeps.upd rfl (fun _ => rfl) id id id id id id id ?_)

theorem State.xferFailed_keeps {ba : Bool} {z0 s : State} (use : XferFor) (code : Nat) (hk : Keeps ba z0 s) :
    Keeps ba z0 (State.xferFailed s use code) := by
  unfold State.xferFailed; try dsimp only
  repeat' with_reducible (first | assumption | apply State.ackBox_keeps | apply State.endCopy_keeps | apply State.dropXfers_keeps | apply State.failStart_keeps | apply State.endJob_keeps | refine Keeps.ite (fun _ => ?_) (fun _ => ?_) | split)

theorem State.xferDone_keeps {ba : Bool} {z0 s : State} (x : Xfer) (data : List (BitVec 8)) (hk : Keeps ba z0 s) :
    Keeps ba z0 (State.xferDone s x data) := by
  unfold State.xferDone; try dsimp only
  repeat' with_reducible (first | assumption | apply State.ackBox_keeps | apply State.resultGo_keeps | apply State.chunkMoved_keeps | apply State.modCopy_keeps | apply State.askStack_keeps | refine Keeps.ite (fun _ => ?_) (fun _ => ?_) | split | refine Keeps.upd rfl (fun _ => rfl) id id id id id id id ?_)

theorem execHostCpl_keeps {ba : Bool} {z0 s : State} (link : HostLink) (head : HostHead) (data : List (BitVec 8)) (hk : Keeps ba z0 s) :
    OKeeps ba z0 (execHostCpl link head data s) := by
  unfold execHostCpl; try dsimp only
  repeat' with_reducible (first | assumption | exact id | apply State.xferDone_keeps | apply State.xferFailed_keeps | apply State.answer_keeps | apply State.modHif_keeps | apply OKeeps.next | refine Keeps.ite (fun _ => ?_) (fun _ => ?_) | refine OKeeps.ite (fun _ => ?_) (fun _ => ?_) | split | refine Keeps.upd rfl (fun _ => rfl) id id id id id id id ?_)

theorem execHostLinkWaitTimeout_keeps {ba : Bool} {z0 s : State} (tag : BitVec 16) (hk : Keeps ba z0 s) :
    OKeeps ba z0 (execHostLinkWaitTimeout tag s) := by
  unfold execHostLinkWaitTimeout; try dsimp only
  repeat' with_reducible (first | assumption | exact id | apply State.xferFailed_keeps | apply State.modHif_keeps | apply State.advance_keeps | apply OKeeps.next | refine Keeps.ite (fun _ => ?_) (fun _ => ?_) | refine OKeeps.ite (fun _ => ?_) (fun _ => ?_) | split | refine Keeps.upd rfl (fun _ => rfl) id id id id id id id ?_)

theorem execJobDrain_keeps {ba : Bool} {z0 s : State} (hk : Keeps ba z0 s) :
    OKeeps ba z0 (execJobDrain s) := by
  unfold execJobDrain; try dsimp only
  repeat' with_reducible (first | assumption | apply State.resultGo_keeps | apply State.modStatus_keeps | apply State.advance_keeps | apply OKeeps.next | exact OKeeps.fault _ | refine Keeps.ite (fun _ => ?_) (fun _ => ?_) | refine OKeeps.ite (fun _ => ?_) (fun _ => ?_) | refine Keeps.upd rfl (fun _ => rfl) id id id id id id id ?_)

theorem execResultCopyDone_keeps {ba : Bool} {z0 s : State} (hk : Keeps ba z0 s) :
    OKeeps ba z0 (execResultCopyDone s) := by
  unfold execResultCopyDone; try dsimp only
  repeat' with_reducible (first | assumption | apply State.afterJob_keeps | apply State.reportEnd_keeps | apply State.finishJob_keeps | apply OKeeps.next | refine Keeps.ite (fun _ => ?_) (fun _ => ?_) | refine OKeeps.ite (fun _ => ?_) (fun _ => ?_))

theorem State.fenceSlow_keeps {ba : Bool} {z0 s : State} (site : Nat) (hk : Keeps ba z0 s) :
    Keeps ba z0 (State.fenceSlow s site) := by
  unfold State.fenceSlow; try dsimp only
  repeat' with_reducible (first | assumption | apply State.dieMode_keeps | apply State.modSweep_keeps | apply State.raiseInc_keeps | apply State.setRole_keeps | refine Keeps.ite (fun _ => ?_) (fun _ => ?_) | refine Keeps.upd rfl (fun _ => rfl) id id id id id id id ?_)

theorem execAbortSweepDeadline_keeps {ba : Bool} {z0 s : State} (hk : Keeps ba z0 s) :
    OKeeps ba z0 (execAbortSweepDeadline s) := by
  unfold execAbortSweepDeadline; try dsimp only
  repeat' with_reducible (first | assumption | apply State.fenceSlow_keeps | apply State.replaceLost_keeps | apply State.reportEnd_keeps | apply State.advance_keeps | apply State.each_keeps | apply OKeeps.next | refine Keeps.ite (fun _ => ?_) (fun _ => ?_) | refine OKeeps.ite (fun _ => ?_) (fun _ => ?_) | intro _)

theorem execQueueTakeover_keeps {ba : Bool} {z0 s : State} (gw7 : Bool) (hk : Keeps ba z0 s) :
    OKeeps ba z0 (execQueueTakeover gw7 s) := by
  unfold execQueueTakeover; try dsimp only
  repeat' with_reducible (first | assumption | apply State.endCopy_keeps | apply State.modNvm_keeps | apply State.modQueue_keeps | apply State.each_keeps | apply OKeeps.next | refine Keeps.ite (fun _ => ?_) (fun _ => ?_) | refine OKeeps.ite (fun _ => ?_) (fun _ => ?_) | split | intro _ | refine Keeps.upd rfl (fun _ => rfl) id id id id id id id ?_)

theorem execMbxLockRead_keeps {ba : Bool} {z0 s : State} (m : Mbx) (agent : Nat) (hk : Keeps ba z0 s) :
    OKeeps ba z0 (execMbxLockRead m agent s) := by
  unfold execMbxLockRead; try dsimp only
  repeat' with_reducible (first | assumption | apply State.lockRead_keeps | apply OKeeps.next)

theorem execMbxLockWrite_keeps {ba : Bool} {z0 s : State} (m : Mbx) (agent : Nat) (value : Nat) (hk : Keeps ba z0 s) :
    OKeeps ba z0 (execMbxLockWrite m agent value s) := by
  unfold execMbxLockWrite; try dsimp only
  repeat' with_reducible (first | assumption | apply State.lockWrite_keeps | apply OKeeps.next)

theorem execMbxDbWrite_keeps {ba : Bool} {z0 s : State} (m : Mbx) (agent : Nat) (service : Nat) (hk : Keeps ba z0 s) :
    OKeeps ba z0 (execMbxDbWrite m agent service s) := by
  unfold execMbxDbWrite; try dsimp only
  repeat' with_reducible (first | assumption | apply State.dbWrite_keeps | apply OKeeps.next)

theorem execMbxAckWrite_keeps {ba : Bool} {z0 s : State} (m : Mbx) (agent : Nat) (rcode : BitVec 16) (hk : Keeps ba z0 s) :
    OKeeps ba z0 (execMbxAckWrite m agent rcode s) := by
  unfold execMbxAckWrite; try dsimp only
  repeat' with_reducible (first | assumption | apply State.ackWrite_keeps | apply OKeeps.next)

theorem execMbxDataWrite_keeps {ba : Bool} {z0 s : State} (m : Mbx) (agent : Nat) (w : Fin 16) (value : BitVec 32) (hk : Keeps ba z0 s) :
    OKeeps ba z0 (execMbxDataWrite m agent w value s) := by
  unfold execMbxDataWrite; try dsimp only
  repeat' with_reducible (first | assumption | apply State.dataWrite_keeps | apply OKeeps.next)

theorem execMbxForced_keeps {ba : Bool} {z0 s : State} (agent : Nat) (hk : Keeps ba z0 s) :
    OKeeps ba z0 (execMbxForced agent s) := by
  unfold execMbxForced; try dsimp only
  repeat' with_reducible (first | assumption | apply State.freeBox_keeps | apply State.raise_keeps | apply State.each_keeps | apply OKeeps.next | refine Keeps.ite (fun _ => ?_) (fun _ => ?_) | refine OKeeps.ite (fun _ => ?_) (fun _ => ?_) | intro _)

theorem execEcho_keeps {ba : Bool} {z0 s : State} (m : Mbx) (hk : Keeps ba z0 s) :
    OKeeps ba z0 (execEcho m s) := by
  unfold execEcho; try dsimp only
  repeat' with_reducible (first | assumption | apply State.ackBox_keeps | apply OKeeps.next | refine Keeps.ite (fun _ => ?_) (fun _ => ?_) | refine OKeeps.ite (fun _ => ?_) (fun _ => ?_))

theorem execVersion_keeps {ba : Bool} {z0 s : State} (m : Mbx) (hk : Keeps ba z0 s) :
    OKeeps ba z0 (execVersion m s) := by
  unfold execVersion; try dsimp only
  repeat' with_reducible (first | assumption | apply State.replyBox_keeps | apply State.inForce_keeps | apply OKeeps.next | refine Keeps.ite (fun _ => ?_) (fun _ => ?_) | refine OKeeps.ite (fun _ => ?_) (fun _ => ?_) | split)

theorem execOverrun_keeps {ba : Bool} {z0 s : State} (m : Mbx) (hk : Keeps ba z0 s) :
    OKeeps ba z0 (execOverrun m s) := by
  unfold execOverrun; try dsimp only
  repeat' with_reducible (first | assumption | apply State.ackBox_keeps | apply State.ready_keeps | apply OKeeps.next | refine Keeps.ite (fun _ => ?_) (fun _ => ?_) | refine OKeeps.ite (fun _ => ?_) (fun _ => ?_) | refine Keeps.upd rfl (fun _ => rfl) id id id id id id id ?_)

end Sys2Proof.Machine
end

