-- ==== Sys2Proof/Laws/KeepsMemory.lean ====
section
/-! SUPPORT. What the operations of Machine/Memory.lean keep. -/

namespace Sys2Proof.Machine

open Sys2Proof

theorem execLdw_keeps {ba : Bool} {z0 s : State} (p : PCore) (h : Header) (g : BitVec 5) (ls1 : Bool) (reg : BitVec 6) (base : BitVec 4) (off : BitVec 16) (hk : Keeps ba z0 s) :
    OKeeps ba z0 (execLdw p h g ls1 reg base off s) := by
  unfold execLdw; try dsimp only
  repeat' with_reducible (first | assumption | apply State.issueBundle_keeps | apply OKeeps.next)

theorem execLdd_keeps {ba : Bool} {z0 s : State} (p : PCore) (h : Header) (g : BitVec 5) (ls1 : Bool) (reg : BitVec 6) (base : BitVec 4) (off : BitVec 16) (hk : Keeps ba z0 s) :
    OKeeps ba z0 (execLdd p h g ls1 reg base off s) := by
  unfold execLdd; try dsimp only
  repeat' with_reducible (first | assumption | apply State.issueBundle_keeps | apply OKeeps.next)

theorem execLdq_keeps {ba : Bool} {z0 s : State} (p : PCore) (h : Header) (g : BitVec 5) (ls1 : Bool) (q : BitVec 2) (reg : BitVec 6) (base : BitVec 4) (off : BitVec 16) (hk : Keeps ba z0 s) :
    OKeeps ba z0 (execLdq p h g ls1 q reg base off s) := by
  unfold execLdq; try dsimp only
  repeat' with_reducible (first | assumption | apply State.issueBundle_keeps | apply OKeeps.next)

theorem execLdh_keeps {ba : Bool} {z0 s : State} (p : PCore) (h : Header) (g : BitVec 5) (ls1 : Bool) (hi : Bool) (reg : BitVec 6) (base : BitVec 4) (off : BitVec 16) (hk : Keeps ba z0 s) :
    OKeeps ba z0 (execLdh p h g ls1 hi reg base off s) := by
  unfold execLdh; try dsimp only
  repeat' with_reducible (first | assumption | apply State.issueBundle_keeps | apply OKeeps.next)

theorem execLdv_keeps {ba : Bool} {z0 s : State} (p : PCore) (h : Header) (g : BitVec 5) (ls1 : Bool) (reg : BitVec 6) (base : BitVec 4) (off : BitVec 16) (hk : Keeps ba z0 s) :
    OKeeps ba z0 (execLdv p h g ls1 reg base off s) := by
  unfold execLdv; try dsimp only
  repeat' with_reducible (first | assumption | apply State.issueBundle_keeps | apply OKeeps.next)

theorem execLdsc64_keeps {ba : Bool} {z0 s : State} (p : PCore) (h : Header) (g : BitVec 5) (ls1 : Bool) (reg : BitVec 6) (base : BitVec 4) (off : BitVec 16) (hk : Keeps ba z0 s) :
    OKeeps ba z0 (execLdsc64 p h g ls1 reg base off s) := by
  unfold execLdsc64; try dsimp only
  repeat' with_reducible (first | assumption | apply State.issueBundle_keeps | apply OKeeps.next)

theorem execLdsc256_keeps {ba : Bool} {z0 s : State} (p : PCore) (h : Header) (g : BitVec 5) (ls1 : Bool) (reg : BitVec 6) (base : BitVec 4) (off : BitVec 16) (hk : Keeps ba z0 s) :
    OKeeps ba z0 (execLdsc256 p h g ls1 reg base off s) := by
  unfold execLdsc256; try dsimp only
  repeat' with_reducible (first | assumption | apply State.issueBundle_keeps | apply OKeeps.next)

theorem execStw_keeps {ba : Bool} {z0 s : State} (p : PCore) (h : Header) (g : BitVec 5) (reg : BitVec 6) (base : BitVec 4) (off : BitVec 16) (hk : Keeps ba z0 s) :
    OKeeps ba z0 (execStw p h g reg base off s) := by
  unfold execStw; try dsimp only
  repeat' with_reducible (first | assumption | apply State.issueBundle_keeps | apply OKeeps.next)

theorem execStd_keeps {ba : Bool} {z0 s : State} (p : PCore) (h : Header) (g : BitVec 5) (reg : BitVec 6) (base : BitVec 4) (off : BitVec 16) (hk : Keeps ba z0 s) :
    OKeeps ba z0 (execStd p h g reg base off s) := by
  unfold execStd; try dsimp only
  repeat' with_reducible (first | assumption | apply State.issueBundle_keeps | apply OKeeps.next)

theorem execStq_keeps {ba : Bool} {z0 s : State} (p : PCore) (h : Header) (g : BitVec 5) (q : BitVec 2) (reg : BitVec 6) (base : BitVec 4) (off : BitVec 16) (hk : Keeps ba z0 s) :
    OKeeps ba z0 (execStq p h g q reg base off s) := by
  unfold execStq; try dsimp only
  repeat' with_reducible (first | assumption | apply State.issueBundle_keeps | apply OKeeps.next)

theorem execSth_keeps {ba : Bool} {z0 s : State} (p : PCore) (h : Header) (g : BitVec 5) (hi : Bool) (reg : BitVec 6) (base : BitVec 4) (off : BitVec 16) (hk : Keeps ba z0 s) :
    OKeeps ba z0 (execSth p h g hi reg base off s) := by
  unfold execSth; try dsimp only
  repeat' with_reducible (first | assumption | apply State.issueBundle_keeps | apply OKeeps.next)

theorem execStv_keeps {ba : Bool} {z0 s : State} (p : PCore) (h : Header) (g : BitVec 5) (reg : BitVec 6) (base : BitVec 4) (off : BitVec 16) (hk : Keeps ba z0 s) :
    OKeeps ba z0 (execStv p h g reg base off s) := by
  unfold execStv; try dsimp only
  repeat' with_reducible (first | assumption | apply State.issueBundle_keeps | apply OKeeps.next)

end Sys2Proof.Machine
end

