-- ==== Sys2Proof/Laws/KeepsPower.lean ====
section
/-! SUPPORT. What the operations of Machine/Power.lean keep. -/

namespace Sys2Proof.Machine

open Sys2Proof

theorem State.powerOff_keeps {s0 s : State} (hk : Keeps false s0 s) : Keeps false s0 s.powerOff :=
  hk.trans ⟨rfl, fun _ => (by unfold State.inRange; decide : State.reset.inRange), nofun, fun _ => rfl⟩

theorem execInputVoltageEvent_keeps {z0 s : State} (volts : BitVec 16) (hk : Keeps false z0 s) :
    OKeeps false z0 (execInputVoltageEvent volts s) := by
  unfold execInputVoltageEvent; try dsimp only
  repeat' with_reducible (first | assumption | exact id | apply State.powerOff_keeps | apply State.modPwr_keeps | apply State.endJob_keeps | apply State.raise_keeps | apply OKeeps.next | exact OKeeps.fault _ | refine Keeps.ite (fun _ => ?_) (fun _ => ?_) | refine OKeeps.ite (fun _ => ?_) (fun _ => ?_) | split | refine Keeps.upd rfl (fun _ => rfl) id id id id id id id ?_)

theorem execStage1Stop_keeps {z0 s : State} (hk : Keeps false z0 s) :
    OKeeps false z0 (execStage1Stop s) := by
  unfold execStage1Stop; try dsimp only
  repeat' with_reducible (first | assumption | apply State.powerOff_keeps | apply OKeeps.next | refine Keeps.ite (fun _ => ?_) (fun _ => ?_) | refine OKeeps.ite (fun _ => ?_) (fun _ => ?_))

theorem execInputRecovery_keeps {ba : Bool} {z0 s : State} (hk : Keeps ba z0 s) :
    OKeeps ba z0 (execInputRecovery s) := by
  unfold execInputRecovery; try dsimp only
  repeat' with_reducible (first | assumption | exact id | apply State.modPwr_keeps | apply OKeeps.next | refine Keeps.ite (fun _ => ?_) (fun _ => ?_) | refine OKeeps.ite (fun _ => ?_) (fun _ => ?_) | refine Keeps.upd rfl (fun _ => rfl) id id id id id id id ?_)

theorem execPowerSample_keeps {ba : Bool} {z0 s : State} (avg1s : BitVec 16) (avg10ms : BitVec 16) (max10ms : BitVec 16) (iin : BitVec 16) (mj : Nat) (hk : Keeps ba z0 s) :
    OKeeps ba z0 (execPowerSample avg1s avg10ms max10ms iin mj s) := by
  unfold execPowerSample; try dsimp only
  repeat' with_reducible (first | assumption | exact id | apply State.modPwr_keeps | apply State.raise_keeps | apply OKeeps.next | refine Keeps.ite (fun _ => ?_) (fun _ => ?_) | refine OKeeps.ite (fun _ => ?_) (fun _ => ?_) | split | exact Memory.writeBytes_wf _ _ | exact Memory.clear_wf _ _ | intro _ | refine Keeps.upd rfl (fun _ => rfl) id id id id id id id ?_)

theorem execDroopTrip_keeps {ba : Bool} {z0 s : State} (site : Site) (sensor : Fin 64) (hk : Keeps ba z0 s) :
    OKeeps ba z0 (execDroopTrip site sensor s) := by
  unfold execDroopTrip; try dsimp only
  repeat' with_reducible (first | assumption | apply State.modErg_keeps | apply State.resumeJob_keeps | apply State.cntOvf_keeps | apply State.raise_keeps | apply OKeeps.next | refine Keeps.upd rfl (fun _ => rfl) id id id id id id id ?_)

theorem State.takeHints_keeps {ba : Bool} {z0 s : State} (e : Nat) (t : Nat) (hk : Keeps ba z0 s) :
    Keeps ba z0 (State.takeHints s e t) := by
  unfold State.takeHints; try dsimp only
  repeat' with_reducible (first | assumption | apply foldl_keeps | intro _ | refine Keeps.upd rfl (fun _ => rfl) id id id id id id id ?_)

theorem State.unhinted_keeps {ba : Bool} {z0 s : State} (e : Nat) (current : Nat) (hk : Keeps ba z0 s) :
    Keeps ba z0 (State.unhinted s e current) := by
  unfold State.unhinted; try dsimp only
  repeat' with_reducible (first | assumption | apply State.modErg_keeps | apply State.cntOvf_keeps | apply State.raise_keeps | refine Keeps.ite (fun _ => ?_) (fun _ => ?_) | split | refine Keeps.upd rfl (fun _ => rfl) id id id id id id id ?_)

theorem State.anomaly_keeps {ba : Bool} {z0 s : State} (e : Nat) (d : Droop) (hk : Keeps ba z0 s) :
    Keeps ba z0 (State.anomaly s e d) := by
  unfold State.anomaly; try dsimp only
  repeat' with_reducible (first | assumption | exact id | apply State.modErg_keeps | apply State.modPwr_keeps | apply State.cntOvf_keeps | apply State.raise_keeps | refine Keeps.ite (fun _ => ?_) (fun _ => ?_) | refine Keeps.upd rfl (fun _ => rfl) id id id id id id id ?_)

theorem execForecastWindow_keeps {ba : Bool} {z0 s : State} (erg : Erg) (current : Nat) (vmin : Nat) (vbus : Nat) (iin : Nat) (droops : List Droop) (hk : Keeps ba z0 s) :
    OKeeps ba z0 (execForecastWindow erg current vmin vbus iin droops s) := by
  unfold execForecastWindow; try dsimp only
  repeat' with_reducible (first | assumption | apply State.anomaly_keeps | apply State.unhinted_keeps | apply State.takeHints_keeps | apply State.anomSubst_keeps | apply State.modErg_keeps | apply foldl_keeps | apply OKeeps.next | refine Keeps.ite (fun _ => ?_) (fun _ => ?_) | refine OKeeps.ite (fun _ => ?_) (fun _ => ?_) | split | intro _ | refine Keeps.upd rfl (fun _ => rfl) id id id id id id id ?_)

theorem execControllerFail_keeps {ba : Bool} {z0 s : State} (erg : Erg) (ctrl : Fin 4) (hk : Keeps ba z0 s) :
    OKeeps ba z0 (execControllerFail erg ctrl s) := by
  unfold execControllerFail; try dsimp only
  repeat' with_reducible (first | assumption | exact id | apply State.migrate_keeps | apply State.ergDark_keeps | apply State.modErg_keeps | apply State.modPwr_keeps | apply State.raise_keeps | apply OKeeps.next | refine Keeps.ite (fun _ => ?_) (fun _ => ?_) | refine OKeeps.ite (fun _ => ?_) (fun _ => ?_) | refine Keeps.upd rfl (fun _ => rfl) id id id id id id id ?_)

theorem execDeratedMigration_keeps {ba : Bool} {z0 s : State} (hk : Keeps ba z0 s) :
    OKeeps ba z0 (execDeratedMigration s) := by
  unfold execDeratedMigration; try dsimp only
  repeat' with_reducible (first | assumption | apply State.migrate_keeps | apply OKeeps.next | refine Keeps.ite (fun _ => ?_) (fun _ => ?_) | refine OKeeps.ite (fun _ => ?_) (fun _ => ?_))

theorem execErgShort_keeps {ba : Bool} {z0 s : State} (erg : Erg) (hk : Keeps ba z0 s) :
    OKeeps ba z0 (execErgShort erg s) := by
  unfold execErgShort; try dsimp only
  repeat' with_reducible (first | assumption | apply State.ergDark_keeps | apply OKeeps.next | refine Keeps.ite (fun _ => ?_) (fun _ => ?_) | refine OKeeps.ite (fun _ => ?_) (fun _ => ?_))

end Sys2Proof.Machine
end

