-- ==== Sys2Proof/Laws/KeepsStack.lean ====
section
/-! SUPPORT. What the operations of Machine/Stack.lean keep. -/

namespace Sys2Proof.Machine

open Sys2Proof

theorem State.setStream_keeps {ba : Bool} {z0 s : State} (i : Nat) (r : StreamRec) (hk : Keeps ba z0 s) :
    Keeps ba z0 (State.setStream s i r) := by
  unfold State.setStream; try dsimp only
  repeat' with_reducible (first | assumption | exact id | apply State.modStacks_keeps | refine Keeps.ite (fun _ => ?_) (fun _ => ?_) | refine Keeps.upd rfl (fun _ => rfl) id id id id id id id ?_)

theorem State.refuse_keeps {ba : Bool} {z0 s : State} (n : Nat) (l : Nat) (ctx : Nat) (issue : Nat) (reason : Nat) (hk : Keeps ba z0 s) :
    Keeps ba z0 (State.refuse s n l ctx issue reason) := by
  unfold State.refuse; try dsimp only
  repeat' with_reducible (first | assumption | exact id | apply State.modStacks_keeps | apply State.modStack_keeps | apply State.cntOvf_keeps | refine Keeps.upd rfl (fun _ => rfl) id id id id id id id ?_)

theorem execStreamDescriptor_keeps {ba : Bool} {z0 s : State} (flit : Nat) (hk : Keeps ba z0 s) :
    OKeeps ba z0 (execStreamDescriptor flit s) := by
  unfold execStreamDescriptor; try dsimp only
  repeat' with_reducible (first | assumption | exact id | apply State.refuse_keeps | apply State.setStream_keeps | apply State.dropFlit_keeps | apply State.modStacks_keeps | apply State.modStack_keeps | apply State.advance_keeps | apply OKeeps.next | refine Keeps.ite (fun _ => ?_) (fun _ => ?_) | refine OKeeps.ite (fun _ => ?_) (fun _ => ?_) | split | refine Keeps.upd rfl (fun _ => rfl) id id id id id id id ?_)

theorem execRefusalNotice_keeps {ba : Bool} {z0 s : State} (notice : Nat) (hk : Keeps ba z0 s) :
    OKeeps ba z0 (execRefusalNotice notice s) := by
  unfold execRefusalNotice; try dsimp only
  repeat' with_reducible (first | assumption | exact id | apply State.modStacks_keeps | apply State.syncCtx_keeps | apply State.modCtx_keeps | apply OKeeps.next | split | refine Keeps.upd rfl (fun _ => rfl) id id id id id id id ?_)

theorem State.crossIf_keeps {ba : Bool} {z0 s : State} (n : Nat) (c : Nat) (hk : Keeps ba z0 s) :
    Keeps ba z0 (State.crossIf s n c).1 := by
  unfold State.crossIf; try dsimp only
  repeat' with_reducible (first | assumption | apply State.modStack_keeps | refine Keeps.upd rfl (fun _ => rfl) id id id id id id id ?_)

theorem State.deliverTo_keeps {ba : Bool} {z0 s : State} (l : Nat) (d : Deliv) (hk : Keeps ba z0 s) :
    Keeps ba z0 (State.deliverTo s l d) := by
  unfold State.deliverTo; try dsimp only
  repeat' with_reducible (first | assumption | apply State.discard_keeps | apply State.arriveStream_keeps | refine Keeps.ite (fun _ => ?_) (fun _ => ?_) | split)

theorem execStreamGranuleLand_keeps {ba : Bool} {z0 s : State} (stream : Nat) (hk : Keeps ba z0 s) :
    OKeeps ba z0 (execStreamGranuleLand stream s) := by
  unfold execStreamGranuleLand; try dsimp only
  repeat' with_reducible (first | assumption | apply State.deliverTo_keeps | apply State.crossIf_keeps | apply State.setStream_keeps | apply State.contractGranule_keeps | apply State.advance_keeps | apply OKeeps.next | refine Keeps.ite (fun _ => ?_) (fun _ => ?_) | refine OKeeps.ite (fun _ => ?_) (fun _ => ?_) | split | refine Keeps.upd rfl (fun _ => rfl) id id id id id id id ?_)

theorem State.takeBank_keeps {ba : Bool} {z0 s : State} (p : Nat) (bank : Nat) (k_0 : Nat) (hk : Keeps ba z0 s) :
    Keeps ba z0 (State.takeBank s p bank k_0) := by
  induction k_0 generalizing s p bank with
  | zero =>
    unfold State.takeBank; try dsimp only
    repeat' with_reducible (first | assumption | apply State.sync_keeps | apply State.modPipe_keeps | apply State.advance_keeps | refine Keeps.ite (fun _ => ?_) (fun _ => ?_) | split)
  | succ n_ ih =>
    unfold State.takeBank; try dsimp only
    repeat' with_reducible (first | assumption | apply ih | apply State.sync_keeps | apply State.modPipe_keeps | apply State.advance_keeps | refine Keeps.ite (fun _ => ?_) (fun _ => ?_) | split)

theorem execWriteGranuleReadout_keeps {ba : Bool} {z0 s : State} (stream : Nat) (hk : Keeps ba z0 s) :
    OKeeps ba z0 (execWriteGranuleReadout stream s) := by
  unfold execWriteGranuleReadout; try dsimp only
  repeat' with_reducible (first | assumption | apply State.takeBank_keeps | apply State.setStream_keeps | apply State.recordFault_keeps | apply State.readWords_keeps | apply State.advance_keeps | apply OKeeps.next | refine Keeps.ite (fun _ => ?_) (fun _ => ?_) | refine OKeeps.ite (fun _ => ?_) (fun _ => ?_) | split | refine Keeps.upd rfl (fun _ => rfl) id id id id id id id ?_)

theorem State.lateEvent_keeps {ba : Bool} {z0 s : State} (n : Nat) (w : Nat) (hk : Keeps ba z0 s) :
    Keeps ba z0 (State.lateEvent s n w) := by
  unfold State.lateEvent; try dsimp only
  repeat' with_reducible (first | assumption | apply State.modStack_keeps | apply State.raise_keeps | refine Keeps.ite (fun _ => ?_) (fun _ => ?_) | refine Keeps.upd rfl (fun _ => rfl) id id id id id id id ?_)

theorem execWriteGranuleAccept_keeps {ba : Bool} {z0 s0 : State} (stream : Nat) (hk : Keeps ba z0 s0) :
    OKeeps ba z0 (execWriteGranuleAccept stream s0) := by
  unfold execWriteGranuleAccept; try dsimp only
  repeat' with_reducible (first | assumption | apply State.lateEvent_keeps | apply State.crossIf_keeps | apply State.setStream_keeps | apply State.acceptWrite_keeps | apply State.syncCtx_keeps | apply State.modCtx_keeps | apply State.advance_keeps | apply OKeeps.next | refine Keeps.ite (fun _ => ?_) (fun _ => ?_) | refine OKeeps.ite (fun _ => ?_) (fun _ => ?_) | split | refine Keeps.upd rfl (fun _ => rfl) id id id id id id id ?_)

theorem execAttachLoss_keeps {ba : Bool} {z0 s : State} (stack : Stack) (hk : Keeps ba z0 s) :
    OKeeps ba z0 (execAttachLoss stack s) := by
  unfold execAttachLoss; try dsimp only
  repeat' with_reducible (first | assumption | apply State.lateEvent_keeps | apply State.modStack_keeps | apply State.each_keeps | apply foldl_keeps | apply OKeeps.next | refine Keeps.ite (fun _ => ?_) (fun _ => ?_) | refine OKeeps.ite (fun _ => ?_) (fun _ => ?_) | intro _)

theorem execUnscheduledStackAccess_keeps {ba : Bool} {z0 s : State} (cls : Fin 4) (addr : Nat) (len : Nat) (data : Option (List (BitVec 8))) (hk : Keeps ba z0 s) :
    OKeeps ba z0 (execUnscheduledStackAccess cls addr len data s) := by
  unfold execUnscheduledStackAccess; try dsimp only
  repeat' with_reducible (first | assumption | apply State.askStack_keeps | apply OKeeps.next | refine Keeps.ite (fun _ => ?_) (fun _ => ?_) | refine OKeeps.ite (fun _ => ?_) (fun _ => ?_))

theorem execStackRefresh_keeps {ba : Bool} {z0 s : State} (_stack : Stack) (hk : Keeps ba z0 s) :
    OKeeps ba z0 (execStackRefresh _stack s) := by
  unfold execStackRefresh; try dsimp only
  repeat' with_reducible (first | assumption | apply OKeeps.next)

theorem State.findStackFlips_keeps {ba : Bool} {z0 s : State} (n : Nat) (region : Nat) (hk : Keeps ba z0 s) :
    Keeps ba z0 (State.findStackFlips s n region) := by
  unfold State.findStackFlips; try dsimp only
  repeat' with_reducible (first | assumption | apply State.checkGranule_keeps | apply State.each_keeps | intro _)

theorem State.copyRegion_keeps {ba : Bool} {z0 s : State} (n : Nat) (src : Nat) (dst : Nat) (hk : Keeps ba z0 s) :
    Keeps ba z0 (State.copyRegion s n src dst) := by
  unfold State.copyRegion; try dsimp only
  repeat' with_reducible (first | assumption | exact id | exact fun hh => Memory.region_wf _ _ _ _ _ hh | apply State.modStacks_keeps | split | exact Memory.clear_wf _ _ | refine Keeps.upd rfl (fun _ => rfl) id id id id id id id ?_)

theorem execRegionCopyDone_keeps {ba : Bool} {z0 s : State} (stack : Stack) (spareOk : Bool) (hk : Keeps ba z0 s) :
    OKeeps ba z0 (execRegionCopyDone stack spareOk s) := by
  unfold execRegionCopyDone; try dsimp only
  repeat' with_reducible (first | assumption | apply State.copyRegion_keeps | apply State.findStackFlips_keeps | apply State.sweepRegion_keeps | apply State.noteWritten_keeps | apply State.startCopy_keeps | apply State.modStack_keeps | apply OKeeps.next | refine Keeps.ite (fun _ => ?_) (fun _ => ?_) | refine OKeeps.ite (fun _ => ?_) (fun _ => ?_) | split | refine Keeps.upd rfl (fun _ => rfl) id id id id id id id ?_)

theorem execStackLost_keeps {ba : Bool} {z0 s : State} (stack : Stack) (hk : Keeps ba z0 s) :
    OKeeps ba z0 (execStackLost stack s) := by
  unfold execStackLost; try dsimp only
  repeat' with_reducible (first | assumption | apply State.loseStack_keeps | apply OKeeps.next)

theorem execPlsModeWrite_keeps {ba : Bool} {z0 s : State} (placed : Bool) (hk : Keeps ba z0 s) :
    OKeeps ba z0 (execPlsModeWrite placed s) := by
  unfold execPlsModeWrite; try dsimp only
  repeat' with_reducible (first | assumption | exact id | apply State.ready_keeps | apply State.modStacks_keeps | apply OKeeps.next | refine Keeps.ite (fun _ => ?_) (fun _ => ?_) | refine OKeeps.ite (fun _ => ?_) (fun _ => ?_) | refine Keeps.upd rfl (fun _ => rfl) id id id id id id id ?_)

end Sys2Proof.Machine
end

