-- ==== Sys2Proof/Laws/KeepsRegOps.lean ====
section
/-! SUPPORT. What the operations of Machine/RegOps.lean keep. -/

namespace Sys2Proof.Machine

open Sys2Proof

theorem outState_keeps {ba : Bool} {s0 s : State} (o : Out) (hk : Keeps ba s0 s) (ho : OKeeps ba s0 o) : Keeps ba s0 (outState s o) := by
  cases o with
  | next t => exact ho t rfl
  | fault f => exact hk
  | refused r => exact hk

theorem State.modEvq_keeps {b : Bool} {s0 s : State} (f : Evq → Evq)
    (hf : (8 ≤ s.evq.size ∧ s.evq.size ≤ 15) → 8 ≤ (f s.evq).size ∧ (f s.evq).size ≤ 15) (h : Keeps b s0 s) :
    Keeps b s0 (s.modEvq f) := by
  unfold State.modEvq; exact Keeps.upd rfl (fun _ => rfl) id id hf id id id id h

theorem State.clearCvu_keeps {ba : Bool} {z0 s : State} (u : Nat) (hk : Keeps ba z0 s) :
    Keeps ba z0 (State.clearCvu s u) := by
  unfold State.clearCvu; try dsimp only
  repeat' with_reducible (first | assumption | apply State.modCvu_keeps | refine Keeps.upd rfl (fun _ => rfl) id id id id id id id ?_)

theorem State.clearCore_keeps {ba : Bool} {z0 s : State} (p : Nat) (o : Nat) (hk : Keeps ba z0 s) :
    Keeps ba z0 (State.clearCore s p o) := by
  unfold State.clearCore; try dsimp only
  repeat' with_reducible (first | assumption | apply State.modDrop_keeps | apply State.setCore_keeps | refine Keeps.ite (fun _ => ?_) (fun _ => ?_) | refine Keeps.upd rfl (fun _ => rfl) id id id id id id id ?_)

theorem State.clearDie_keeps {ba : Bool} {z0 s : State} (x : Nat) (o : Nat) (hk : Keeps ba z0 s) :
    Keeps ba z0 (State.clearDie s x o) := by
  unfold State.clearDie; try dsimp only
  repeat' with_reducible (first | assumption | apply State.clearCore_keeps | apply State.clearCvu_keeps | apply State.modCons_keeps | apply State.modDie_keeps | refine Keeps.ite (fun _ => ?_) (fun _ => ?_) | split | refine Keeps.upd rfl (fun _ => rfl) id id id id id id id ?_)

theorem State.clearStack_keeps {ba : Bool} {z0 s : State} (n : Nat) (o : Nat) (hk : Keeps ba z0 s) :
    Keeps ba z0 (State.clearStack s n o) := by
  unfold State.clearStack; try dsimp only
  repeat' with_reducible (first | assumption | apply State.clearCvu_keeps | apply State.modStack_keeps | refine Keeps.ite (fun _ => ?_) (fun _ => ?_) | refine Keeps.upd rfl (fun _ => rfl) id id id id id id id ?_)

theorem State.clearOvf_keeps {ba : Bool} {z0 s : State} (off : Nat) (hk : Keeps ba z0 s) :
    Keeps ba z0 (State.clearOvf s off) := by
  unfold State.clearOvf; try dsimp only
  repeat' with_reducible (first | assumption | exact id | apply State.clearStack_keeps | apply State.clearDie_keeps | apply State.modEvq_keeps | apply State.modErg_keeps | apply State.modChan_keeps | apply State.modClk_keeps | apply State.modAct_keeps | apply State.modZfp_keeps | apply State.modPort_keeps | refine Keeps.ite (fun _ => ?_) (fun _ => ?_) | refine Keeps.upd rfl (fun _ => rfl) id id id id id id id ?_)

theorem State.writeCirc_keeps {ba : Bool} {z0 s : State} (c : Nat) (v : Nat) (hk : Keeps ba z0 s) :
    Keeps ba z0 (State.writeCirc s c v) := by
  unfold State.writeCirc; try dsimp only
  repeat' with_reducible (first | assumption | apply State.modEntry_keeps | refine Keeps.upd rfl (fun _ => rfl) id id id id id id id ?_)

theorem State.coreCmd_keeps {ba : Bool} {z0 s : State} (p : PCore) (cmd : Nat) (hk : Keeps ba z0 s) :
    Keeps ba z0 (State.coreCmd s p cmd) := by
  unfold State.coreCmd; try dsimp only
  repeat' with_reducible (first | assumption | apply outState_keeps | apply execSelfcheck_keeps | apply execResume_keeps | apply execHold_keeps | apply execSweep_keeps | refine Keeps.ite (fun _ => ?_) (fun _ => ?_))

theorem State.putDie_keeps {ba : Bool} {z0 s : State} (x : Nat) (o : Nat) (v : Nat) (hk : Keeps ba z0 s) :
    Keeps ba z0 (State.putDie s x o v) := by
  unfold State.putDie; try dsimp only
  repeat' with_reducible (first | assumption | exact id | apply State.coreCmd_keeps | apply State.modDie_keeps | apply State.modCore_keeps | refine Keeps.ite (fun _ => ?_) (fun _ => ?_) | split | exact Memory.writeBytes_wf _ _ | exact Memory.clear_wf _ _ | intro _ | refine Keeps.upd rfl (fun _ => rfl) id id id id id id id ?_)

theorem State.writePortCtl_keeps {ba : Bool} {z0 s : State} (p : Port) (v : Nat) (hk : Keeps ba z0 s) :
    Keeps ba z0 (State.writePortCtl s p v) := by
  unfold State.writePortCtl; try dsimp only
  repeat' with_reducible (first | assumption | apply outState_keeps | apply execDisable_keeps | apply execRetrain_keeps | apply execPortEnable_keeps | refine Keeps.ite (fun _ => ?_) (fun _ => ?_))

theorem State.writeRtCtl_keeps {ba : Bool} {z0 s : State} (v : Nat) (hk : Keeps ba z0 s) :
    Keeps ba z0 (State.writeRtCtl s v) := by
  unfold State.writeRtCtl; try dsimp only
  repeat' with_reducible (first | assumption | apply outState_keeps | apply execRouteFlip_keeps | apply execRouteCommit_keeps | apply State.modZfp_keeps | refine Keeps.ite (fun _ => ?_) (fun _ => ?_) | refine Keeps.upd rfl (fun _ => rfl) id id id id id id id ?_)

theorem State.writeMbx_keeps {ba : Bool} {z0 s : State} (agent : Nat) (m : Nat) (o : Nat) (v : Nat) (hk : Keeps ba z0 s) :
    Keeps ba z0 (State.writeMbx s agent m o v) := by
  unfold State.writeMbx; try dsimp only
  repeat' with_reducible (first | assumption | apply State.dataWrite_keeps | apply State.ackWrite_keeps | apply State.dbWrite_keeps | apply State.lockWrite_keeps | apply State.modBox_keeps | refine Keeps.ite (fun _ => ?_) (fun _ => ?_) | refine Keeps.upd rfl (fun _ => rfl) id id id id id id id ?_)

theorem State.writeHif_keeps {ba : Bool} {z0 s : State} (agent : Nat) (o : Nat) (v : Nat) (hk : Keeps ba z0 s) :
    Keeps ba z0 (State.writeHif s agent o v) := by
  unfold State.writeHif; try dsimp only
  repeat' with_reducible (first | assumption | exact id | exact fun hh => Evq.writeCtl_size _ hh | exact fun hh => Evq.writeHead_size _ hh | apply State.writeMbx_keeps | apply State.clearOvf_keeps | apply State.modEvq_keeps | apply State.writeQctl_keeps | apply State.setTail_keeps | refine Keeps.ite (fun _ => ?_) (fun _ => ?_))

theorem State.writeZfp_keeps {ba : Bool} {z0 s : State} (o : Nat) (v : Nat) (hk : Keeps ba z0 s) :
    Keeps ba z0 (State.writeZfp s o v) := by
  unfold State.writeZfp; try dsimp only
  repeat' with_reducible (first | assumption | apply State.writeRtCtl_keeps | apply State.writePortCtl_keeps | apply State.writeCirc_keeps | apply State.clearOvf_keeps | apply outState_keeps | apply execPairSet_keeps | apply State.modEntry_keeps | apply execRouteTableWrite_keeps | apply execDevNumWrite_keeps | apply State.modZfp_keeps | refine Keeps.ite (fun _ => ?_) (fun _ => ?_) | refine Keeps.upd rfl (fun _ => rfl) id id id id id id id ?_)

theorem State.writeRot_keeps {ba : Bool} {z0 s : State} (v : Nat) (hk : Keeps ba z0 s) :
    Keeps ba z0 (State.writeRot s v) := by
  unfold State.writeRot; try dsimp only
  repeat' with_reducible (first | assumption | exact id | apply State.clearOvf_keeps | apply State.modClk_keeps | apply State.ready_keeps | refine Keeps.ite (fun _ => ?_) (fun _ => ?_) | refine Keeps.upd rfl (fun _ => rfl) id id id id id id id ?_)

theorem State.put32_keeps {ba : Bool} {z0 s : State} (agent : Nat) (off : Nat) (v : Nat) (hk : Keeps ba z0 s) :
    Keeps ba z0 (State.put32 s agent off v) := by
  unfold State.put32; try dsimp only
  repeat' with_reducible (first | assumption | exact id | refine Keeps.upd rfl (fun _ => rfl) id (fun _ => by dsimp only; omega) id id id id id ?_ | exact fun _ => (by assumption) | apply State.writeRot_keeps | apply State.writeZfp_keeps | apply State.writeHif_keeps | apply State.putDie_keeps | apply State.clearOvf_keeps | apply outState_keeps | apply execStepRequest_keeps | apply execPlsModeWrite_keeps | apply State.modPwr_keeps | apply State.ready_keeps | apply State.modNvm_keeps | refine Keeps.ite (fun _ => ?_) (fun _ => ?_) | refine Keeps.upd rfl (fun _ => rfl) id id id id id id id ?_)

theorem State.put64_keeps {ba : Bool} {z0 s : State} (agent : Nat) (off : Nat) (v : Nat) (hk : Keeps ba z0 s) :
    Keeps ba z0 (State.put64 s agent off v) := by
  unfold State.put64; try dsimp only
  repeat' with_reducible (first | assumption | exact id | apply State.clearOvf_keeps | apply State.modEvq_keeps | apply outState_keeps | apply State.modEntry_keeps | apply execRouteTableWrite_keeps | apply State.modZfp_keeps | refine Keeps.ite (fun _ => ?_) (fun _ => ?_) | refine Keeps.upd rfl (fun _ => rfl) id id id id id id id ?_)

theorem State.modLatch_keeps {ba : Bool} {z0 s : State} (f : Latches → Latches) (hk : Keeps ba z0 s) :
    Keeps ba z0 (State.modLatch s f) := by
  unfold State.modLatch; try dsimp only
  repeat' with_reducible (first | assumption | refine Keeps.upd rfl (fun _ => rfl) id id id id id id id ?_)

theorem State.syncReg_keeps {ba : Bool} {z0 s : State} (off : Nat) (hk : Keeps ba z0 s) :
    Keeps ba z0 (State.syncReg s off) := by
  unfold State.syncReg; try dsimp only
  repeat' with_reducible (first | assumption | apply State.sync_keeps | refine Keeps.ite (fun _ => ?_) (fun _ => ?_))

theorem State.read32_keeps {ba : Bool} {z0 s : State} (agent : Nat) (off : Nat) (hk : Keeps ba z0 s) :
    Keeps ba z0 (State.read32 s agent off).1 := by
  unfold State.read32; try dsimp only
  repeat' with_reducible (first | assumption | apply State.syncReg_keeps | apply State.modLatch_keeps | apply State.lockRead_keeps | refine Keeps.ite (fun _ => ?_) (fun _ => ?_) | split | refine Keeps.upd rfl (fun _ => rfl) id id id id id id id ?_)

theorem State.read64_keeps {ba : Bool} {z0 s : State} (agent : Nat) (off : Nat) (hk : Keeps ba z0 s) :
    Keeps ba z0 (State.read64 s agent off).1 := by
  unfold State.read64; try dsimp only
  repeat' with_reducible (first | assumption | apply State.syncReg_keeps | refine Keeps.ite (fun _ => ?_) (fun _ => ?_) | split)

theorem State.write32_keeps {ba : Bool} {z0 s : State} (agent : Nat) (off : Nat) (v : Nat) (hk : Keeps ba z0 s) :
    Keeps ba z0 (State.write32 s agent off v) := by
  unfold State.write32; try dsimp only
  repeat' with_reducible (first | assumption | apply State.modLatch_keeps | apply State.put64_keeps | apply State.put32_keeps | refine Keeps.ite (fun _ => ?_) (fun _ => ?_) | split | refine Keeps.upd rfl (fun _ => rfl) id id id id id id id ?_)

theorem State.write64_keeps {ba : Bool} {z0 s : State} (agent : Nat) (off : Nat) (v : Nat) (hk : Keeps ba z0 s) :
    Keeps ba z0 (State.write64 s agent off v) := by
  unfold State.write64; try dsimp only
  repeat' with_reducible (first | assumption | apply State.put64_keeps | refine Keeps.ite (fun _ => ?_) (fun _ => ?_) | split)

theorem execOvfClear_keeps {ba : Bool} {z0 s : State} (a : RegAccess) (hk : Keeps ba z0 s) :
    OKeeps ba z0 (execOvfClear a s) := by
  unfold execOvfClear; try dsimp only
  repeat' with_reducible (first | assumption | apply State.clearOvf_keeps | apply OKeeps.next | refine Keeps.ite (fun _ => ?_) (fun _ => ?_) | refine OKeeps.ite (fun _ => ?_) (fun _ => ?_))

theorem execLowWordRead_keeps {ba : Bool} {z0 s : State} (a : RegAccess) (hk : Keeps ba z0 s) :
    OKeeps ba z0 (execLowWordRead a s) := by
  unfold execLowWordRead; try dsimp only
  repeat' with_reducible (first | assumption | apply State.read32_keeps | apply OKeeps.next)

theorem execLowWordWrite_keeps {ba : Bool} {z0 s : State} (a : RegAccess) (value : BitVec 32) (hk : Keeps ba z0 s) :
    OKeeps ba z0 (execLowWordWrite a value s) := by
  unfold execLowWordWrite; try dsimp only
  repeat' with_reducible (first | assumption | apply State.write32_keeps | apply OKeeps.next)

theorem execHighWordWrite_keeps {ba : Bool} {z0 s : State} (a : RegAccess) (value : BitVec 32) (hk : Keeps ba z0 s) :
    OKeeps ba z0 (execHighWordWrite a value s) := by
  unfold execHighWordWrite; try dsimp only
  repeat' with_reducible (first | assumption | apply State.write32_keeps | apply OKeeps.next)

theorem execRegisterWrite_keeps {ba : Bool} {z0 s : State} (a : RegAccess) (value : BitVec 32) (hk : Keeps ba z0 s) :
    OKeeps ba z0 (execRegisterWrite a value s) := by
  unfold execRegisterWrite; try dsimp only
  repeat' with_reducible (first | assumption | apply State.write32_keeps | apply OKeeps.next)

theorem execEvqCtlWrite_keeps {ba : Bool} {z0 s : State} (value : BitVec 32) (hk : Keeps ba z0 s) :
    OKeeps ba z0 (execEvqCtlWrite value s) := by
  unfold execEvqCtlWrite; try dsimp only
  repeat' with_reducible (first | assumption | exact id | exact fun hh => Evq.writeCtl_size _ hh | exact fun hh => Evq.writeHead_size _ hh | apply State.modEvq_keeps | apply OKeeps.next)

theorem execEvqHeadWrite_keeps {ba : Bool} {z0 s : State} (value : BitVec 32) (hk : Keeps ba z0 s) :
    OKeeps ba z0 (execEvqHeadWrite value s) := by
  unfold execEvqHeadWrite; try dsimp only
  repeat' with_reducible (first | assumption | exact id | exact fun hh => Evq.writeCtl_size _ hh | exact fun hh => Evq.writeHead_size _ hh | apply State.modEvq_keeps | apply OKeeps.next)

theorem State.mgmtAccess_keeps {ba : Bool} {z0 s : State} (p : Packet) (hk : Keeps ba z0 s) : Keeps ba z0 (State.mgmtAccess s p).1 := by
  unfold State.mgmtAccess
  dsimp only
  simp only [apply_ite Prod.fst]
  repeat' with_reducible (first | assumption | refine Keeps.ite (fun _ => ?_) (fun _ => ?_) | apply State.write64_keeps | apply State.write32_keeps | apply State.read32_keeps | apply State.read64_keeps)

theorem execMgmtReq_keeps {ba : Bool} {z0 s : State} (rx : Nat) (hk : Keeps ba z0 s) :
    OKeeps ba z0 (execMgmtReq rx s) := by
  unfold execMgmtReq; try dsimp only
  repeat' with_reducible (first | assumption | refine State.arrivalDrop_keeps (by assumption) ?_ | apply State.mgmtAccess_keeps | apply State.dropRx_keeps | apply State.sendPacket_keeps | apply OKeeps.next | refine Keeps.ite (fun _ => ?_) (fun _ => ?_) | refine OKeeps.ite (fun _ => ?_) (fun _ => ?_) | split)

theorem State.queuePut_keeps {ba : Bool} {z0 s : State} (o : Nat) (k_0 : List (BitVec 8)) (hk : Keeps ba z0 s) :
    Keeps ba z0 (State.queuePut s o k_0) := by
  induction k_0 generalizing s o with
  | nil =>
    unfold State.queuePut; try dsimp only
    repeat' with_reducible (first | assumption | exact id | exact Memory.write_wf _ _ | apply State.modHif_keeps | refine Keeps.ite (fun _ => ?_) (fun _ => ?_) | split | refine Keeps.upd rfl (fun _ => rfl) id id id id id id id ?_)
  | cons x_ xs_ ih =>
    unfold State.queuePut; try dsimp only
    repeat' with_reducible (first | assumption | exact id | apply ih | exact Memory.write_wf _ _ | apply State.modHif_keeps | refine Keeps.ite (fun _ => ?_) (fun _ => ?_) | split | refine Keeps.upd rfl (fun _ => rfl) id id id id id id id ?_)

theorem State.hostWadi_keeps {ba : Bool} {z0 s : State} (link : Nat) (cls : Nat) (off : Nat) (i : Nat) (k_0 : Nat) (k_1 : List (BitVec 8)) (hk : Keeps ba z0 s) :
    Keeps ba z0 (State.hostWadi s link cls off i k_0 k_1) := by
  induction k_0 generalizing s link cls off i k_1 with
  | zero =>
    unfold State.hostWadi; try dsimp only
    repeat' with_reducible (first | assumption | apply State.sendWadi_keeps | refine Keeps.ite (fun _ => ?_) (fun _ => ?_) | split)
  | succ n_ ih =>
    unfold State.hostWadi; try dsimp only
    repeat' with_reducible (first | assumption | apply ih | apply State.sendWadi_keeps | refine Keeps.ite (fun _ => ?_) (fun _ => ?_) | split)

theorem State.hostWrite_keeps {ba : Bool} {z0 s : State} (link : Nat) (cls : Nat) (tag : Nat) (a : Nat) (data : List (BitVec 8)) (hk : Keeps ba z0 s) :
    Keeps ba z0 (State.hostWrite s link cls tag a data) := by
  unfold State.hostWrite; try dsimp only
  repeat' with_reducible (first | assumption | apply State.hostWadi_keeps | apply State.queuePut_keeps | apply State.write64_keeps | apply State.write32_keeps | apply State.askStack_keeps | apply State.answer_keeps | refine Keeps.ite (fun _ => ?_) (fun _ => ?_) | split)

theorem State.hostRead_keeps {ba : Bool} {z0 s : State} (link : Nat) (cls : Nat) (tag : Nat) (a : Nat) (n : Nat) (hk : Keeps ba z0 s) :
    Keeps ba z0 (State.hostRead s link cls tag a n) := by
  unfold State.hostRead; try dsimp only
  repeat' with_reducible (first | assumption | apply State.read64_keeps | apply State.read32_keeps | apply State.askStack_keeps | apply State.answer_keeps | refine Keeps.ite (fun _ => ?_) (fun _ => ?_) | split)

theorem State.holdRequest_keeps {ba : Bool} {z0 s : State} (link : Nat) (tag : Nat) (hk : Keeps ba z0 s) :
    Keeps ba z0 (State.holdRequest s link tag) := by
  unfold State.holdRequest; try dsimp only
  repeat' with_reducible (first | assumption | exact id | apply State.modHif_keeps | refine Keeps.upd rfl (fun _ => rfl) id id id id id id id ?_)

theorem execMwr_keeps {ba : Bool} {z0 s : State} (link : HostLink) (head : HostHead) (data : List (BitVec 8)) (hk : Keeps ba z0 s) :
    OKeeps ba z0 (execMwr link head data s) := by
  unfold execMwr; try dsimp only
  repeat' with_reducible (first | assumption | apply State.holdRequest_keeps | apply State.hostWrite_keeps | apply State.answer_keeps | apply OKeeps.next | refine Keeps.ite (fun _ => ?_) (fun _ => ?_) | refine OKeeps.ite (fun _ => ?_) (fun _ => ?_) | split)

theorem execMrd_keeps {ba : Bool} {z0 s : State} (link : HostLink) (head : HostHead) (hk : Keeps ba z0 s) :
    OKeeps ba z0 (execMrd link head s) := by
  unfold execMrd; try dsimp only
  repeat' with_reducible (first | assumption | apply State.holdRequest_keeps | apply State.hostRead_keeps | apply State.answer_keeps | apply OKeeps.next | refine Keeps.ite (fun _ => ?_) (fun _ => ?_) | refine OKeeps.ite (fun _ => ?_) (fun _ => ?_))

end Sys2Proof.Machine
end

