-- ==== Sys2Proof/Laws/KeepsRouteOps.lean ====
section
/-! SUPPORT. What the operations of Machine/RouteOps.lean keep. -/

namespace Sys2Proof.Machine

open Sys2Proof

theorem execSendv_keeps {ba : Bool} {z0 s : State} (p : PCore) (h : Header) (g : BitVec 5) (cls : BitVec 2) (reg : BitVec 6) (target : BitVec 14) (doff : BitVec 15) (hk : Keeps ba z0 s) :
    OKeeps ba z0 (execSendv p h g cls reg target doff s) := by
  unfold execSendv; try dsimp only
  repeat' with_reducible (first | assumption | apply State.issueBundle_keeps | apply OKeeps.next)

theorem execSendq_keeps {ba : Bool} {z0 s : State} (p : PCore) (h : Header) (g : BitVec 5) (cls : BitVec 2) (reg : BitVec 6) (q : BitVec 2) (target : BitVec 14) (doff : BitVec 15) (hk : Keeps ba z0 s) :
    OKeeps ba z0 (execSendq p h g cls reg q target doff s) := by
  unfold execSendq; try dsimp only
  repeat' with_reducible (first | assumption | apply State.issueBundle_keeps | apply OKeeps.next)

theorem execSendw_keeps {ba : Bool} {z0 s : State} (p : PCore) (h : Header) (g : BitVec 5) (cls : BitVec 2) (reg : BitVec 6) (target : BitVec 14) (doff : BitVec 15) (hk : Keeps ba z0 s) :
    OKeeps ba z0 (execSendw p h g cls reg target doff s) := by
  unfold execSendw; try dsimp only
  repeat' with_reducible (first | assumption | apply State.issueBundle_keeps | apply OKeeps.next)

theorem execWsendv_keeps {ba : Bool} {z0 s : State} (p : PCore) (h : Header) (g : BitVec 5) (cls : BitVec 2) (reg : BitVec 6) (target : BitVec 14) (doff : BitVec 15) (hk : Keeps ba z0 s) :
    OKeeps ba z0 (execWsendv p h g cls reg target doff s) := by
  unfold execWsendv; try dsimp only
  repeat' with_reducible (first | assumption | apply State.issueBundle_keeps | apply OKeeps.next)

theorem execWsendq_keeps {ba : Bool} {z0 s : State} (p : PCore) (h : Header) (g : BitVec 5) (cls : BitVec 2) (reg : BitVec 6) (q : BitVec 2) (target : BitVec 14) (doff : BitVec 15) (hk : Keeps ba z0 s) :
    OKeeps ba z0 (execWsendq p h g cls reg q target doff s) := by
  unfold execWsendq; try dsimp only
  repeat' with_reducible (first | assumption | apply State.issueBundle_keeps | apply OKeeps.next)

theorem execRedv_keeps {ba : Bool} {z0 s : State} (p : PCore) (h : Header) (g : BitVec 5) (cls : BitVec 2) (reg : BitVec 6) (target : BitVec 14) (hk : Keeps ba z0 s) :
    OKeeps ba z0 (execRedv p h g cls reg target s) := by
  unfold execRedv; try dsimp only
  repeat' with_reducible (first | assumption | apply State.issueBundle_keeps | apply OKeeps.next)

theorem execCircv_keeps {ba : Bool} {z0 s : State} (p : PCore) (h : Header) (g : BitVec 5) (cls : BitVec 2) (reg : BitVec 6) (target : BitVec 14) (doff : BitVec 15) (hk : Keeps ba z0 s) :
    OKeeps ba z0 (execCircv p h g cls reg target doff s) := by
  unfold execCircv; try dsimp only
  repeat' with_reducible (first | assumption | apply State.issueBundle_keeps | apply OKeeps.next)

theorem execStrm_keeps {ba : Bool} {z0 s : State} (p : PCore) (h : Header) (g : BitVec 5) (cls : BitVec 2) (reg : BitVec 6) (target : BitVec 14) (hk : Keeps ba z0 s) :
    OKeeps ba z0 (execStrm p h g cls reg target s) := by
  unfold execStrm; try dsimp only
  repeat' with_reducible (first | assumption | apply State.issueBundle_keeps | apply OKeeps.next)

theorem execSaecmd_keeps {ba : Bool} {z0 s : State} (p : PCore) (h : Header) (g : BitVec 5) (cls : BitVec 2) (reg : BitVec 6) (target : BitVec 14) (hk : Keeps ba z0 s) :
    OKeeps ba z0 (execSaecmd p h g cls reg target s) := by
  unfold execSaecmd; try dsimp only
  repeat' with_reducible (first | assumption | apply State.issueBundle_keeps | apply OKeeps.next)

theorem execWopen_keeps {ba : Bool} {z0 s : State} (p : PCore) (h : Header) (g : BitVec 5) (reg : BitVec 6) (target : BitVec 14) (hk : Keeps ba z0 s) :
    OKeeps ba z0 (execWopen p h g reg target s) := by
  unfold execWopen; try dsimp only
  repeat' with_reducible (first | assumption | apply State.issueBundle_keeps | apply OKeeps.next)

theorem execWclose_keeps {ba : Bool} {z0 s : State} (p : PCore) (h : Header) (g : BitVec 5) (target : BitVec 14) (hk : Keeps ba z0 s) :
    OKeeps ba z0 (execWclose p h g target s) := by
  unfold execWclose; try dsimp only
  repeat' with_reducible (first | assumption | apply State.issueBundle_keeps | apply OKeeps.next)

theorem execRdma_keeps {ba : Bool} {z0 s : State} (p : PCore) (h : Header) (g : BitVec 5) (cls : BitVec 2) (reg : BitVec 6) (hk : Keeps ba z0 s) :
    OKeeps ba z0 (execRdma p h g cls reg s) := by
  unfold execRdma; try dsimp only
  repeat' with_reducible (first | assumption | apply State.issueBundle_keeps | apply OKeeps.next)

end Sys2Proof.Machine
end

