-- ==== Sys2Proof/Laws/KeepsSae.lean ====
section
/-! SUPPORT. What the operations of Machine/Sae.lean keep. -/

namespace Sys2Proof.Machine

open Sys2Proof

theorem execSaeCommand_keeps {ba : Bool} {z0 s : State} (flit : Nat) (hk : Keeps ba z0 s) :
    OKeeps ba z0 (execSaeCommand flit s) := by
  unfold execSaeCommand; try dsimp only
  repeat' with_reducible (first | assumption | exact id | apply State.refuse_keeps | apply State.dropFlit_keeps | apply State.modStacks_keeps | apply State.modStack_keeps | apply State.advance_keeps | apply foldl_keeps | apply OKeeps.next | exact OKeeps.fault _ | refine Keeps.ite (fun _ => ?_) (fun _ => ?_) | refine OKeeps.ite (fun _ => ?_) (fun _ => ?_) | split | intro _ | refine Keeps.upd rfl (fun _ => rfl) id id id id id id id ?_)

theorem State.saeFault_keeps {ba : Bool} {z0 s : State} (n : Nat) (kind : Nat) (hk : Keeps ba z0 s) :
    Keeps ba z0 (State.saeFault s n kind) := by
  unfold State.saeFault; try dsimp only
  repeat' with_reducible (first | assumption | apply State.modStack_keeps | apply State.cntOvf_keeps | apply State.raise_keeps | refine Keeps.upd rfl (fun _ => rfl) id id id id id id id ?_)

theorem execSaeStart_keeps {ba : Bool} {z0 s : State} (cmd : Nat) (hk : Keeps ba z0 s) :
    OKeeps ba z0 (execSaeStart cmd s) := by
  unfold execSaeStart; try dsimp only
  repeat' with_reducible (first | assumption | exact id | apply State.saeFault_keeps | apply State.checkGranule_keeps | apply State.modStacks_keeps | apply State.advance_keeps | apply foldl_keeps | apply OKeeps.next | exact OKeeps.fault _ | refine Keeps.ite (fun _ => ?_) (fun _ => ?_) | refine OKeeps.ite (fun _ => ?_) (fun _ => ?_) | split | intro _ | refine Keeps.upd rfl (fun _ => rfl) id id id id id id id ?_)

theorem execSaeResult_keeps {ba : Bool} {z0 s : State} (cmd : Nat) (hk : Keeps ba z0 s) :
    OKeeps ba z0 (execSaeResult cmd s) := by
  unfold execSaeResult; try dsimp only
  repeat' with_reducible (first | assumption | exact id | apply State.deliverTo_keeps | apply State.crossIf_keeps | apply State.modStacks_keeps | apply State.advance_keeps | apply OKeeps.next | exact OKeeps.fault _ | refine Keeps.ite (fun _ => ?_) (fun _ => ?_) | refine OKeeps.ite (fun _ => ?_) (fun _ => ?_) | split | refine Keeps.upd rfl (fun _ => rfl) id id id id id id id ?_)

theorem execSaeDone_keeps {ba : Bool} {z0 s : State} (cmd : Nat) (hk : Keeps ba z0 s) :
    OKeeps ba z0 (execSaeDone cmd s) := by
  unfold execSaeDone; try dsimp only
  repeat' with_reducible (first | assumption | exact id | apply State.modStacks_keeps | apply State.modStack_keeps | apply State.syncCtx_keeps | apply State.modCtx_keeps | apply State.cntOvf_keeps | apply State.advance_keeps | apply OKeeps.next | refine Keeps.ite (fun _ => ?_) (fun _ => ?_) | refine OKeeps.ite (fun _ => ?_) (fun _ => ?_) | split | refine Keeps.upd rfl (fun _ => rfl) id id id id id id id ?_)

end Sys2Proof.Machine
end

