-- ==== Sys2Proof/Laws/KeepsServe.lean ====
section
/-! SUPPORT. What the operations of Machine/Serve.lean keep. -/

namespace Sys2Proof.Machine

open Sys2Proof

theorem State.accessServed_keeps {ba : Bool} {z0 s : State} (v : Served) (hk : Keeps ba z0 s) :
    Keeps ba z0 (State.accessServed s v) := by
  unfold State.accessServed; try dsimp only
  repeat' with_reducible (first | assumption | apply State.resultServed_keeps | apply State.copyServed_keeps | apply State.snapGot_keeps | apply State.modIncoming_keeps | apply State.settle_keeps | apply State.rdmaGo_keeps | apply State.answer_keeps | refine Keeps.ite (fun _ => ?_) (fun _ => ?_) | split | refine Keeps.upd rfl (fun _ => rfl) id id id id id id id ?_)

theorem State.sendReady_keeps {ba : Bool} {z0 s : State} (e : RdmaSend) (k_0 : Nat) (hk : Keeps ba z0 s) :
    Keeps ba z0 (State.sendReady s e k_0).1 := by
  induction k_0 generalizing s e with
  | zero =>
    unfold State.sendReady; try dsimp only
    repeat' with_reducible (first | assumption | apply State.ready_keeps | apply State.sendPacket_keeps | refine Keeps.ite (fun _ => ?_) (fun _ => ?_) | split | refine Keeps.upd rfl (fun _ => rfl) id id id id id id id ?_)
  | succ n_ ih =>
    unfold State.sendReady; try dsimp only
    repeat' with_reducible (first | assumption | apply ih | apply State.ready_keeps | apply State.sendPacket_keeps | refine Keeps.ite (fun _ => ?_) (fun _ => ?_) | split | refine Keeps.upd rfl (fun _ => rfl) id id id id id id id ?_)

theorem State.gatewayTakes_keeps {ba : Bool} {z0 s : State} (id : Nat) (i : Nat) (bytes : List (BitVec 8)) (poison : BitVec 8) (hk : Keeps ba z0 s) :
    Keeps ba z0 (State.gatewayTakes s id i bytes poison) := by
  unfold State.gatewayTakes; try dsimp only
  repeat' with_reducible (first | assumption | apply State.sendReady_keeps | apply State.cvuNext_keeps | apply State.modCvu_keeps | apply State.sendPacket_keeps | apply State.modZfp_keeps | refine Keeps.ite (fun _ => ?_) (fun _ => ?_) | split | refine Keeps.upd rfl (fun _ => rfl) id id id id id id id ?_)

theorem execWadiFlitArrival_keeps {ba : Bool} {z0 s : State} (flit : Nat) (hk : Keeps ba z0 s) :
    OKeeps ba z0 (execWadiFlitArrival flit s) := by
  unfold execWadiFlitArrival; try dsimp only
  repeat' with_reducible (first | assumption | apply State.gatewayTakes_keeps | apply State.coreWadi_keeps | apply State.dropFlit_keeps | apply State.advance_keeps | apply OKeeps.next | refine Keeps.ite (fun _ => ?_) (fun _ => ?_) | refine OKeeps.ite (fun _ => ?_) (fun _ => ?_) | split)

theorem execUnscheduledAccessServe_keeps {ba : Bool} {z0 s : State} (stack : Stack) (hk : Keeps ba z0 s) :
    OKeeps ba z0 (execUnscheduledAccessServe stack s) := by
  unfold execUnscheduledAccessServe; try dsimp only
  repeat' with_reducible (first | assumption | apply State.accessServed_keeps | apply State.serveAccess_keeps | apply OKeeps.next | split)

theorem execStackSweepDone_keeps {ba : Bool} {z0 s : State} (stack : Stack) (hk : Keeps ba z0 s) :
    OKeeps ba z0 (execStackSweepDone stack s) := by
  unfold execStackSweepDone; try dsimp only
  repeat' with_reducible (first | assumption | apply State.proceed_keeps | apply State.sweepRegion_keeps | apply State.modStack_keeps | apply State.raise_keeps | apply State.each_keeps | apply OKeeps.next | refine Keeps.ite (fun _ => ?_) (fun _ => ?_) | refine OKeeps.ite (fun _ => ?_) (fun _ => ?_) | intro _ | refine Keeps.upd rfl (fun _ => rfl) id id id id id id id ?_)

theorem execCvuStreamEnd_keeps {ba : Bool} {z0 s : State} (unit : Cvu) (bytes : List (BitVec 8)) (abandoned : Bool) (hk : Keeps ba z0 s) :
    OKeeps ba z0 (execCvuStreamEnd unit bytes abandoned s) := by
  unfold execCvuStreamEnd; try dsimp only
  repeat' with_reducible (first | assumption | apply State.cvuNext_keeps | apply State.workCvu_keeps | apply State.checkTrailer_keeps | apply State.modCvu_keeps | apply OKeeps.next | refine Keeps.ite (fun _ => ?_) (fun _ => ?_) | refine OKeeps.ite (fun _ => ?_) (fun _ => ?_) | split)

end Sys2Proof.Machine
end

