-- ==== Sys2Proof/Laws/KeepsTensor.lean ====
section
/-! SUPPORT. What the operations of Machine/Tensor.lean keep. -/

namespace Sys2Proof.Machine

open Sys2Proof

theorem execMma_keeps {ba : Bool} {z0 s : State} (p : PCore) (h : Header) (g : BitVec 5) (va : BitVec 5) (vb : BitVec 5) (afmt : BitVec 4) (bfmt : BitVec 4) (scale : BitVec 3) (agrp : BitVec 2) (bgrp : BitVec 2) (accz : Bool) (hk : Keeps ba z0 s) :
    OKeeps ba z0 (execMma p h g va vb afmt bfmt scale agrp bgrp accz s) := by
  unfold execMma; try dsimp only
  repeat' with_reducible (first | assumption | apply State.issueBundle_keeps | apply OKeeps.next)

end Sys2Proof.Machine
end

