-- ==== Sys2Proof/Laws/KeepsUpkeep.lean ====
section
/-! SUPPORT. What the operations of Machine/Upkeep.lean keep. -/

namespace Sys2Proof.Machine

open Sys2Proof

theorem State.scrubWord_keeps {ba : Bool} {z0 s : State} (p : Nat) (w : Nat) (hk : Keeps ba z0 s) :
    Keeps ba z0 (State.scrubWord s p w) := by
  unfold State.scrubWord; try dsimp only
  repeat' with_reducible (first | assumption | exact id | apply State.readWord_keeps | apply State.modSrams_keeps | refine Keeps.ite (fun _ => ?_) (fun _ => ?_) | refine Keeps.upd rfl (fun _ => rfl) id id id id id id id ?_)

theorem State.scrubBundle_keeps {ba : Bool} {z0 s : State} (p : Nat) (j : Nat) (hk : Keeps ba z0 s) :
    Keeps ba z0 (State.scrubBundle s p j) := by
  unfold State.scrubBundle; try dsimp only
  repeat' with_reducible (first | assumption | exact id | apply State.modSrams_keeps | apply State.countUncorr_keeps | apply State.countCorr_keeps | split | refine Keeps.upd rfl (fun _ => rfl) id id id id id id id ?_)

theorem State.scrubCore_keeps {ba : Bool} {z0 s : State} (p : Nat) (granule : Nat) (hk : Keeps ba z0 s) :
    Keeps ba z0 (State.scrubCore s p granule) := by
  unfold State.scrubCore; try dsimp only
  repeat' with_reducible (first | assumption | apply State.scrubBundle_keeps | apply State.scrubWord_keeps | apply State.sync_keeps | apply State.each_keeps | refine Keeps.ite (fun _ => ?_) (fun _ => ?_) | intro _)

theorem State.scrubStack_keeps {ba : Bool} {z0 s : State} (n : Nat) (granule : Nat) (hk : Keeps ba z0 s) :
    Keeps ba z0 (State.scrubStack s n granule) := by
  unfold State.scrubStack; try dsimp only
  repeat' with_reducible (first | assumption | exact id | apply State.checkGranule_keeps | apply State.modStacks_keeps | refine Keeps.ite (fun _ => ?_) (fun _ => ?_) | refine Keeps.upd rfl (fun _ => rfl) id id id id id id id ?_)

theorem State.actDone_keeps {ba : Bool} {z0 s : State} (act : Nat) (hk : Keeps ba z0 s) :
    Keeps ba z0 (State.actDone s act) := by
  unfold State.actDone; try dsimp only
  repeat' with_reducible (first | assumption | apply State.modNvm_keeps | refine Keeps.ite (fun _ => ?_) (fun _ => ?_) | refine Keeps.upd rfl (fun _ => rfl) id id id id id id id ?_)

theorem execBackgroundUnit_keeps {ba : Bool} {z0 s : State} (act : Fin 7) (served : Nat) (unit : Nat) (granule : Nat) (hk : Keeps ba z0 s) :
    OKeeps ba z0 (execBackgroundUnit act served unit granule s) := by
  unfold execBackgroundUnit; try dsimp only
  repeat' with_reducible (first | assumption | apply State.actDone_keeps | apply State.scrubStack_keeps | apply State.scrubCore_keeps | apply State.modAct_keeps | apply State.serve_keeps | apply OKeeps.next | refine Keeps.ite (fun _ => ?_) (fun _ => ?_) | refine OKeeps.ite (fun _ => ?_) (fun _ => ?_))

theorem execPeriodEnd_keeps {ba : Bool} {z0 s : State} (act : Fin 7) (unit : BitVec 16) (work : Nat) (hk : Keeps ba z0 s) :
    OKeeps ba z0 (execPeriodEnd act unit work s) := by
  unfold execPeriodEnd; try dsimp only
  repeat' with_reducible (first | assumption | apply State.modAct_keeps | apply State.cntOvf_keeps | apply State.raise_keeps | apply OKeeps.next | refine Keeps.ite (fun _ => ?_) (fun _ => ?_) | refine OKeeps.ite (fun _ => ?_) (fun _ => ?_) | refine Keeps.upd rfl (fun _ => rfl) id id id id id id id ?_)

theorem State.forwardEvent_keeps {ba : Bool} {z0 s : State} (e : EventRec) (hk : Keeps ba z0 s) :
    Keeps ba z0 (State.forwardEvent s e) := by
  unfold State.forwardEvent; try dsimp only
  repeat' with_reducible (first | assumption | apply State.sendPacket_keeps | apply foldl_keeps | split | intro _)

theorem State.countLostEvents_keeps {ba : Bool} {z0 s : State} (n : Nat) (hk : Keeps ba z0 s) :
    Keeps ba z0 (State.countLostEvents s n) := by
  unfold State.countLostEvents; try dsimp only
  repeat' with_reducible (first | assumption | exact id | apply State.modEvq_keeps | apply State.cntOvf_keeps | refine Keeps.upd rfl (fun _ => rfl) id id id id id id id ?_)

theorem execEventFlit_keeps {ba : Bool} {z0 s : State} (hk : Keeps ba z0 s) :
    OKeeps ba z0 (execEventFlit s) := by
  unfold execEventFlit; try dsimp only
  repeat' with_reducible (first | assumption | exact id | apply State.countLostEvents_keeps | apply State.forwardEvent_keeps | apply State.modEvq_keeps | apply OKeeps.next | refine Keeps.ite (fun _ => ?_) (fun _ => ?_) | refine OKeeps.ite (fun _ => ?_) (fun _ => ?_) | split | refine Keeps.upd rfl (fun _ => rfl) id id id id id id id ?_)

theorem State.putEntry_keeps {ba : Bool} {z0 s : State} (e : EventRec) (hk : Keeps ba z0 s) :
    Keeps ba z0 (State.putEntry s e) := by
  unfold State.putEntry; try dsimp only
  repeat' with_reducible (first | assumption | exact id | apply State.modEvq_keeps | apply State.hostXfer_keeps | refine Keeps.upd rfl (fun _ => rfl) id id id id id id id ?_)

theorem execEventWrite_keeps {ba : Bool} {z0 s : State} (hk : Keeps ba z0 s) :
    OKeeps ba z0 (execEventWrite s) := by
  unfold execEventWrite; try dsimp only
  repeat' with_reducible (first | assumption | exact id | apply State.putEntry_keeps | apply State.modEvq_keeps | apply OKeeps.next | refine Keeps.ite (fun _ => ?_) (fun _ => ?_) | refine OKeeps.ite (fun _ => ?_) (fun _ => ?_) | split | refine Keeps.upd rfl (fun _ => rfl) id id id id id id id ?_)

theorem execSmbusBlockRead_keeps {ba : Bool} {z0 s : State} (addr : BitVec 7) (code : BitVec 8) (hk : Keeps ba z0 s) :
    OKeeps ba z0 (execSmbusBlockRead addr code s) := by
  unfold execSmbusBlockRead; try dsimp only
  repeat' with_reducible (first | assumption | apply OKeeps.next | refine Keeps.ite (fun _ => ?_) (fun _ => ?_) | refine OKeeps.ite (fun _ => ?_) (fun _ => ?_) | split | refine Keeps.upd rfl (fun _ => rfl) id id id id id id id ?_)

theorem execSmbusWrite_keeps {ba : Bool} {z0 s : State} (_addr : BitVec 7) (_code : BitVec 8) (_bytes : List (BitVec 8)) (hk : Keeps ba z0 s) :
    OKeeps ba z0 (execSmbusWrite _addr _code _bytes s) := by
  unfold execSmbusWrite; try dsimp only
  repeat' with_reducible (first | assumption | apply OKeeps.next | refine Keeps.upd rfl (fun _ => rfl) id id id id id id id ?_)

theorem execCarrierRemoved_keeps {ba : Bool} {z0 s : State} (bay : Fin 8) (hk : Keeps ba z0 s) :
    OKeeps ba z0 (execCarrierRemoved bay s) := by
  unfold execCarrierRemoved; try dsimp only
  repeat' with_reducible (first | assumption | apply State.channelOut_keeps | apply State.each_keeps | apply OKeeps.next | intro _ | refine Keeps.upd rfl (fun _ => rfl) id id id id id id id ?_)

theorem execCarrierInserted_keeps {ba : Bool} {z0 s : State} (_bay : Fin 8) (hk : Keeps ba z0 s) :
    OKeeps ba z0 (execCarrierInserted _bay s) := by
  unfold execCarrierInserted; try dsimp only
  repeat' with_reducible (first | assumption | apply OKeeps.next)

end Sys2Proof.Machine
end

