-- ==== Sys2Proof/Laws/KeepsVector.lean ====
section
/-! SUPPORT. What the operations of Machine/Vector.lean keep. -/

namespace Sys2Proof.Machine

open Sys2Proof

theorem execFadd_keeps {ba : Bool} {z0 s : State} (p : PCore) (h : Header) (g : BitVec 5) (vd : BitVec 6) (va : BitVec 6) (vb : BitVec 6) (rm : BitVec 2) (hk : Keeps ba z0 s) :
    OKeeps ba z0 (execFadd p h g vd va vb rm s) := by
  unfold execFadd; try dsimp only
  repeat' with_reducible (first | assumption | apply State.issueBundle_keeps | apply OKeeps.next)

theorem execFsub_keeps {ba : Bool} {z0 s : State} (p : PCore) (h : Header) (g : BitVec 5) (vd : BitVec 6) (va : BitVec 6) (vb : BitVec 6) (rm : BitVec 2) (hk : Keeps ba z0 s) :
    OKeeps ba z0 (execFsub p h g vd va vb rm s) := by
  unfold execFsub; try dsimp only
  repeat' with_reducible (first | assumption | apply State.issueBundle_keeps | apply OKeeps.next)

theorem execFmul_keeps {ba : Bool} {z0 s : State} (p : PCore) (h : Header) (g : BitVec 5) (vd : BitVec 6) (va : BitVec 6) (vb : BitVec 6) (rm : BitVec 2) (hk : Keeps ba z0 s) :
    OKeeps ba z0 (execFmul p h g vd va vb rm s) := by
  unfold execFmul; try dsimp only
  repeat' with_reducible (first | assumption | apply State.issueBundle_keeps | apply OKeeps.next)

theorem execFma_keeps {ba : Bool} {z0 s : State} (p : PCore) (h : Header) (g : BitVec 5) (vd : BitVec 6) (va : BitVec 6) (vb : BitVec 6) (vc : BitVec 6) (rm : BitVec 2) (hk : Keeps ba z0 s) :
    OKeeps ba z0 (execFma p h g vd va vb vc rm s) := by
  unfold execFma; try dsimp only
  repeat' with_reducible (first | assumption | apply State.issueBundle_keeps | apply OKeeps.next)

theorem execFms_keeps {ba : Bool} {z0 s : State} (p : PCore) (h : Header) (g : BitVec 5) (vd : BitVec 6) (va : BitVec 6) (vb : BitVec 6) (vc : BitVec 6) (rm : BitVec 2) (hk : Keeps ba z0 s) :
    OKeeps ba z0 (execFms p h g vd va vb vc rm s) := by
  unfold execFms; try dsimp only
  repeat' with_reducible (first | assumption | apply State.issueBundle_keeps | apply OKeeps.next)

theorem execFnma_keeps {ba : Bool} {z0 s : State} (p : PCore) (h : Header) (g : BitVec 5) (vd : BitVec 6) (va : BitVec 6) (vb : BitVec 6) (vc : BitVec 6) (rm : BitVec 2) (hk : Keeps ba z0 s) :
    OKeeps ba z0 (execFnma p h g vd va vb vc rm s) := by
  unfold execFnma; try dsimp only
  repeat' with_reducible (first | assumption | apply State.issueBundle_keeps | apply OKeeps.next)

theorem execFmin_keeps {ba : Bool} {z0 s : State} (p : PCore) (h : Header) (g : BitVec 5) (vd : BitVec 6) (va : BitVec 6) (vb : BitVec 6) (hk : Keeps ba z0 s) :
    OKeeps ba z0 (execFmin p h g vd va vb s) := by
  unfold execFmin; try dsimp only
  repeat' with_reducible (first | assumption | apply State.issueBundle_keeps | apply OKeeps.next)

theorem execFmax_keeps {ba : Bool} {z0 s : State} (p : PCore) (h : Header) (g : BitVec 5) (vd : BitVec 6) (va : BitVec 6) (vb : BitVec 6) (hk : Keeps ba z0 s) :
    OKeeps ba z0 (execFmax p h g vd va vb s) := by
  unfold execFmax; try dsimp only
  repeat' with_reducible (first | assumption | apply State.issueBundle_keeps | apply OKeeps.next)

theorem execFabs_keeps {ba : Bool} {z0 s : State} (p : PCore) (h : Header) (g : BitVec 5) (vd : BitVec 6) (va : BitVec 6) (hk : Keeps ba z0 s) :
    OKeeps ba z0 (execFabs p h g vd va s) := by
  unfold execFabs; try dsimp only
  repeat' with_reducible (first | assumption | apply State.issueBundle_keeps | apply OKeeps.next)

theorem execFneg_keeps {ba : Bool} {z0 s : State} (p : PCore) (h : Header) (g : BitVec 5) (vd : BitVec 6) (va : BitVec 6) (hk : Keeps ba z0 s) :
    OKeeps ba z0 (execFneg p h g vd va s) := by
  unfold execFneg; try dsimp only
  repeat' with_reducible (first | assumption | apply State.issueBundle_keeps | apply OKeeps.next)

theorem execFeq_keeps {ba : Bool} {z0 s : State} (p : PCore) (h : Header) (g : BitVec 5) (vd : BitVec 6) (va : BitVec 6) (vb : BitVec 6) (hk : Keeps ba z0 s) :
    OKeeps ba z0 (execFeq p h g vd va vb s) := by
  unfold execFeq; try dsimp only
  repeat' with_reducible (first | assumption | apply State.issueBundle_keeps | apply OKeeps.next)

theorem execFlt_keeps {ba : Bool} {z0 s : State} (p : PCore) (h : Header) (g : BitVec 5) (vd : BitVec 6) (va : BitVec 6) (vb : BitVec 6) (hk : Keeps ba z0 s) :
    OKeeps ba z0 (execFlt p h g vd va vb s) := by
  unfold execFlt; try dsimp only
  repeat' with_reducible (first | assumption | apply State.issueBundle_keeps | apply OKeeps.next)

theorem execFle_keeps {ba : Bool} {z0 s : State} (p : PCore) (h : Header) (g : BitVec 5) (vd : BitVec 6) (va : BitVec 6) (vb : BitVec 6) (hk : Keeps ba z0 s) :
    OKeeps ba z0 (execFle p h g vd va vb s) := by
  unfold execFle; try dsimp only
  repeat' with_reducible (first | assumption | apply State.issueBundle_keeps | apply OKeeps.next)

theorem execFunord_keeps {ba : Bool} {z0 s : State} (p : PCore) (h : Header) (g : BitVec 5) (vd : BitVec 6) (va : BitVec 6) (vb : BitVec 6) (hk : Keeps ba z0 s) :
    OKeeps ba z0 (execFunord p h g vd va vb s) := by
  unfold execFunord; try dsimp only
  repeat' with_reducible (first | assumption | apply State.issueBundle_keeps | apply OKeeps.next)

theorem execFnonfin_keeps {ba : Bool} {z0 s : State} (p : PCore) (h : Header) (g : BitVec 5) (vd : BitVec 6) (va : BitVec 6) (hk : Keeps ba z0 s) :
    OKeeps ba z0 (execFnonfin p h g vd va s) := by
  unfold execFnonfin; try dsimp only
  repeat' with_reducible (first | assumption | apply State.issueBundle_keeps | apply OKeeps.next)

theorem execIeq_keeps {ba : Bool} {z0 s : State} (p : PCore) (h : Header) (g : BitVec 5) (vd : BitVec 6) (va : BitVec 6) (vb : BitVec 6) (hk : Keeps ba z0 s) :
    OKeeps ba z0 (execIeq p h g vd va vb s) := by
  unfold execIeq; try dsimp only
  repeat' with_reducible (first | assumption | apply State.issueBundle_keeps | apply OKeeps.next)

theorem execIlt_keeps {ba : Bool} {z0 s : State} (p : PCore) (h : Header) (g : BitVec 5) (vd : BitVec 6) (va : BitVec 6) (vb : BitVec 6) (hk : Keeps ba z0 s) :
    OKeeps ba z0 (execIlt p h g vd va vb s) := by
  unfold execIlt; try dsimp only
  repeat' with_reducible (first | assumption | apply State.issueBundle_keeps | apply OKeeps.next)

theorem execIltu_keeps {ba : Bool} {z0 s : State} (p : PCore) (h : Header) (g : BitVec 5) (vd : BitVec 6) (va : BitVec 6) (vb : BitVec 6) (hk : Keeps ba z0 s) :
    OKeeps ba z0 (execIltu p h g vd va vb s) := by
  unfold execIltu; try dsimp only
  repeat' with_reducible (first | assumption | apply State.issueBundle_keeps | apply OKeeps.next)

theorem execIadd_keeps {ba : Bool} {z0 s : State} (p : PCore) (h : Header) (g : BitVec 5) (vd : BitVec 6) (va : BitVec 6) (vb : BitVec 6) (hk : Keeps ba z0 s) :
    OKeeps ba z0 (execIadd p h g vd va vb s) := by
  unfold execIadd; try dsimp only
  repeat' with_reducible (first | assumption | apply State.issueBundle_keeps | apply OKeeps.next)

theorem execIsub_keeps {ba : Bool} {z0 s : State} (p : PCore) (h : Header) (g : BitVec 5) (vd : BitVec 6) (va : BitVec 6) (vb : BitVec 6) (hk : Keeps ba z0 s) :
    OKeeps ba z0 (execIsub p h g vd va vb s) := by
  unfold execIsub; try dsimp only
  repeat' with_reducible (first | assumption | apply State.issueBundle_keeps | apply OKeeps.next)

theorem execImul_keeps {ba : Bool} {z0 s : State} (p : PCore) (h : Header) (g : BitVec 5) (vd : BitVec 6) (va : BitVec 6) (vb : BitVec 6) (hk : Keeps ba z0 s) :
    OKeeps ba z0 (execImul p h g vd va vb s) := by
  unfold execImul; try dsimp only
  repeat' with_reducible (first | assumption | apply State.issueBundle_keeps | apply OKeeps.next)

theorem execVand_keeps {ba : Bool} {z0 s : State} (p : PCore) (h : Header) (g : BitVec 5) (vd : BitVec 6) (va : BitVec 6) (vb : BitVec 6) (hk : Keeps ba z0 s) :
    OKeeps ba z0 (execVand p h g vd va vb s) := by
  unfold execVand; try dsimp only
  repeat' with_reducible (first | assumption | apply State.issueBundle_keeps | apply OKeeps.next)

theorem execVor_keeps {ba : Bool} {z0 s : State} (p : PCore) (h : Header) (g : BitVec 5) (vd : BitVec 6) (va : BitVec 6) (vb : BitVec 6) (hk : Keeps ba z0 s) :
    OKeeps ba z0 (execVor p h g vd va vb s) := by
  unfold execVor; try dsimp only
  repeat' with_reducible (first | assumption | apply State.issueBundle_keeps | apply OKeeps.next)

theorem execVxor_keeps {ba : Bool} {z0 s : State} (p : PCore) (h : Header) (g : BitVec 5) (vd : BitVec 6) (va : BitVec 6) (vb : BitVec 6) (hk : Keeps ba z0 s) :
    OKeeps ba z0 (execVxor p h g vd va vb s) := by
  unfold execVxor; try dsimp only
  repeat' with_reducible (first | assumption | apply State.issueBundle_keeps | apply OKeeps.next)

theorem execVshl_keeps {ba : Bool} {z0 s : State} (p : PCore) (h : Header) (g : BitVec 5) (vd : BitVec 6) (va : BitVec 6) (vb : BitVec 6) (hk : Keeps ba z0 s) :
    OKeeps ba z0 (execVshl p h g vd va vb s) := by
  unfold execVshl; try dsimp only
  repeat' with_reducible (first | assumption | apply State.issueBundle_keeps | apply OKeeps.next)

theorem execVshr_keeps {ba : Bool} {z0 s : State} (p : PCore) (h : Header) (g : BitVec 5) (vd : BitVec 6) (va : BitVec 6) (vb : BitVec 6) (hk : Keeps ba z0 s) :
    OKeeps ba z0 (execVshr p h g vd va vb s) := by
  unfold execVshr; try dsimp only
  repeat' with_reducible (first | assumption | apply State.issueBundle_keeps | apply OKeeps.next)

theorem execVsra_keeps {ba : Bool} {z0 s : State} (p : PCore) (h : Header) (g : BitVec 5) (vd : BitVec 6) (va : BitVec 6) (vb : BitVec 6) (hk : Keeps ba z0 s) :
    OKeeps ba z0 (execVsra p h g vd va vb s) := by
  unfold execVsra; try dsimp only
  repeat' with_reducible (first | assumption | apply State.issueBundle_keeps | apply OKeeps.next)

theorem execImin_keeps {ba : Bool} {z0 s : State} (p : PCore) (h : Header) (g : BitVec 5) (vd : BitVec 6) (va : BitVec 6) (vb : BitVec 6) (hk : Keeps ba z0 s) :
    OKeeps ba z0 (execImin p h g vd va vb s) := by
  unfold execImin; try dsimp only
  repeat' with_reducible (first | assumption | apply State.issueBundle_keeps | apply OKeeps.next)

theorem execImax_keeps {ba : Bool} {z0 s : State} (p : PCore) (h : Header) (g : BitVec 5) (vd : BitVec 6) (va : BitVec 6) (vb : BitVec 6) (hk : Keeps ba z0 s) :
    OKeeps ba z0 (execImax p h g vd va vb s) := by
  unfold execImax; try dsimp only
  repeat' with_reducible (first | assumption | apply State.issueBundle_keeps | apply OKeeps.next)

theorem execVmov_keeps {ba : Bool} {z0 s : State} (p : PCore) (h : Header) (g : BitVec 5) (vd : BitVec 6) (va : BitVec 6) (hk : Keeps ba z0 s) :
    OKeeps ba z0 (execVmov p h g vd va s) := by
  unfold execVmov; try dsimp only
  repeat' with_reducible (first | assumption | apply State.issueBundle_keeps | apply OKeeps.next)

theorem execSel_keeps {ba : Bool} {z0 s : State} (p : PCore) (h : Header) (g : BitVec 5) (vd : BitVec 6) (va : BitVec 6) (vb : BitVec 6) (vc : BitVec 6) (hk : Keeps ba z0 s) :
    OKeeps ba z0 (execSel p h g vd va vb vc s) := by
  unfold execSel; try dsimp only
  repeat' with_reducible (first | assumption | apply State.issueBundle_keeps | apply OKeeps.next)

theorem execSplat_keeps {ba : Bool} {z0 s : State} (p : PCore) (h : Header) (g : BitVec 5) (vd : BitVec 6) (va : BitVec 6) (hk : Keeps ba z0 s) :
    OKeeps ba z0 (execSplat p h g vd va s) := by
  unfold execSplat; try dsimp only
  repeat' with_reducible (first | assumption | apply State.issueBundle_keeps | apply OKeeps.next)

theorem execExtr_keeps {ba : Bool} {z0 s : State} (p : PCore) (h : Header) (g : BitVec 5) (vd : BitVec 6) (va : BitVec 6) (vb : BitVec 6) (hk : Keeps ba z0 s) :
    OKeeps ba z0 (execExtr p h g vd va vb s) := by
  unfold execExtr; try dsimp only
  repeat' with_reducible (first | assumption | apply State.issueBundle_keeps | apply OKeeps.next)

theorem execPerm_keeps {ba : Bool} {z0 s : State} (p : PCore) (h : Header) (g : BitVec 5) (vd : BitVec 6) (va : BitVec 6) (vb : BitVec 6) (hk : Keeps ba z0 s) :
    OKeeps ba z0 (execPerm p h g vd va vb s) := by
  unfold execPerm; try dsimp only
  repeat' with_reducible (first | assumption | apply State.issueBundle_keeps | apply OKeeps.next)

theorem execIota_keeps {ba : Bool} {z0 s : State} (p : PCore) (h : Header) (g : BitVec 5) (vd : BitVec 6) (hk : Keeps ba z0 s) :
    OKeeps ba z0 (execIota p h g vd s) := by
  unfold execIota; try dsimp only
  repeat' with_reducible (first | assumption | apply State.issueBundle_keeps | apply OKeeps.next)

theorem execIns8_keeps {ba : Bool} {z0 s : State} (p : PCore) (h : Header) (g : BitVec 5) (vd : BitVec 6) (va : BitVec 6) (part : BitVec 3) (hk : Keeps ba z0 s) :
    OKeeps ba z0 (execIns8 p h g vd va part s) := by
  unfold execIns8; try dsimp only
  repeat' with_reducible (first | assumption | apply State.issueBundle_keeps | apply OKeeps.next)

theorem execExt8_keeps {ba : Bool} {z0 s : State} (p : PCore) (h : Header) (g : BitVec 5) (vd : BitVec 6) (va : BitVec 6) (part : BitVec 3) (hk : Keeps ba z0 s) :
    OKeeps ba z0 (execExt8 p h g vd va part s) := by
  unfold execExt8; try dsimp only
  repeat' with_reducible (first | assumption | apply State.issueBundle_keeps | apply OKeeps.next)

theorem execFsumr_keeps {ba : Bool} {z0 s : State} (p : PCore) (h : Header) (g : BitVec 5) (vd : BitVec 6) (va : BitVec 6) (hk : Keeps ba z0 s) :
    OKeeps ba z0 (execFsumr p h g vd va s) := by
  unfold execFsumr; try dsimp only
  repeat' with_reducible (first | assumption | apply State.issueBundle_keeps | apply OKeeps.next)

theorem execFmaxr_keeps {ba : Bool} {z0 s : State} (p : PCore) (h : Header) (g : BitVec 5) (vd : BitVec 6) (va : BitVec 6) (hk : Keeps ba z0 s) :
    OKeeps ba z0 (execFmaxr p h g vd va s) := by
  unfold execFmaxr; try dsimp only
  repeat' with_reducible (first | assumption | apply State.issueBundle_keeps | apply OKeeps.next)

theorem execRcp_keeps {ba : Bool} {z0 s : State} (p : PCore) (h : Header) (g : BitVec 5) (vd : BitVec 6) (va : BitVec 6) (hk : Keeps ba z0 s) :
    OKeeps ba z0 (execRcp p h g vd va s) := by
  unfold execRcp; try dsimp only
  repeat' with_reducible (first | assumption | apply State.issueBundle_keeps | apply OKeeps.next)

theorem execRsqrt_keeps {ba : Bool} {z0 s : State} (p : PCore) (h : Header) (g : BitVec 5) (vd : BitVec 6) (va : BitVec 6) (hk : Keeps ba z0 s) :
    OKeeps ba z0 (execRsqrt p h g vd va s) := by
  unfold execRsqrt; try dsimp only
  repeat' with_reducible (first | assumption | apply State.issueBundle_keeps | apply OKeeps.next)

theorem execExp2_keeps {ba : Bool} {z0 s : State} (p : PCore) (h : Header) (g : BitVec 5) (vd : BitVec 6) (va : BitVec 6) (hk : Keeps ba z0 s) :
    OKeeps ba z0 (execExp2 p h g vd va s) := by
  unfold execExp2; try dsimp only
  repeat' with_reducible (first | assumption | apply State.issueBundle_keeps | apply OKeeps.next)

theorem execExp_keeps {ba : Bool} {z0 s : State} (p : PCore) (h : Header) (g : BitVec 5) (vd : BitVec 6) (va : BitVec 6) (hk : Keeps ba z0 s) :
    OKeeps ba z0 (execExp p h g vd va s) := by
  unfold execExp; try dsimp only
  repeat' with_reducible (first | assumption | apply State.issueBundle_keeps | apply OKeeps.next)

theorem execLog2_keeps {ba : Bool} {z0 s : State} (p : PCore) (h : Header) (g : BitVec 5) (vd : BitVec 6) (va : BitVec 6) (hk : Keeps ba z0 s) :
    OKeeps ba z0 (execLog2 p h g vd va s) := by
  unfold execLog2; try dsimp only
  repeat' with_reducible (first | assumption | apply State.issueBundle_keeps | apply OKeeps.next)

theorem execLog_keeps {ba : Bool} {z0 s : State} (p : PCore) (h : Header) (g : BitVec 5) (vd : BitVec 6) (va : BitVec 6) (hk : Keeps ba z0 s) :
    OKeeps ba z0 (execLog p h g vd va s) := by
  unfold execLog; try dsimp only
  repeat' with_reducible (first | assumption | apply State.issueBundle_keeps | apply OKeeps.next)

theorem execExpo_keeps {ba : Bool} {z0 s : State} (p : PCore) (h : Header) (g : BitVec 5) (vd : BitVec 6) (va : BitVec 6) (hk : Keeps ba z0 s) :
    OKeeps ba z0 (execExpo p h g vd va s) := by
  unfold execExpo; try dsimp only
  repeat' with_reducible (first | assumption | apply State.issueBundle_keeps | apply OKeeps.next)

theorem execScalb_keeps {ba : Bool} {z0 s : State} (p : PCore) (h : Header) (g : BitVec 5) (vd : BitVec 6) (va : BitVec 6) (vb : BitVec 6) (rm : BitVec 2) (hk : Keeps ba z0 s) :
    OKeeps ba z0 (execScalb p h g vd va vb rm s) := by
  unfold execScalb; try dsimp only
  repeat' with_reducible (first | assumption | apply State.issueBundle_keeps | apply OKeeps.next)

theorem execCvt_keeps {ba : Bool} {z0 s : State} (p : PCore) (h : Header) (g : BitVec 5) (vd : BitVec 6) (va : BitVec 6) (rm : BitVec 2) (sr : Bool) (nsat : Bool) (fmt : BitVec 4) (part : BitVec 3) (hk : Keeps ba z0 s) :
    OKeeps ba z0 (execCvt p h g vd va rm sr nsat fmt part s) := by
  unfold execCvt; try dsimp only
  repeat' with_reducible (first | assumption | apply State.issueBundle_keeps | apply OKeeps.next)

theorem execCvtu_keeps {ba : Bool} {z0 s : State} (p : PCore) (h : Header) (g : BitVec 5) (vd : BitVec 6) (va : BitVec 6) (rm : BitVec 2) (fmt : BitVec 4) (part : BitVec 3) (hk : Keeps ba z0 s) :
    OKeeps ba z0 (execCvtu p h g vd va rm fmt part s) := by
  unfold execCvtu; try dsimp only
  repeat' with_reducible (first | assumption | apply State.issueBundle_keeps | apply OKeeps.next)

theorem execQnt_keeps {ba : Bool} {z0 s : State} (p : PCore) (h : Header) (g : BitVec 5) (vd : BitVec 6) (va : BitVec 6) (vb : BitVec 6) (rm : BitVec 2) (fmt : BitVec 4) (part : BitVec 3) (hk : Keeps ba z0 s) :
    OKeeps ba z0 (execQnt p h g vd va vb rm fmt part s) := by
  unfold execQnt; try dsimp only
  repeat' with_reducible (first | assumption | apply State.issueBundle_keeps | apply OKeeps.next)

theorem execBcvt_keeps {ba : Bool} {z0 s : State} (p : PCore) (h : Header) (g : BitVec 5) (vd : BitVec 6) (va : BitVec 6) (fmt : BitVec 4) (part : BitVec 3) (hk : Keeps ba z0 s) :
    OKeeps ba z0 (execBcvt p h g vd va fmt part s) := by
  unfold execBcvt; try dsimp only
  repeat' with_reducible (first | assumption | apply State.issueBundle_keeps | apply OKeeps.next)

theorem execBscl_keeps {ba : Bool} {z0 s : State} (p : PCore) (h : Header) (g : BitVec 5) (vd : BitVec 6) (va : BitVec 6) (vb : BitVec 6) (fmt : BitVec 4) (hk : Keeps ba z0 s) :
    OKeeps ba z0 (execBscl p h g vd va vb fmt s) := by
  unfold execBscl; try dsimp only
  repeat' with_reducible (first | assumption | apply State.issueBundle_keeps | apply OKeeps.next)

theorem execBunp_keeps {ba : Bool} {z0 s : State} (p : PCore) (h : Header) (g : BitVec 5) (vd : BitVec 6) (va : BitVec 6) (vb : BitVec 6) (vc : BitVec 6) (fmt : BitVec 4) (part : BitVec 3) (hk : Keeps ba z0 s) :
    OKeeps ba z0 (execBunp p h g vd va vb vc fmt part s) := by
  unfold execBunp; try dsimp only
  repeat' with_reducible (first | assumption | apply State.issueBundle_keeps | apply OKeeps.next)

end Sys2Proof.Machine
end

