-- ==== Sys2Proof/Laws/Seif.lean ====
section
/-! SUPPORT. What crossing the seifs of a row changes (R241, R245). -/

namespace Sys2Proof.Machine

open Sys2Proof

/-- A crossing changes what a seif holds, and nothing else. -/
theorem crossSeif_frame (s : State) (site row : Nat) (east : Bool) (c : Nat) :
    ∃ q, (s.crossSeif site row east c).1 = { s with mesh := { s.mesh with seif := q } } := by
  unfold State.crossSeif
  dsimp only
  split
  · exact ⟨s.mesh.seif, rfl⟩
  · exact ⟨_, rfl⟩

/-- A crossing into a half-die that is not stretched waits for nothing (R241). -/
theorem crossSeif_normal {s : State} {site : Nat} {east : Bool} (row c : Nat) (h : s.halfSwallows site east = 0) :
    s.crossSeif site row east c = (s, 0) := by
  simp [State.crossSeif, h]

theorem crossEach_frame (s : State) (d : Dir) (P Q c w : Nat) (xs : List Nat) :
    ∃ q, (s.crossEach d P Q c w xs).1 = { s with mesh := { s.mesh with seif := q } } := by
  induction xs generalizing s w with
  | nil => exact ⟨s.mesh.seif, rfl⟩
  | cons x xs ih =>
    simp only [State.crossEach]
    obtain ⟨q1, h1⟩ := crossSeif_frame s (siteOfPos (posOf (13 * x + 6) Q)) (Q % 8) (decide (d = .east))
      (c + (distOn d (13 * x + (if d = .east then 6 else 7)) Q - distOn d P Q) + w)
    obtain ⟨q2, h2⟩ := ih (s.crossSeif (siteOfPos (posOf (13 * x + 6) Q)) (Q % 8) (decide (d = .east))
      (c + (distOn d (13 * x + (if d = .east then 6 else 7)) Q - distOn d P Q) + w)).1
      (w + (s.crossSeif (siteOfPos (posOf (13 * x + 6) Q)) (Q % 8) (decide (d = .east))
        (c + (distOn d (13 * x + (if d = .east then 6 else 7)) Q - distOn d P Q) + w)).2)
    exact ⟨q2, by rw [h2, h1]⟩

/-- A flit's crossings change what the seifs hold, and nothing else. -/
theorem crossSeams_frame (s : State) (d : Dir) (P Q P' c : Nat) :
    ∃ q, (s.crossSeams d P Q P' c).1 = { s with mesh := { s.mesh with seif := q } } := by
  unfold State.crossSeams
  split
  · exact crossEach_frame s _ P Q c 0 _
  · exact crossEach_frame s _ P Q c 0 _
  · exact ⟨s.mesh.seif, rfl⟩

theorem crossEach_normal {s : State} (h : ∀ site east, s.halfSwallows site east = 0) (d : Dir) (P Q c w : Nat) (xs : List Nat) :
    s.crossEach d P Q c w xs = (s, w) := by
  induction xs generalizing w with
  | nil => rfl
  | cons x xs ih => simp [State.crossEach, crossSeif_normal _ _ (h _ _), ih]

/-- With no half-die stretched, crossings wait for nothing (R241). -/
theorem crossSeams_normal {s : State} (h : ∀ site east, s.halfSwallows site east = 0) (d : Dir) (P Q P' c : Nat) :
    s.crossSeams d P Q P' c = (s, 0) := by
  unfold State.crossSeams
  split
  · exact crossEach_normal h _ P Q c 0 _
  · exact crossEach_normal h _ P Q c 0 _
  · rfl

end Sys2Proof.Machine
end

