-- ==== Sys2Proof/Tests/Slice0.lean ====
section
/-! SUPPORT. Tests: each expected value is worked out by hand from the rule that its section names. -/

open Sys2Proof Sys2Proof.Machine

namespace Sys2Proof.Tests

set_option Elab.async false

/-- Whether the command answers a next state of which `f` holds. -/
def gives (i : Instr) (s : State) (f : State → Bool) : Bool :=
  match exec i s with
  | .next t => f t
  | _ => false

/-- A header without marks. -/
def plain : Header := ⟨false, false, false, 0#5⟩

/-- A core that runs at bundle 0, with a few values in its registers. -/
def runner : CoreRec :=
  { stat := { run := .running, valid := true }
    ctl := { readyAt := some 0, pageValid := 1#8 }
    regs := {
      s := [(1, ⟨7#32, false⟩), (2, ⟨0xFFFFFFFB#32, false⟩), (3, ⟨0x3FC00000#32, false⟩), (4, ⟨0#32, true⟩)]
      a := [(1, 256#32)]
      v := [(64, ⟨0x3FC00000#32, false⟩), (65, ⟨0xC0000000#32, false⟩), (128, ⟨0x40000000#32, false⟩), (129, ⟨3#32, false⟩)]
      p := [(0, 3#64), (1, 6#64)] } }

/-- The machine after reset, with `c` as core 0. -/
def withCore (c : CoreRec) : State := { State.reset with cores := [(0, c)] }

/-- The machine after reset, with a core that runs. -/
def running : State := withCore runner

/-- Core 0 as it meets its next bundle. -/
def met : State := ((running.advance 0).sync 0).syncCtx

/-- The writes of the last results in flight of core 0, and the cycle in which they are due. -/
def flown (t : State) : Nat × List (Loc × Pending) :=
  match (t.core 0).pipe.flights.getLast? with
  | some f => (f.due, f.writes)
  | none => (0, [])

/-- What a CTRL operation in flight writes to scalar register 5. -/
def wrote (i : Instr) (v : BitVec 32) : Bool :=
  gives i running fun t => flown t == (1, [(.s 5, .put ⟨v, false⟩)]) && (t.core 0).ctl.pc == 1

/-- What a VECTOR operation in flight writes to lanes 0 and 1 of vector register 5. -/
def wroteV (i : Instr) (due : Nat) (x y : BitVec 32) : Bool :=
  gives i running fun t => (flown t).1 == due && (flown t).2.take 2 == [(.v 5 0, .put ⟨x, false⟩), (.v 5 1, .put ⟨y, false⟩)]

/-- What an operation in flight writes to predicate 5. -/
def wroteP (i : Instr) (due : Nat) (v : BitVec 64) : Bool :=
  gives i running fun t => flown t == (due, predWrites 5 v)

/-- What the operation writes to the bits of predicate 5 that stand for lanes 0 and 1. -/
def wroteBits (i : Instr) (x y : Bool) : Bool :=
  gives i running fun t => (flown t).2.take 2 ==
    [(.p 5 0, .put ⟨if x then 1#32 else 0#32, false⟩), (.p 5 1, .put ⟨if y then 1#32 else 0#32, false⟩)]
/-! ### CTRL (R173 to R193) -/

theorem witness_meets : Meets running 0 met ∧ guardOk 0#5 = true ∧ (met.core 0).regs.guard0 0#5 = true ∧ (met.core 0).fault.valid = false :=
  ⟨⟨0, by decide, rfl, by decide, by decide, by decide⟩, by decide, by decide, by decide⟩

theorem witness_guarded_off : guardOk 0x0A#5 = true ∧ (met.core 0).regs.guard0 0x0A#5 = false := by decide

theorem test_alu_integer :
    wrote (.aluAdd 0 plain 0#5 5#5 1#5 2#5) 2#32 && wrote (.aluSub 0 plain 0#5 5#5 1#5 2#5) 12#32 &&
    wrote (.aluMul 0 plain 0#5 5#5 1#5 2#5) 0xFFFFFFDD#32 && wrote (.aluAnd 0 plain 0#5 5#5 1#5 2#5) 3#32 &&
    wrote (.aluOr 0 plain 0#5 5#5 1#5 2#5) 0xFFFFFFFF#32 && wrote (.aluXor 0 plain 0#5 5#5 1#5 2#5) 0xFFFFFFFC#32 &&
    wrote (.aluShl 0 plain 0#5 5#5 2#5 1#5) 0xFFFFFD80#32 && wrote (.aluShr 0 plain 0#5 5#5 2#5 1#5) 0x01FFFFFF#32 &&
    wrote (.aluSra 0 plain 0#5 5#5 2#5 1#5) 0xFFFFFFFF#32 && wrote (.aluMin 0 plain 0#5 5#5 1#5 2#5) 0xFFFFFFFB#32 &&
    wrote (.aluMax 0 plain 0#5 5#5 1#5 2#5) 7#32 && wrote (.aluMinu 0 plain 0#5 5#5 1#5 2#5) 7#32 &&
    wrote (.aluMaxu 0 plain 0#5 5#5 1#5 2#5) 0xFFFFFFFB#32 = true := by decide

-- 1.5 + 1.5 = 3, 1.5 - 1.5 = +0, 1.5 * 1.5 = 2.25
theorem test_alu_float :
    wrote (.aluFadd 0 plain 0#5 5#5 3#5 3#5) 0x40400000#32 && wrote (.aluFsub 0 plain 0#5 5#5 3#5 3#5) 0#32 &&
    wrote (.aluFmul 0 plain 0#5 5#5 3#5 3#5) 0x40100000#32 && wrote (.aluFmin 0 plain 0#5 5#5 3#5 0#5) 0#32 &&
    wrote (.aluFmax 0 plain 0#5 5#5 3#5 0#5) 0x3FC00000#32 = true := by decide

theorem test_immediates :
    wrote (.movi 0 plain 0#5 5#5 0x8001#16) 0xFFFF8001#32 && wrote (.movhi 0 plain 0#5 5#5 0x8001#16) 0x80010000#32 &&
    wrote (.addi 0 plain 0#5 5#5 0xFFFF#16) 0xFFFFFFFF#32 = true := by decide

theorem test_cmp :
    wroteP (.cmpEq 0 plain 0#5 5#5 1#5 1#5) 1 (BitVec.allOnes 64) && wroteP (.cmpNe 0 plain 0#5 5#5 1#5 1#5) 1 0#64 &&
    wroteP (.cmpLt 0 plain 0#5 5#5 2#5 1#5) 1 (BitVec.allOnes 64) && wroteP (.cmpLe 0 plain 0#5 5#5 1#5 2#5) 1 0#64 &&
    wroteP (.cmpLtu 0 plain 0#5 5#5 2#5 1#5) 1 0#64 && wroteP (.cmpLeu 0 plain 0#5 5#5 1#5 2#5) 1 (BitVec.allOnes 64) &&
    wroteP (.cmpFeq 0 plain 0#5 5#5 3#5 3#5) 1 (BitVec.allOnes 64) && wroteP (.cmpFlt 0 plain 0#5 5#5 3#5 3#5) 1 0#64 &&
    wroteP (.cmpFle 0 plain 0#5 5#5 3#5 3#5) 1 (BitVec.allOnes 64) && wroteP (.cmpNan 0 plain 0#5 5#5 2#5 3#5) 1 (BitVec.allOnes 64) = true := by
  decide

theorem test_plog :
    wroteP (.plogAnd 0 plain 0#5 5#5 0#5 1#5) 1 2#64 && wroteP (.plogOr 0 plain 0#5 5#5 0#5 1#5) 1 7#64 &&
    wroteP (.plogXor 0 plain 0#5 5#5 0#5 1#5) 1 5#64 && wroteP (.plogAndn 0 plain 0#5 5#5 0#5 1#5) 1 1#64 &&
    wroteP (.plogNot 0 plain 0#5 5#5 0#5) 1 (~~~3#64) && wroteP (.plogMov 0 plain 0#5 5#5 1#5) 1 6#64 &&
    wroteP (.plogSetall 0 plain 0#5 5#5) 1 (BitVec.allOnes 64) && wroteP (.plogClrall 0 plain 0#5 5#5) 1 0#64 &&
    wroteP (.plogAny 0 plain 0#5 5#5 1#5) 1 (BitVec.allOnes 64) && wroteP (.plogAll 0 plain 0#5 5#5 1#5) 1 0#64 = true := by decide

/-- The bundle index of core 0. -/
def pcOf (t : State) : Nat := (t.core 0).ctl.pc

theorem test_transfers :
    gives (.nop 0 ⟨false, false, true, 0#5⟩ 0#5) running (fun t => pcOf t == 256) &&
    gives (.jmp 0 plain 0#5 2047#21) running (fun t => pcOf t == 2047) &&
    gives (.jmpr 0 plain 0#5 1#5) running (fun t => pcOf t == 7) &&
    gives (.loop 0 plain 0#5 1#5 9#16) running (fun t => pcOf t == 9 && flown t == (1, [(.s 1, .put ⟨6#32, false⟩)])) &&
    gives (.tsync 0 plain 0#5 9#21) running (fun t => pcOf t == 1) &&
    gives (.tsync 0 ⟨false, true, false, 0#5⟩ 0#5 9#21) running (fun t => pcOf t == 9 && (t.core 0).pipe.arriveAt == some 1) &&
    gives (.accswap 0 plain 0#5) running (fun t => (t.core 0).ctl.accAct) &&
    gives (.srseed 0 plain 0#5 1#5 2#5) running (fun t => (t.core 0).ctl.srState == 0xFFFFFFFB00000007#64) &&
    gives (.pagein 0 plain 0#5 0x2FF#21) running (fun t => (t.core 0).ctl.pagein == some ⟨2, 255, 0, 2⟩) &&
    gives (.loadhint 0 plain 0#5 0x44000#21) running (fun t => t.hints == [(0, 128, 1)]) = true := by decide

theorem witness_transfers : (2047#21).toNat < 2048 ∧ (0x2FF#21).toNat / 256 ≠ (met.core 0).ctl.pc / 256 ∧ (met.core 0).ctl.pagein = none ∧
    (0x44000#21).toNat % 2 ^ 14 = 0 ∧ ((met.core 0).regs.ctrl 1#5).poison = false := by decide

/-- Core 0 waits for context 1, which has counted 6 granules, with register s1 holding 7. -/
def streaming (st : CtxState) (count : Nat) : State := { running with ctx := [(1, ⟨st, count, 9⟩)] }

theorem test_status :
    gives (.strcnt 0 plain 0#5 5#5 1#6) (streaming .active 6) (fun t => flown t == (1, [(.s 5, .put ⟨6#32, false⟩)])) &&
    wrote (.csrrdLcore 0 plain 0#5 5#5) 0#32 && wrote (.csrrdTickLo 0 plain 0#5 5#5) 0#32 && wrote (.csrrdTickHi 0 plain 0#5 5#5) 0#32 &&
    wrote (.csrrdCycle 0 plain 0#5 5#5) 0#32 && wrote (.csrrdMapGen 0 plain 0#5 5#5) 0#32 &&
    wrote (.csrrdTickLen 0 plain 0#5 5#5) 4096#32 = true := by decide

theorem test_waitstr :
    gives (.waitstr 0 plain 0#5 5#5 1#5 1#6) (streaming .active 7) (fun t => flown t == (1, predWrites 5 (BitVec.allOnes 64))) &&
    gives (.waitstr 0 plain 0#5 5#5 1#5 1#6) (streaming .error 6) (fun t => flown t == (1, predWrites 5 0#64)) &&
    gives (.waitstr 0 plain 0#5 5#5 1#5 1#6) (streaming .active 6) (fun t => (t.core 0).pipe.held.isSome && pcOf t == 0) = true := by decide

/-- Core 0 holds a bundle with that WAITSTR since cycle 0; it is cycle 3, and the context is DONE. -/
def waiting : State :=
  { streaming .done 6 with
    clock := { now := 3 }
    cores := [(0, { runner with pipe := { held := some ⟨{ hdr := plain, ctrl := .waitstr 5#5 1#5 1#6 }, true, 0,
      ⟨false, [], 0, 1, false, [], [], none⟩, ⟨false, [], 0, 1, false, [], [], none⟩⟩ } })] }

theorem witness_waiting : (((waiting.sync 0).syncCtx).core 0).pipe.held.isSome = true ∧
    ((waiting.sync 0).syncCtx).waits 0 { hdr := plain, ctrl := .waitstr 5#5 1#5 1#6 } = false := by decide

theorem test_waitstr_release :
    gives (.waitstrRelease 0) waiting (fun t => (t.core 0).ctl.tickStream == 3 && pcOf t == 1) = true := by decide

theorem test_guarded_off :
    gives (.jmp 0 plain 0x0A#5 9#21) running (fun t => pcOf t == 1) &&
    gives (.movi 0 plain 0x0A#5 5#5 1#16) running (fun t => pcOf t == 1 && (t.core 0).pipe.flights.isEmpty) = true := by decide

/-! ### VECTOR and TENSOR (R115 to R122, R194 to R204): v1 holds 1.5 and -2.0, v2 holds 2.0 and the integer 3 -/

theorem witness_vector : (met.core 0).pipe.vectorFree ≤ met.clock.now ∧ (met.core 0).pipe.tensorFree ≤ met.clock.now ∧
    (met.core 0).regs.guardLane 0#5 63 = true ∧ (∀ i : Fin 64, ((met.core 0).regs.vec (met.core 0).ctl.inactive 1#6 i).poison = false) ∧
    vecOk .cvt { vd := 5#6, va := 1#6, fmt := 1#4 } = true ∧ vecOk .cvtu { vd := 5#6, va := 1#6, fmt := 1#4 } = true ∧
    vecOk .qnt { vd := 5#6, va := 1#6, vb := 2#6, fmt := 2#4 } = true ∧ vecOk .bcvt { vd := 5#6, va := 1#6, fmt := 9#4 } = true ∧
    tensorOk (.mma 1#5 2#5 1#4 1#4 0#3 0#2 0#2 false) = true := by decide

theorem test_vector_float :
    wroteV (.fadd 0 plain 0#5 5#6 1#6 2#6 0#2) 4 0x40600000#32 0xC0000000#32 &&
    wroteV (.fsub 0 plain 0#5 5#6 1#6 1#6 0#2) 4 0#32 0#32 &&
    wroteV (.fmul 0 plain 0#5 5#6 1#6 1#6 0#2) 4 0x40100000#32 0x40800000#32 &&
    wroteV (.fma 0 plain 0#5 5#6 1#6 1#6 1#6 0#2) 4 0x40700000#32 0x40000000#32 &&
    wroteV (.fms 0 plain 0#5 5#6 1#6 1#6 1#6 0#2) 4 0x3F400000#32 0x40C00000#32 &&
    wroteV (.fnma 0 plain 0#5 5#6 1#6 1#6 1#6 0#2) 4 0xBF400000#32 0xC0C00000#32 &&
    wroteV (.fmin 0 plain 0#5 5#6 1#6 0#6) 4 0#32 0xC0000000#32 && wroteV (.fmax 0 plain 0#5 5#6 1#6 0#6) 4 0x3FC00000#32 0#32 &&
    wroteV (.fabs 0 plain 0#5 5#6 1#6) 4 0x3FC00000#32 0x40000000#32 &&
    wroteV (.fneg 0 plain 0#5 5#6 1#6) 4 0xBFC00000#32 0x40000000#32 = true := by decide +kernel

theorem test_vector_reductions :
    gives (.fsumr 0 plain 0#5 5#6 1#6) running (fun t => (flown t).2.take 1 == [(.v 5 0, .put ⟨0xBF000000#32, false⟩)]) &&
    gives (.fmaxr 0 plain 0#5 5#6 1#6) running (fun t => (flown t).2.take 1 == [(.v 5 0, .put ⟨0x3FC00000#32, false⟩)]) &&
    wroteV (.scalb 0 plain 0#5 5#6 1#6 0#6 0#2) 4 0x3FC00000#32 0xC0000000#32 = true := by decide +kernel

theorem test_vector_compare :
    wroteBits (.feq 0 plain 0#5 5#6 1#6 1#6) true true && wroteBits (.flt 0 plain 0#5 5#6 1#6 2#6) true true &&
    wroteBits (.fle 0 plain 0#5 5#6 2#6 1#6) false false && wroteBits (.funord 0 plain 0#5 5#6 1#6 2#6) false false &&
    wroteBits (.fnonfin 0 plain 0#5 5#6 1#6) false false && wroteBits (.ieq 0 plain 0#5 5#6 1#6 2#6) false false &&
    wroteBits (.ilt 0 plain 0#5 5#6 1#6 2#6) true true && wroteBits (.iltu 0 plain 0#5 5#6 1#6 2#6) true false = true := by
  decide +kernel

theorem test_vector_integer :
    wroteV (.iadd 0 plain 0#5 5#6 1#6 2#6) 4 0x7FC00000#32 0xC0000003#32 && wroteV (.isub 0 plain 0#5 5#6 1#6 2#6) 4 0xFFC00000#32 0xBFFFFFFD#32 &&
    wroteV (.imul 0 plain 0#5 5#6 1#6 2#6) 4 0#32 0x40000000#32 && wroteV (.vand 0 plain 0#5 5#6 1#6 2#6) 4 0#32 0#32 &&
    wroteV (.vor 0 plain 0#5 5#6 1#6 2#6) 4 0x7FC00000#32 0xC0000003#32 && wroteV (.vxor 0 plain 0#5 5#6 1#6 1#6) 4 0#32 0#32 &&
    wroteV (.vshl 0 plain 0#5 5#6 2#6 2#6) 4 0x40000000#32 24#32 && wroteV (.vshr 0 plain 0#5 5#6 1#6 2#6) 4 0x3FC00000#32 0x18000000#32 &&
    wroteV (.vsra 0 plain 0#5 5#6 1#6 2#6) 4 0x3FC00000#32 0xF8000000#32 && wroteV (.imin 0 plain 0#5 5#6 1#6 2#6) 4 0x3FC00000#32 0xC0000000#32 &&
    wroteV (.imax 0 plain 0#5 5#6 1#6 2#6) 4 0x40000000#32 3#32 = true := by decide +kernel

theorem test_vector_moves :
    wroteV (.vmov 0 plain 0#5 5#6 1#6) 4 0x3FC00000#32 0xC0000000#32 &&
    wroteV (.sel 0 plain 0#5 5#6 1#6 2#6 1#6) 4 0x40000000#32 0xC0000000#32 && wroteV (.splat 0 plain 0#5 5#6 1#6) 4 7#32 7#32 &&
    wroteV (.perm 0 plain 0#5 5#6 1#6 2#6) 4 0x3FC00000#32 0#32 && wroteV (.iota 0 plain 0#5 5#6) 4 0#32 1#32 &&
    wroteV (.ins8 0 plain 0#5 5#6 2#6 1#3) 4 0#32 0x300#32 && wroteV (.ext8 0 plain 0#5 5#6 1#6 3#3) 4 0x3F#32 0xC0#32 &&
    gives (.extr 0 plain 0#5 5#6 1#6 1#6) running (fun t => (flown t).2 == [(.s 5, .put ⟨0xC0000000#32, false⟩)]) = true := by
  decide +kernel

-- 1.5 as BF16 is 0x3FC0; the conversions read and write one part of a lane
theorem test_conversions :
    wroteV (.cvt 0 plain 0#5 5#6 1#6 0#2 false false 1#4 0#3) (4) 0x3FC0#32 0xC000#32 &&
    wroteV (.cvtu 0 plain 0#5 5#6 1#6 0#2 1#4 1#3) 4 0x3FC00000#32 0xC0000000#32 &&
    wroteV (.expo 0 plain 0#5 5#6 1#6) 4 0#32 1#32 = true := by decide +kernel

theorem test_special :
    gives (.rcp 0 plain 0#5 5#6 1#6) running (fun t => (flown t).1 == vecLatency .rcp) &&
    gives (.rsqrt 0 plain 0#5 5#6 1#6) running (fun t => (flown t).1 == vecLatency .rsqrt) &&
    gives (.exp2 0 plain 0#5 5#6 1#6) running (fun t => (flown t).1 == vecLatency .exp2) &&
    gives (.exp 0 plain 0#5 5#6 1#6) running (fun t => (flown t).1 == vecLatency .exp) &&
    gives (.log2 0 plain 0#5 5#6 1#6) running (fun t => (flown t).1 == vecLatency .log2) &&
    gives (.log 0 plain 0#5 5#6 1#6) running (fun t => (flown t).1 == vecLatency .log) = true := by decide +kernel

theorem test_mma :
    gives (.mma 0 plain 0#5 1#5 2#5 1#4 1#4 0#3 0#2 0#2 true) running
      (fun t => (flown t).1 == 18 && (flown t).2.length == 2048 && (t.core 0).pipe.tensorFree == 8) = true := by decide +kernel

/-! ### LD0, LS1 and ROUTE (R73 to R81, R205 to R214, R290, R327, R336) -/

/-- Core 0 runs with `d` in the lanes of v3, and its scratchpad holds 1, 2, ..., 8 from byte 256 on and 9 at byte 512. -/
def loaded (d : List (BitVec 32)) : State :=
  let s := withCore { runner with regs := { runner.regs with
    v := runner.regs.v ++ (d.zipIdx.filter (fun e => e.1 ≠ 0#32)).map fun e => (192 + e.2, ⟨e.1, false⟩) } }
  { s with srams := { s.srams with spad := [(256, 1#8), (257, 2#8), (258, 3#8), (259, 4#8), (260, 5#8), (261, 6#8), (262, 7#8), (263, 8#8),
      (512, 9#8)] } }

/-- Core 0 of that state as it meets its next bundle. -/
def metLoaded (d : List (BitVec 32)) : State := (((loaded d).advance 0).sync 0).syncCtx

theorem witness_access : accessOff (met.core 0).regs .ldv 1#4 0#16 = 256 ∧ (metLoaded []).granted 0 256 256 ∧
    tget 0 (metLoaded []).srams.flips (wordKey 0 32) = 0 ∧ (metLoaded []).wordPoison 0 32 = false ∧ (metLoaded []).mirrorOf 0 = none ∧
    Memory.wf (metLoaded []).srams.spad = true := by
  refine ⟨by decide, ⟨by decide, by decide⟩, by decide, by decide, by decide, by decide⟩

theorem test_loads :
    gives (.ldw 0 plain 0#5 false 49#6 1#4 0#16) (loaded []) (fun t => flown t == (5, [(.s 1, .put ⟨0x04030201#32, false⟩)])) &&
    gives (.ldw 0 plain 0#5 true 33#6 1#4 1#16) (loaded []) (fun t => flown t == (5, [(.a 1, .put ⟨0x08070605#32, false⟩)])) &&
    gives (.ldd 0 plain 0#5 false 5#6 1#4 0#16) (loaded []) (fun t => (flown t).2.take 3 ==
      [(.v 5 0, .put ⟨0x04030201#32, false⟩), (.v 5 1, .put ⟨0x08070605#32, false⟩), (.v 5 2, .put ⟨0x04030201#32, false⟩)]) &&
    gives (.ldq 0 plain 0#5 false 1#2 5#6 1#4 0#16) (loaded []) (fun t => (flown t).2.length == 16 && (flown t).2.take 1 ==
      [(.v 5 16, .put ⟨0x04030201#32, false⟩)]) &&
    gives (.ldh 0 plain 0#5 false true 5#6 1#4 0#16) (loaded []) (fun t => (flown t).2.length == 32 && (flown t).2.take 1 ==
      [(.v 5 32, .put ⟨0x04030201#32, false⟩)]) = true := by decide +kernel

theorem test_load_vector :
    gives (.ldv 0 plain 0#5 false 5#6 1#4 1#16) (loaded []) (fun t => (flown t).2.length == 64 && (flown t).2.take 1 ==
      [(.v 5 0, .put ⟨9#32, false⟩)]) = true := by decide +kernel

theorem test_load_scales :
    gives (.ldsc64 0 plain 0#5 false 9#6 1#4 0#16) (loaded []) (fun t => (flown t).2.length == 64 && (flown t).2.take 1 ==
      [(.scale 1 64, .put ⟨1#32, false⟩)]) &&
    gives (.ldsc256 0 plain 0#5 false 7#6 1#4 0#16) (loaded []) (fun t => (flown t).2.length == 256 && (flown t).2.take 1 ==
      [(.scale 7 0, .put ⟨1#32, false⟩)]) = true := by decide +kernel

theorem test_stores :
    gives (.stw 0 plain 0#5 49#6 1#4 0#16) (loaded []) (fun t => Memory.readBytes t.srams.spad 256 8 ==
      [7#8, 0#8, 0#8, 0#8, 5#8, 6#8, 7#8, 8#8]) &&
    gives (.std 0 plain 0#5 1#6 1#4 0#16) (loaded []) (fun t => Memory.readBytes t.srams.spad 256 9 ==
      [0#8, 0#8, 0xC0#8, 0x3F#8, 0#8, 0#8, 0#8, 0xC0#8, 0#8]) &&
    gives (.stq 0 plain 0#5 0#2 1#6 1#4 0#16) (loaded []) (fun t => Memory.readBytes t.srams.spad 258 2 == [0xC0#8, 0x3F#8]) &&
    gives (.sth 0 plain 0#5 true 1#6 1#4 0#16) (loaded []) (fun t => Memory.readBytes t.srams.spad 258 2 == [0#8, 0#8]) &&
    gives (.stv 0 plain 0#5 1#6 1#4 0#16) (loaded []) (fun t => Memory.readBytes t.srams.spad 258 2 == [0xC0#8, 0x3F#8] &&
      Memory.read t.srams.spad 512 == 9#8) = true := by decide +kernel

/-- The flit that a send puts on the mesh first. -/
def sent (t : State) : Option (Nat × Nat × Nat × List (BitVec 8)) :=
  (tfind t.mesh.flits 0).map fun f => (f.kind, f.dest, f.arg, f.bytes.take 4)

theorem test_sends :
    gives (.sendw 0 plain 0#5 1#2 49#6 12287#14 3#15) running (fun t => sent t == some (0, 12287, 3, [7#8, 0#8, 0#8, 0#8]) && t.mesh.nextFlit == 1) &&
    gives (.sendq 0 plain 0#5 1#2 1#6 0#2 5#14 3#15) running (fun t => sent t == some (0, 5, 3, [0#8, 0#8, 0xC0#8, 0x3F#8]) && t.mesh.nextFlit == 1) &&
    gives (.sendv 0 plain 0#5 1#2 1#6 5#14 3#15) running (fun t => sent t == some (0, 5, 3, [0#8, 0#8, 0xC0#8, 0x3F#8]) && t.mesh.nextFlit == 4) &&
    gives (.wsendq 0 plain 0#5 1#2 1#6 0#2 5#14 3#15) running (fun t => sent t == some (3, 5, 3, [0#8, 0#8, 0xC0#8, 0x3F#8])) &&
    gives (.wsendv 0 plain 0#5 1#2 1#6 5#14 3#15) running (fun t => sent t == some (3, 5, 3, [0#8, 0#8, 0xC0#8, 0x3F#8]) && t.mesh.nextFlit == 4) &&
    gives (.sendv 0 plain 0#5 0#2 1#6 5#14 3#15) running (fun t => t.mesh.nextFlit == 0 && pcOf t == 1 && (t.core 0).pipe.c0Refused) = true := by
  decide +kernel

/-- Core 6, beside the seif, runs, and its row's seif holds `n` entries eastbound until cycle 100. -/
def bySeif (n : Nat) : State :=
  { State.reset with cores := [(6, runner)], panel := { ldSite := [(0, 0)] }
                     mesh := { State.reset.mesh with seif := [(seifKey 0 0 true, List.replicate n (0, 100))] } }

theorem witness_seif : ((((bySeif 8).advance 0).sync 6).syncCtx).seifBeside 6 = 8 ∧ ((((bySeif 7).advance 0).sync 6).syncCtx).seifBeside 6 = 7 ∧
    pCol 6 = 6 ∧ ((bySeif 8).nodePos ((bySeif 8).mesh.version ((bySeif 8).epochAt 0)) 11 (posOfPcore 6)).map
      (nextDir ((bySeif 8).mesh.version ((bySeif 8).epochAt 0)) (posOfPcore 6)) = some (some .east) := by decide +kernel

theorem test_seif :
    gives (.sendv 6 plain 0#5 1#2 1#6 11#14 3#15) (bySeif 7) (fun t => t.mesh.nextFlit == 4 && (t.core 6).ctl.pc == 1) &&
    gives (.sendv 6 plain 0#5 1#2 1#6 11#14 3#15) (bySeif 8) (fun t => t.mesh.nextFlit == 0 && (t.core 6).ctl.pc == 0 &&
      (t.core 6).ctl.tickSeif == 1 && (t.core 6).pipe.held.isSome) = true := by decide +kernel

/-- A route version in which tag 9 at core 0's position expects core 0 alone, and circuit 2 leads from core 0 to core 77. -/
def routed : State :=
  let v : RouteVersion := { State.reset.mesh.versions.2.1 with
    tags := [(16384 * posOfPcore 0 + 9, ⟨true, false, false, false, false, .land 0 0⟩)], circuits := [(2, ⟨0, 77, 0, 64, 0, 0⟩)] }
  { running with mesh := { running.mesh with versions := (false, v, v), windows := [2] } }

theorem witness_routed : ((tagEntryAt (routed.mesh.version (routed.epochAt 0)) (posOfPcore 0) 9).map (·.expLocal)) = some true ∧
    2 ∈ routed.mesh.windows ∧ routed.cycle = 0 := by decide

theorem test_tree_and_circuit :
    gives (.redv 0 plain 0#5 1#2 1#6 9#14) routed (fun t => sent t == some (1, 0, 9, [0#8, 0#8, 0xC0#8, 0x3F#8]) && t.mesh.nextFlit == 4) &&
    gives (.circv 0 plain 0#5 1#2 1#6 2#14 3#15) routed (fun t => sent t == some (2, 77, 2, [0#8, 0#8, 0xC0#8, 0x3F#8]) && t.mesh.nextFlit == 4 &&
      (tfind t.mesh.flits 0).map (·.doff) == some 3) = true := by
  decide +kernel

-- one granule of stack 0 from address 0 on, at pace 16, into granule 4
theorem test_stream :
    gives (.strm 0 plain 0#5 1#2 3#6 1#14) (loaded [0x00100000#32, 1#32, 0#32, 0#32, 0#32, 0#32, 4#32]) (fun t =>
      t.getCtx 1 == ⟨.active, 0, 1⟩ && t.mesh.nextFlit == if t.plos.placed then 1 else 16) &&
    gives (.saecmd 0 plain 0#5 1#2 3#6 15#14) (loaded [0x00000700#32]) (fun t => t.getCtx 7 == ⟨.active, 0, 0⟩ && t.mesh.nextFlit == 1) &&
    gives (.strm 0 plain 0#5 1#2 3#6 1#14) { loaded [0x00100000#32, 1#32] with ctx := [(1, ⟨.active, 3, 9⟩)] }
      (fun t => t.getCtx 1 == ⟨.error, 3, 9⟩ && t.mesh.nextFlit == 0) = true := by decide +kernel

theorem witness_stream : (metLoaded [0x00100000#32, 1#32]).clock.now = 0 ∧
    inCtl (leField (((metLoaded [0x00100000#32, 1#32]).core 0).regs.regBytes 3#6 0 16) 8 8) 64 = false ∧
    (∀ l ∈ ((metLoaded [0x00100000#32, 1#32]).core 0).regs.lanesOf 3#6 0 16, l.poison = false) := by decide +kernel

-- granules 4 and 5, from this device and no other (sources 1), classes C1 to C3, cores 0 to 5
theorem test_windows :
    gives (.wopen 0 plain 0#5 3#6 15#14) (loaded [0x00020004#32, 0x00000E01#32, 0x00050000#32]) (fun t =>
      tfind t.win.wadi 15 == some ⟨4, 2, 1, 14, 0, 5, 0⟩) &&
    gives (.wopen 0 plain 0#5 3#6 15#14) (loaded [0x00000004#32, 0x00000E01#32, 0x00050000#32]) (fun t => t.win.wadi == [] && t.evq.travelling.length == 1) &&
    gives (.wclose 0 plain 0#5 15#14) { running with win := { running.win with wadi := [(15, ⟨4, 2, 1, 14, 0, 5, 0⟩)] } } (fun t => t.win.wadi == []) = true := by
  decide +kernel

/-- A remote DMA of one granule from stack address 0 to device 1, with its completion record at offset 256 and number 9. -/
def rdmaWords : List (BitVec 32) := [0x00000101#32, 64#32, 0#32, 0#32, 0#32, 0x00014000#32, 256#32, 9#32]

theorem witness_rdma : let bs := ((metLoaded rdmaWords).core 0).regs.regBytes 3#6 0 16
    rdmaCtl bs = false ∧ rdmaBad bs (metLoaded rdmaWords).zfp.devNum = false ∧ leField bs 1 1 = 1 ∧ (metLoaded rdmaWords).freeRdma 0 = some 0 := by
  decide +kernel

theorem test_rdma :
    gives (.rdma 0 plain 0#5 1#2 3#6) (loaded rdmaWords) (fun t => (tfind t.win.rdma 0).map (fun r => (r.dest, r.seq, r.granules, r.deadline)) ==
      some (0x0001400000000000, 9, 1, 33554432)) &&
    gives (.rdma 0 plain 0#5 1#2 3#6) { loaded rdmaWords with panel := { ldSite := [(0, 0)] }, win := { running.win with
        rdma := (List.range 4).map fun i => (i, ⟨1, 0, 0, 0, 1, 0, 0, false, false, false, 0, false, 9⟩) } }
      (fun t => (t.core 0).pipe.lowBuf == [(0, 256, [0#8, 0#8, 0x20#8, 9#8, 9#8, 0#8, 0#8, 0#8])]) = true := by decide +kernel

/-- The recorded fault of core 0: slot and code. -/
def faulted (t : State) : Option (Nat × Nat) :=
  if (t.core 0).stat.run = .faulted then some ((t.core 0).fault.slot, (t.core 0).fault.code) else none

theorem test_faults :
    gives (.aluAdd 0 plain 24#5 5#5 1#5 2#5) running (fun t => faulted t == some (1, ST_CORE_ILLEGAL)) &&
    gives (.cmpEq 0 plain 0#5 8#5 1#5 2#5) running (fun t => faulted t == some (1, ST_CORE_ILLEGAL)) &&
    gives (.jmp 0 plain 0#5 2048#21) running (fun t => faulted t == some (1, ST_CORE_ILLEGAL)) &&
    gives (.ldv 0 plain 0#5 true 5#6 2#4 0#16) (withCore { runner with regs := { a := [(2, 4#32)] } }) (fun t => faulted t == some (5, ST_CORE_ALIGN)) &&
    gives (.jmpr 0 plain 0#5 4#5) running (fun t => faulted t == some (1, ST_CORE_POISON)) &&
    gives (.aluAdd 0 plain 0#5 16#5 4#5 2#5) running (fun t => faulted t == some (1, ST_CORE_POISON)) &&
    gives (.pagein 0 plain 0#5 0xFF#21) running (fun t => faulted t == some (1, ST_CORE_PAGE_LIVE)) &&
    gives (.pagein 0 plain 0#5 0x100#21) (withCore { runner with ctl := { runner.ctl with pagein := some ⟨2, 0, 0, 0⟩, pageinQ := some ⟨3, 0⟩ } })
      (fun t => faulted t == some (1, ST_CORE_PAGE_BUSY)) &&
    gives (.movi 0 plain 0#5 5#5 1#16) (withCore { runner with ctl := { readyAt := some 0 } }) (fun t => faulted t == some (0, ST_CORE_PAGE_LATE)) &&
    gives (.movi 0 plain 0#5 5#5 1#16) { running with srams := { imemFlips := [(0, 2)] } } (fun t => faulted t == some (0, ST_CORE_IMEM_ECC)) &&
    gives (.movi 0 plain 0#5 5#5 1#16) State.reset (fun t => t == State.reset) = true := by decide +kernel

/-! ### Cores between their bundles, and the panel map (R40, R75 to R100, R134 to R136, R160 to R162) -/

/-- Core 0 in state `r` of CORE_STATE.RUN. -/
def coreIn (r : RunState) : State := withCore { runner with stat := { runner.stat with run := r } }

/-- CORE_STATE.RUN of core 0. -/
def runOf (t : State) : RunState := (t.core 0).stat.run

theorem test_core_control :
    gives (.hold 0) running (fun t => runOf t == .held) && gives (.resume 0) (coreIn .held) (fun t => runOf t == .running) &&
    gives (.selfcheck 0) (coreIn .resting) (fun t => runOf t == .selfcheck) && gives (.selfcheck 0) running (fun t => runOf t == .running) &&
    gives (.sweep 0) (coreIn .idle) (fun t => runOf t == .sweeping && (t.core 0).regs == {}) &&
    gives (.selfcheckDone 0 true) (withCore { stat := { run := .selfcheck }, pipe := { beforeCheck := .idle } }) (fun t => runOf t == .idle) = true := by
  decide +kernel

theorem witness_core_control : ((coreIn .idle).core 0).stat.run ≠ .running ∧ (coreIn .idle).onJob 0 = false ∧ running.moveAt 0 = none := by decide

theorem test_marks :
    gives (.pageMark 0 3#5) running (fun t => pcOf t == 256 && (t.core 0).ctl.readyAt == some 4) &&
    gives (.stop 0 2#5) running (fun t => runOf t == .idle && t.clock.now == 3 && (t.core 0).ctl.stopped) &&
    gives (.tsyncArrival 0) (withCore { runner with ctl := { pageValid := 1#8 }, pipe := { arriveAt := some 7 } }) (fun t =>
      (t.core 0).ctl.atTsync && (t.core 0).pipe.arrived == some 7 && t.clock.now == 7) &&
    gives (.holdExpiry 0) running (fun t => pcOf t == 1) = true := by decide +kernel

theorem witness_marks : (met.core 0).bankWork = false ∧ (met.core 0).pipe.holdReq = false ∧
    tget 0#256 running.srams.imem (imKey 0 0) = 0#256 ∧
    ((withCore { runner with pipe := { arriveAt := some 7 } }).core 0).bankWork = false := by decide

/-- Core 0 holds a bundle that stores s1 at offset 0 since cycle 0. -/
def holding : State :=
  withCore { runner with pipe := { held := some ⟨{ hdr := plain, ls1 := .stw, ls1Reg := 49#6 }, false, 0,
    ⟨true, [], 0, 0, false, [], [], none⟩, ⟨false, [0], 0, 4, true, [7#8, 0#8, 0#8, 0#8], [false], none⟩⟩ } }

theorem witness_held : ((holding.core 0).pipe.held.map (·.wait)) = some false ∧
    ((((holding.advance 1).sync 0).syncCtx).serveCycle 0 ⟨true, [], 0, 0, false, [], [], none⟩
      ⟨false, [0], 0, 4, true, [7#8, 0#8, 0#8, 0#8], [false], none⟩).2.2.served = true := by decide

theorem test_held_bundle :
    gives (.heldBundleIssue 0) holding (fun t => (t.core 0).pipe.held.isNone && (t.core 0).ctl.tickConflict == 1 &&
      Memory.read t.srams.spad 0 == 7#8) = true := by decide +kernel

/-- Core 0 has read all but two granules of a page-in of page 3. -/
def paging : State :=
  { withCore { runner with ctl := { pageValid := 1#8, pagein := some ⟨3, 0, 126, 0⟩ }, pipe := { synced := 5 } } with clock := { now := 5 } }

theorem test_pagein :
    gives (.pageinComplete 0) paging (fun t => (t.core 0).ctl.pagein.isNone && (t.core 0).ctl.pageValid == 9#8 && t.clock.now == 7) = true := by
  decide +kernel

/-- A scheduled flit that lands at core 0 in cycle 4, for granule 5. -/
def landing : Flit :=
  { cls := 1, kind := 0, epoch := false, idx := 0, last := true, sched := true, poison := 0#8, dest := 0, src := 9, inc := 0#8, delay := 0,
    arg := 5, laps := 0, bytes := List.replicate 64 7#8, pos := .land 0 4 .local, fromBuf := false, tag := none }

/-- The machine with core 0 and that flit, in cycle 4. -/
def delivering : State := { running with clock := { now := 4 }, mesh := { running.mesh with flits := [(2, landing)], nextFlit := 3 } }

theorem witness_delivery : delivering.flit 2 = some landing ∧ pcoreOfPos 0 = 0 ∧ delivering.coreShut 0 = false ∧ delivering.mirrorOf 0 = none ∧
    (delivering.core 0).bankWork = false ∧ (delivering.core 0).pipe.claimCycle < delivering.clock.now := by decide

theorem test_delivery :
    gives (.scheduledDelivery 2) delivering (fun t => t.mesh.flits == [] && Memory.read t.srams.spad 320 == 7#8 &&
      Memory.read t.srams.spad 383 == 7#8 && Memory.read t.srams.spad 384 == 0#8 && Memory.read t.srams.spad 319 == 0#8) = true := by
  decide +kernel

theorem test_core_faults :
    gives (.coreHwCheck 0) running (fun t => faulted t == some (0, 0x040)) &&
    gives (.coreFaultReport 0 true) (withCore { runner with fault := { valid := true, code := ST_CORE_ILLEGAL, slot := 1 } }) (fun t =>
      (t.core 0).fault.told && (t.evq.travelling.map (·.code)) == [0x0201]) = true := by decide +kernel

theorem witness_fault_report : faultKind ST_CORE_ILLEGAL = .program ∧ running.onJob 0 = false ∧ (running.wdt 0x100).restarting = false := by decide

/-- Row 0 of site 0 is on the move from column 11 to its resting column 12. -/
def moving (ph : MovePhase) (quiet : Nat) : State :=
  { State.reset with panel := { moves := [(0, ⟨ph, 11, 12⟩)] }, clock := { hdr := { quiet := quiet } } }

/-- The phase of that move. -/
def phaseOf (t : State) : Option MovePhase := (tfind t.panel.moves 0).map (·.phase)

theorem test_moves :
    gives (.restingSelfcheckDone 0 0 true) (moving .checking 128) (fun t => phaseOf t == some .checked) &&
    gives (.bulkCopyDone 0 0) (moving .copying 128) (fun t => phaseOf t == some .copied) &&
    gives (.handover 0 0) (moving .ready 112) (fun t => phaseOf t == some .passing) &&
    gives (.handover 0 0) (moving .ready 111) (fun t => phaseOf t == some .ready) = true := by decide +kernel

theorem test_map_commit :
    gives (.mapCommit true) State.reset (fun t => t.panel.mapGen == 1#32 && t.panel.inForceB && (t.panel.copyB.map (·.gen)) == some 1#32 &&
      (t.evq.travelling.map (·.code)) == [0x0101]) &&
    gives (.mapCommit false) State.reset (fun t => t == State.reset) = true := by decide +kernel

/-! ### The tick (R217 to R238) -/

/-- A job runs with core 0, in a tick of 4,096 cycles of which the last 1,024 are quiet. -/
def jobTick (c : CoreRec) (ck : Clock) : State :=
  { withCore c with clock := { ck with hdr := { len := 4096, quiet := 1024 } }, job := { phase := .running, running := true } }

theorem test_boundary :
    gives .tickBoundary { State.reset with clock := { now := 100, ins := 512 } } (fun t =>
      t.clock.tick == 1#64 && t.clock.start == 4608 && t.clock.now == 4608 && t.clock.ins == 0) = true := by decide +kernel

/-- A core whose TSYNC has arrived in cycle 3,000 of the tick. -/
def arrivedCore : CoreRec := { runner with ctl := { pageValid := 1#8, atTsync := true }, pipe := { arrived := some 3000 } }

/-- A core that runs on past cycle D. -/
def lateCore : CoreRec := { runner with ctl := { pageValid := 1#8, readyAt := some 5000 } }

theorem witness_late : let u (s : State) := (s.advance (s.clock.start + (s.clock.hdr.len - s.clock.hdr.quiet))).syncAll
    (u (jobTick arrivedCore {})).lateCores = [] ∧ (u (jobTick lateCore {})).lateCores ≠ [] ∧ (u (jobTick lateCore {})).heldCores = [] ∧
    (u (jobTick { runner with stat := { run := .held, valid := true } } {})).heldCores ≠ [] ∧ (jobTick lateCore {}).job.live = true := by decide

theorem test_late_decision :
    gives .lateDecision (jobTick arrivedCore {}) (fun t => t.clock.ins == 0 && t.clock.now == 3072) &&
    gives .lateDecision (jobTick lateCore {}) (fun t => t.clock.ins == 512 && t.clock.lateOpen) &&
    gives .lateDecision (jobTick lateCore { stretch := false }) (fun t => t.job.endCode == some 0x062) &&
    gives .lateDecision (jobTick { runner with stat := { run := .held, valid := true } } {}) (fun t => t.clock.ins == 512 && t.clock.heldOpen) = true := by
  decide +kernel

theorem test_stretch_check :
    gives .stretchCheck (jobTick lateCore { ins := 512, lateOpen := true }) (fun t => t.job.endCode == some 0x062) &&
    gives .stretchCheck (jobTick arrivedCore { ins := 512, lateOpen := true }) (fun t => !t.clock.lateOpen && t.clock.overrunSent &&
      t.evq.travelling.length == 1) &&
    gives .stretchCheck (jobTick { runner with stat := { run := .held, valid := true } } { ins := 512, heldOpen := true }) (fun t =>
      t.clock.ins == 1024) = true := by decide +kernel

/-- Core 0 has stalled for 9 cycles in a tick whose B + M is 0. -/
def stalling : State := jobTick { runner with ctl := { pageValid := 1#8, readyAt := some 0, tickConflict := 9, stallSum := 9 } } {}

theorem witness_margin : (stalling.syncAll.core 0).inJob = true ∧ stalling.syncAll.heldCores = [] ∧ stalling.syncAll.stallNow 0 = 9 := by decide

theorem test_margin_and_quiet :
    gives (.marginFault 0) stalling (fun t => t.job.endCode == some 0x061) &&
    gives .quietWindowStart (jobTick arrivedCore { ins := 512 }) (fun t => t.clock.now == 3584) = true := by decide +kernel

/-! ### The mesh (R124, R250 to R278, R659) -/

/-- A flit at core 0's position on its way to logical core `dest`. -/
def flit (dest : Nat) (pos : FlitPos) : Flit := { landing with dest := dest, pos := pos }

/-- Logical dies 0 and 1 on sites 0 and 1, and that flit. -/
def onMesh (f : Flit) : State :=
  { State.reset with panel := { ldSite := [(0, 0), (1, 1)], routerUp := (List.range 144).map fun i => (i, true) }
                     mesh := { State.reset.mesh with flits := [(0, f)], nextFlit := 1 } }

theorem test_turnaround :
    gives (.arbitration 0) (onMesh (flit 0 (.ramp 0 5))) (fun t => (tfind t.mesh.flits 0).map (·.pos) == some (.land 0 7 .local)) = true := by
  decide +kernel

theorem witness_arbitration : let s := onMesh (flit 1 (.ramp 0 5))
    let f := flit 1 (.ramp 0 5)
    let v := s.mesh.version f.epoch
    s.dropCheck (siteOfPos 0) f = none ∧ s.rival 0 f = none ∧ s.nodePos v 0 0 = some 0 ∧ s.nodePos v 1 0 = some 1 ∧
    nextDir v 0 1 = some .east ∧ s.ride v .east (some 1) none 0 0 = (.land 1, none) ∧
    (s.findSlot v f (stretches .east 0 0 1 none) 4096 5 0).isSome = true := by decide +kernel

/-- An unscheduled flit and a scheduled one at the same position, for the same core. -/
def rivals : State :=
  let s := onMesh { flit 1 (.ramp 0 5) with sched := false }
  { s with mesh := { s.mesh with flits := [(0, { flit 1 (.ramp 0 5) with sched := false }), (1, flit 1 (.ramp 0 5))], nextFlit := 2 } }

theorem witness_rival : (∀ e ∈ rivals.mesh.flits, rivals.flit e.1 = some e.2) ∧
    rivals.wants { flit 1 (.ramp 0 5) with sched := false } ≠ none ∧ (flit 1 (.ramp 0 5)).sched = true ∧
    rivals.wants (flit 1 (.ramp 0 5)) = rivals.wants { flit 1 (.ramp 0 5) with sched := false } := by decide +kernel

theorem test_rival : rivals.rival 0 { flit 1 (.ramp 0 5) with sched := false } = some 1 ∧ rivals.rival 1 (flit 1 (.ramp 0 5)) = none := by
  decide +kernel

theorem test_arbitration :
    gives (.arbitration 0) (onMesh (flit 1 (.ramp 0 5))) (fun t => t.mesh.slots.length == 1 &&
      (tfind t.mesh.flits 0).map (·.delay) == some 0) = true := by decide +kernel

/-- The eastern half of die 0 runs at half its rate. -/
def stretched : State := { State.reset with clk := { State.reset.clk with die := [(0, { stretchE := 4 })] } }

theorem test_seif_waits :
    (seifEnter (List.replicate 8 (0, 20)) 64 5 == 20) && (seifEnter (List.replicate 7 (0, 20)) 64 5 == 5) &&
    (seifEnter (List.replicate 8 (0, 20)) 64 25 == 25) && (stretched.crossSeams .west 12 0 0 5 == (stretched, 0)) &&
    (stretched.crossSeams .east 0 0 6 5 == (stretched, 0)) && (State.reset.crossSeams .east 0 0 155 5 == (State.reset, 0)) = true := by
  decide +kernel

theorem witness_no_stretch (y : Nat) (east : Bool) : State.reset.halfSwallows y east = 0 := by
  cases east <;> rfl

theorem test_flit_errors :
    gives (.meshFlitError 0 0 .corrected) (onMesh landing) (fun t => (t.meshDie 0).corr == 1 && t.mesh.flits.length == 1) &&
    gives (.meshFlitError 0 0 .payload) (onMesh landing) (fun t => (t.meshDie 0).uncorrPay == 1 && (tfind t.mesh.flits 0).map (·.poison) == some 0xFF#8) &&
    gives (.meshFlitError 0 0 .header) (onMesh landing) (fun t => (t.meshDie 0).uncorrHdr == 1 && t.mesh.flits == []) &&
    gives (.flitLapDrop 0) (onMesh { landing with sched := false, laps := 7 }) (fun t => (t.meshDie 0).lost == 1 && t.mesh.flits == []) &&
    gives (.flitLapDrop 0) (onMesh { landing with sched := false, laps := 6 }) (fun t => t.mesh.flits.length == 1) = true := by decide +kernel

/-- A route version that lists one circuit: circuit 2, from core 0 to core 77, in cycles 64 to 127 of every tick. -/
def circuits : RouteVersion := { State.reset.mesh.versions.2.1 with circuits := [(2, ⟨0, 77, 64, 64, 0, 0⟩)] }

theorem test_routes :
    gives (.routeVersionLoad circuits) State.reset (fun t => t.mesh.versions.2.2.circuits == circuits.circuits) &&
    gives (.tableLoadCheck 3 true) State.reset (fun t => (t.meshDie 3).loaded && !(t.meshDie 4).loaded) &&
    gives (.flipNotice 2#64) State.reset (fun t => (t.meshDie 0).pending && (t.meshDie 0).flipTick == 2#64) = true := by decide +kernel

/-- Every die awaits the flip of tick 0. -/
def flipping : State :=
  { State.reset with mesh := { State.reset.mesh with die := (List.range 144).map fun i => (i, { pending := true, loaded := true }) } }

theorem witness_flip : (∀ x : Fin 144, (flipping.meshDie x).pending = true ∧ (flipping.meshDie x).flipTick = flipping.clock.tick) := by decide +kernel

theorem test_flip :
    gives .epochFlip flipping (fun t => t.mesh.versions.1 && (t.meshDie 143).active && (t.meshDie 143).hold == 64) &&
    gives .oldEpochHoldEnd { (onMesh landing) with mesh := { (onMesh landing).mesh with versions := (true, circuits, circuits) } } (fun t =>
      t.mesh.flits == []) = true := by decide +kernel

/-- A job runs under that route version. -/
def inWindow (ws : List Nat) (now : Nat) : State :=
  { State.reset with clock := { now := now }, job := { phase := .running, running := true }
                     mesh := { State.reset.mesh with versions := (false, circuits, circuits), windows := ws } }

theorem witness_window : (inWindow [] 64).circuit 2 = some ⟨0, 77, 64, 64, 0, 0⟩ ∧ (inWindow [] 64).job.firstTick = 0 ∧
    (inWindow [] 64).clock.now - (inWindow [] 64).clock.start ≤ 64 := by decide

theorem test_windows_of_circuits :
    gives (.circuitWindowOpen 2) (inWindow [] 9) (fun t => t.mesh.windows == [2] && t.clock.now == 64) &&
    gives (.circuitWindowClose 2) (inWindow [2] 64) (fun t => t.mesh.windows == [] && t.clock.now == 128) = true := by decide +kernel

/-- An entry at position 0 that waits for its own die and the east, and a contribution of +1.0 from the east. -/
def reducing (got : List Dir) (lanes : List (BitVec 32)) : State :=
  let v : RouteVersion := { circuits with tags := [(9, ⟨true, false, true, false, false, .send .west⟩)] }
  { State.reset with job := { phase := .running, running := true }, mesh := { State.reset.mesh with
      flits := [(0, { landing with kind := 1, arg := 9, pos := .entry 0 5 .east, bytes := (List.replicate 16 [0#8, 0#8, 0x80#8, 0x3F#8]).flatten })]
      nextFlit := 1, versions := (false, v, v)
      partials := if got = [] then [] else [(36, ⟨lanes, 0#8, got, 0, false⟩)] } }

theorem witness_reduction_first : ∀ h ∈ (reducing [] []).mesh.flits, ∀ d, h.2.pos = .entry 0 5 d → h.2.arg = 9 → h.2.idx = 0 →
    dirNo .east ≤ dirNo d := by
  intro h hm d hp _ _
  simp only [reducing, List.mem_singleton] at hm
  subst hm
  cases hp
  decide

theorem witness_reduction : let e : TagEntry := ⟨true, false, true, false, false, .send .west⟩
    tagEntryAt ((reducing [] []).mesh.version false) 0 9 = some e ∧ allIn e [.east] = false ∧ allIn e [.east, .local] = true := by decide

-- 1.0 + 1.0 = 2.0
theorem test_reduction :
    gives (.redFlitArrival 0) (reducing [] []) (fun t => (tfind t.mesh.partials 36).map (fun p => (p.got, p.lanes.take 1)) == some ([.east], [0x3F800000#32])) &&
    gives (.redFlitArrival 0) (reducing [.local] (List.replicate 16 0x3F800000#32)) (fun t => (tfind t.mesh.flits 1).map (fun f => (f.pos, f.bytes.take 4)) ==
      some (.ramp 0 6, [0#8, 0#8, 0#8, 0x40#8])) &&
    gives (.redFlitArrival 0) (reducing [.east] (List.replicate 16 0#32)) (fun t => t.job.endCode == some 0x072) = true := by decide +kernel

/-! ### Stacks (R290 to R306, R317 to R322, R348) and their attention engines (R307 to R315) -/

/-- Stack 0 is READY with 21 attach positions, logical die 0 stands on site 0, core 0 runs, and ticks have D = 3,072. -/
def stacked : State :=
  { running with
    panel := { ldSite := [(0, 0)] }
    clock := { hdr := { quiet := 1024 } }
    plos := { rec_ := [(0, { mode := .ready, nAtt := 21 })], mem := [(0, 1#8), (63, 2#8)] } }

/-- A descriptor of 64 bytes with these words. -/
def desc (ws : List Nat) : List (BitVec 8) := (ws ++ List.replicate (16 - ws.length) 0).flatMap (leBytes 4)

/-- Its flit has arrived at stack 0's base die for context (or as SAE command) `arg`. -/
def asking (arg : Nat) (ws : List Nat) : State :=
  { stacked with mesh := { stacked.mesh with flits := [(0, { landing with kind := 4, dest := 0x3C00, src := 0, arg := arg, bytes := desc ws, pos := .land 0 4 .local })] } }

-- read one granule from address 0 into granule 4, at pace 16
theorem test_descriptor :
    gives (.streamDescriptor 0) (asking 1 [0x00100000, 1, 0, 0, 0, 0, 4]) (fun t => (tfind t.plos.streams 0).map (fun r => (r.mine, r.pace, r.doff)) ==
      some ([0], 16, 4) && t.plos.nextId == 1) &&
    gives (.streamDescriptor 0) (asking 1 [0x00100000, 0, 0, 0, 0, 0, 4]) (fun t => t.plos.streams == [] && (t.stack 0).refReason == 2 &&
      tfind t.plos.notices 0 == some ⟨0, 1, 1536⟩) = true := by decide +kernel

theorem test_refusal_notice :
    gives (.refusalNotice 0) { stacked with ctx := [(1, ⟨.active, 3, 9⟩)], plos := { stacked.plos with notices := [(0, ⟨0, 1, 1536⟩)] } }
      (fun t => t.getCtx 1 == ⟨.error, 3, 9⟩ && t.plos.notices == []) = true := by decide +kernel

/-- A stream of two granules between stack address 0 and scratchpad granule 4. -/
def streamRec (write : Bool) (outs : List OutGranule) : StreamRec :=
  { stack := 0, lcore := 0, ctx := 1, cls := 1, write := write, pace := 16, count := 2, addr := 0, rowLen := 0, rowStride := 0, doff := 4, issue := 0,
    defer := 0, mine := [0, 1], outs := outs }

/-- That stream runs. -/
def streamed (write : Bool) (outs : List OutGranule) : State :=
  { stacked with
    ctx := [(1, ⟨.active, 0, 2⟩)], plos := { stacked.plos with streams := [(0, streamRec write outs)] }, clock := { stacked.clock with now := 1 }
    srams := { spad := [(256, 9#8)] } }

theorem witness_stream_read : let s := streamed false []
    s.pcoreOf 0 = some 0 ∧ s.coreShut 0 = false ∧ s.mirrorOf 0 = none ∧ (s.core 0).bankWork = false ∧ (s.core 0).pipe.claimCycle < s.clock.now ∧
    (s.core 0).pipe.streamAt ≤ s.clock.now ∧ s.swallows 0 = 0 ∧ Memory.wf s.srams.spad = true ∧ s.plos.flips = [] ∧
    (s.core 0).stat.run ≠ .sweeping ∧ s.wordPoison 0 32 = false ∧ (s.stack 0).copy = none ∧ s.job.spec.record = false ∧ Memory.wf s.plos.mem = true ∧
    (stackAddr s.plos.placed ((streamRec false []).gaddr 0)).2 = 0 ∧ s.plos.recent = [] ∧ (s.stack 0).dead 0 = false ∧
    s.absSched ≤ (streamRec false []).k 0 + 1536 := by decide

theorem test_granules :
    gives (.streamGranuleLand 0) (streamed false []) (fun t =>
      (t.core 0).pipe.streamBuf.map (fun d => (d.off, byteAt d.bytes 0, byteAt d.bytes 63, d.ctx)) == [(256, 1#8, 2#8, some 1)] && t.clock.now == 1536 && (t.stream 0).map (·.mine) == some [1]) &&
    gives (.writeGranuleReadout 0) (streamed true []) (fun t => ((t.stream 0).map fun r => r.outs.map (fun g => (g.idx, g.bytes.take 1, g.poison))) ==
      some [(0, [9#8], 0#8)] && t.clock.now == 16) &&
    gives (.writeGranuleAccept 0) (streamed true [⟨0, List.replicate 64 5#8, 0#8⟩]) (fun t => Memory.read t.plos.mem 0 == 5#8 &&
      Memory.read t.plos.mem 63 == 5#8 && Memory.read t.plos.mem 64 == 0#8) &&
    gives (.writeGranuleAccept 0) { streamed true [⟨0, List.replicate 64 5#8, 0#8⟩] with clock := { stacked.clock with now := 1537 } } (fun t =>
      t.plos.mem == stacked.plos.mem && (t.getCtx 1).st == .error) = true := by decide +kernel

theorem test_stack_upkeep :
    gives (.stackRefresh 0) stacked (fun t => t == stacked) && gives (.attachLoss 0) stacked (fun t => (t.stack 0).nAtt == stacked.attachNow 0) &&
    gives (.regionCopyDone 0 true) { stacked with plos := { stacked.plos with rec_ := [(0, { mode := .ready, copy := some ⟨1, 0, false⟩ })] } }
      (fun t => (t.stack 0).copy == some ⟨1, 0, true⟩ && Memory.read t.plos.mem (regionKey 0 385) == 1#8) &&
    gives (.stackLost 0) { stacked with job := { phase := .running, running := true } } (fun t => (t.stack 0).mode == .lost && t.job.endCode == some 0x081) &&
    gives (.plsModeWrite true) { stacked with panel := { mode := .ready } } (fun t => t.plos.placed) &&
    gives (.plsModeWrite true) stacked (fun t => t == stacked) = true := by decide +kernel

/-- A write of one granule at stack 0's offset 64 waits for the steward that asked for it. -/
def accessing : State :=
  { stacked with plos := { stacked.plos with
      gathers := [(3, { asker := .steward, left := 1, parts := [], code := 0 })]
      accesses := [(4, { stack := 0, cls := 1, addr := 64, off := 64, len := 64, data := some (List.replicate 64 5#8, []), gather := 3, part := 0 })] } }

theorem witness_access_served : (accessing.nextAccess 0).map (·.1) = some 4 ∧ (accessing.stack 0).toSweep = [] ∧ (accessing.stack 0).copy = none ∧
    Memory.wf accessing.plos.mem = true := by decide

theorem test_unscheduled :
    gives (.unscheduledStackAccess 1 0x17FFFFFFFC0 64 (some [])) stacked (fun t => (tfind t.plos.accesses 1).map (fun a => (a.stack, a.off, a.len)) ==
      some (15, 0x17FFFFFFC0, 64)) &&
    gives (.unscheduledAccessServe 0) accessing (fun t => t.plos.accesses == [] && Memory.read t.plos.mem 64 == 5#8 && Memory.read t.plos.mem 127 == 5#8 &&
      Memory.read t.plos.mem 63 == 2#8) &&
    gives (.stackSweepDone 0) { stacked with plos := { stacked.plos with rec_ := [(0, { mode := .ready, sweeping := true, toSweep := [0] })] } } (fun t =>
      Memory.read t.plos.mem 0 == 0#8 && !(t.stack 0).sweeping && (t.evq.travelling.map (·.code)) == [0x0405]) = true := by decide +kernel

-- ATTEND into context 7: 1 item, RBOUND 16 at RATE 16, GQ 1, MXFP4; results from schedule cycle 2,000 on
/-- A command to stack 0's engine, with this bound on what it reads. -/
def attend (rbound : Nat) : List Nat := [0x00010701, 0, rbound, 0x09010110, 0x3F800000, 0, 0, 2000]

theorem test_sae_command :
    gives (.saeCommand 0) (asking 8 (attend 16)) (fun t => (tfind t.plos.saes 0).map (fun r => (r.start, r.resultAt, r.ran)) == some (1536, 2000, false)) &&
    gives (.saeCommand 0) (asking 8 [0x00000701]) (fun t => t.plos.saes == [] && (t.stack 0).refReason == 2 && tfind t.plos.notices 0 == some ⟨0, 7, 1536⟩) = true := by
  decide +kernel

/-- That command is admitted; `ran` tells that its engine has read, and granule 0 of its result is all 5. -/
def attending (ran : Bool) (next : Nat) : State :=
  { stacked with
    ctx := [(7, ⟨.active, 0, 0⟩)], clock := { stacked.clock with now := 1 }
    plos := { stacked.plos with saes := [(0, ⟨0, 0, 1, desc (attend 16), 0, 1536, 2000, ran, [], [List.replicate 64 5#8], [(0, 4)], next⟩)] } }

/-- The same, with one item of 1 page and 1 token whose block table stands at address 64 and whose queries stand at 128. -/
def whole : State :=
  let s := attending false 0
  { s with plos := { s.plos with mem := [(0, 1#8), (4, 1#8), (6, 1#8), (8, 2#8), (14, 4#8), (71, 0x80#8)] } }

-- 2 granules of tokens, 4 of the page's scales, 1 of the table and 4 of queries, and 1 for the list
theorem witness_sae : whole.saeWork 0 (desc (attend 16)) = 12 ∧ saeRbound (desc (attend 16)) = 16 ∧ saeItems (desc (attend 16)) = 1 ∧
    whole.saeKind 0 (desc (attend 16)) false 0 = 0 ∧ whole.plos.flips = [] := by decide +kernel

theorem witness_sae_result : let s := attending true 0
    (saeOrder (desc (attend 16)))[0]? = some (0, 0, 0) ∧ s.pcoreOf 0 = some 0 ∧ s.swallows 0 = 0 ∧ s.coreShut 0 = false ∧ s.mirrorOf 0 = none ∧
    (s.core 0).bankWork = false ∧ (s.core 0).pipe.claimCycle < s.clock.now ∧ (s.core 0).pipe.streamAt ≤ s.clock.now := by decide +kernel

-- the item's fields are all 0, so its work is 0 tokens and 4 granules of queries, plus 1 for the list: within 16, but R308 is broken
theorem test_sae_run :
    (attending false 0).saeWork 0 (desc (attend 16)) == 5 &&
    gives (.saeStart 0) (attending false 0) (fun t => t.clock.now == 1536 && (t.sae 0).map (fun r => (r.ran, r.faults.map (·.1))) == some (true, [0])) &&
    gives (.saeResult 0) (attending true 0) (fun t => t.clock.now == 2000 &&
      (t.core 0).pipe.streamBuf.map (fun d => (d.off, d.bytes.take 1)) == [(256, [5#8])] && (t.sae 0).map (·.next) == some 1) &&
    gives (.saeDone 0) (attending true 9) (fun t => t.clock.now == 2009 && t.getCtx 7 == ⟨.done, 1, 0⟩ && (t.stack 0).saeDone == 1) = true := by
  decide +kernel

/-! ### Wadis, remote DMA, sweeps and check-value units (R327 to R355) -/

/-- Core 0 has a wadi over granules 4 and 5 for writes of this device in class C1 from core 0, and a flit for granule `g` arrives. -/
def wadiFlit (g cls : Nat) : State :=
  { stacked with
    job := { phase := .running, running := true }
    win := { stacked.win with wadi := [(15, ⟨4, 2, 1, 2, 0, 0, 0⟩)] }
    mesh := { stacked.mesh with flits := [(0, { landing with kind := 3, cls := cls, dest := 0, src := 0, arg := g })] } }

theorem witness_wadi : (wadiFlit 4 1).wadiReason 0 0 0 4 1 = 0 ∧ (wadiFlit 6 1).wadiReason 0 0 0 6 1 = 1 ∧
    (wadiFlit 5 2).wadiReason 0 0 0 5 2 = 3 := by decide

/-- A buffer of 32 entries, and a flit for it that came from the west, on a panel whose routers are all in service. -/
def crowded : State :=
  let s := wadiFlit 5 1
  { s with
    cores := [(0, { runner with pipe := { wbuf := List.replicate 32 ⟨256, List.replicate 64 6#8, 0#8, 1, 0, none⟩ } })]
    panel := { s.panel with routerUp := (List.range 144).map fun i => (i, true) }
    mesh := { s.mesh with flits := [(0, { landing with kind := 3, cls := 1, dest := 0, src := 0, arg := 5, sched := false, pos := .land 0 4 .east })] } }

theorem test_full_buffer :
    gives (.wadiFlitArrival 0) crowded (fun t => (tfind t.mesh.flits 0).map (fun f => (f.laps, f.pos)) == some (1, .land 0 452 .east) &&
      (t.core 0).pipe.wbuf.length == 32) = true := by decide +kernel

theorem test_wadi_arrival :
    gives (.wadiFlitArrival 0) (wadiFlit 5 1) (fun t => (t.core 0).pipe.wbuf.map (fun w => (w.off, w.cls)) == [(320, 1)] && t.mesh.flits == []) &&
    gives (.wadiFlitArrival 0) (wadiFlit 6 1) (fun t => (t.wadiDrop 0).reason == 1 && (t.wadiDrop 0).count == 1 && (t.wadiDrop 0).granule == 6) = true := by
  decide +kernel

/-- A write for granule 4 waits in core 0's buffer, its wadi open or not. -/
def buffered (open_ : Bool) : State :=
  { wadiFlit 4 1 with
    cores := [(0, { runner with pipe := { wbuf := [⟨256, List.replicate 64 6#8, 0#8, 1, 0, none⟩] } })]
    win := { stacked.win with wadi := if open_ then [(15, ⟨4, 2, 1, 2, 0, 0, 0⟩)] else [] } }

theorem witness_buffered : let u := (buffered true).sync 0
    (u.core 0).pipe.wbuf.length = 1 ∧ (u.core 0).pipe.wbuf = ((buffered true).core 0).pipe.wbuf ∧ (u.busyBanks 0).contains (bankOf 256) = false ∧
    u.mirrorOf 0 = none ∧ Memory.wf u.srams.spad = true ∧ u.wadiReason 0 0 0 4 1 = 0 ∧
    ((buffered false).sync 0).wadiReason 0 0 0 4 1 ≠ 0 := by decide +kernel

theorem test_wadi_landing :
    gives (.wadiFlitLand 0) (buffered true) (fun t => (t.core 0).pipe.wbuf == [] && Memory.read t.srams.spad 256 == 6#8 && Memory.read t.srams.spad 320 == 0#8) &&
    gives (.wadiFlitLand 0) (buffered false) (fun t => (t.core 0).pipe.wbuf == [] && t.srams.spad == [] && (t.wadiDrop 0).reason == 4) &&
    gives .wadiExpiry { stacked with clock := { tick := 9#64 }, win := { stacked.win with wadi := [(0, ⟨4, 2, 1, 2, 0, 0, 9⟩), (1, ⟨4, 2, 1, 2, 0, 0, 10⟩)] } }
      (fun t => t.win.wadi.map (·.1) == [1]) = true := by decide +kernel

/-- Remote DMA 0 of core 0 has 3 granules landed, its record at offset 256, its report in or not. -/
def rdmaOut (reported : Bool) : State :=
  { stacked with win := { stacked.win with rdma := [(0, ⟨1, 0, 9, 256, 3, 3, 0, false, false, false, 0, reported, 50⟩)] } }

theorem witness_rdma_ends : let s := { rdmaOut true with clock := { now := 1 } }
    s.rdma 0 ≠ none ∧ s.pcoreOf 0 = some 0 ∧ s.swallows 0 = 0 ∧ s.mirrorOf 0 = none ∧ (s.core 0).bankWork = false ∧ (s.core 0).pipe.held = none ∧
    (s.core 0).pipe.claimCycle < s.clock.now ∧ (s.core 0).pipe.lowCycle < s.clock.now ∧ Memory.wf s.srams.spad = true := by decide +kernel

theorem test_rdma_ends :
    gives (.rdmaReport 0 0) (rdmaOut true) (fun t => t.win.rdma == [] && Memory.readBytes t.srams.spad 256 8 == [3#8, 0#8, 0#8, 0#8, 9#8, 0#8, 0#8, 0#8]) &&
    gives (.rdmaTimeout 0 0) (rdmaOut false) (fun t => t.win.rdma == [] && Memory.readBytes t.srams.spad 256 8 == [3#8, 0#8, 0x40#8, 9#8, 9#8, 0#8, 0#8, 0#8]) = true := by
  decide +kernel

/-- Site 0 is being swept, with these cores to go. -/
def sweeping (left : List Nat) : State :=
  { stacked with srams := { spad := [(256, 9#8)], imem := [(0, 1#256)] }, win := { stacked.win with sweep := [(0, { st := 1, left := left })] } }

theorem witness_quiet : ((sweeping [0, 1]).dieSweep 0).cause ≠ .back ∧ (sweeping [0, 1]).job.phase ≠ .sweep ∧
    ((sweeping [0, 1]).core 0).fault.valid = false ∧ ((sweeping [0, 1]).core 0).stat.valid = true := by decide +kernel

theorem test_sweep :
    gives (.sweepComplete 0 (some 0)) (sweeping [0, 1]) (fun t => runOf t == .idle && t.srams.spad == [] && t.srams.imem == [] && (t.dieSweep 0).left == [1]) &&
    gives (.sweepComplete 0 none) (sweeping [1]) (fun t => (t.dieSweep 0).st == 2) &&
    gives (.sweepTimeout 0) (sweeping [0, 1]) (fun t => (t.dieSweep 0).failed == [0] && (t.core 0).fault.code == 0x040) = true := by decide +kernel

/-- A request from node 5, number 6, that asks for a CRC-32C alone. -/
def asks : CvuReq := { node := 5, rseq := 6, mode := 1, alg := false, expect := none }

/-- Unit 2 works on that request. -/
def checking : State := { State.reset with win := { State.reset.win with cvu := [(2, { busy := some asks })] } }

theorem witness_checking : (checking.cvu 2).queue = [] ∧ checking.copyOn 2 = none ∧ checking.sendOn 2 = none ∧ checking.trailerOn 2 = none ∧
    checking.snapOn 2 = false ∧ checking.bcastOn 2 = none ∧ checking.zfp.committing = false := by decide

-- CRC-32C of the nine ASCII digits "123456789" is 0xE3069283
theorem test_cvu :
    gives (.cvuRequest 2 5 6 1 false none) State.reset (fun t => (t.cvu 2).busy == some asks) &&
    gives (.cvuRequest 2 5 7 1 false none) checking (fun t => (t.cvu 2).queue == [{ asks with rseq := 7 }]) &&
    gives (.cvuStreamEnd 2 [0x31#8, 0x32#8, 0x33#8, 0x34#8, 0x35#8, 0x36#8, 0x37#8, 0x38#8, 0x39#8] false) checking (fun t =>
      (tfind (t.cvu 2).ring 0).map (fun e => (e.node, e.status, e.bytes, e.value)) == some (5, 1, 9, 0xE3069283) && (t.cvu 2).busy.isNone && (t.cvu 2).head == 1) = true := by
  decide +kernel

/-! ### Zilusk ports, their packets and the fabric's routing (R356 to R402) -/

/-- Gateway 0's router is up, and port 1 is `r`. -/
def ported (r : PortRec) : State :=
  { State.reset with panel := { routerUp := [(13, true)] }, zfp := { State.reset.zfp with ports := [(1, r)], devNum := 7 } }

theorem witness_ports : (ported {}).routerUp (gwSite (1 / 4)) = true ∧ allLanes 1 = 255 ∧ halfGood 1 0x0F = true ∧ halfGood 1 0x1E = false ∧
    (ported { mode := .up }).port 1 = { mode := .up } := by decide

theorem test_ports :
    gives (.portEnable 1 true 1#2) (ported {}) (fun t => (t.port 1).mode == .training && (t.port 1).enable && (t.port 1).medium == 1) &&
    gives (.portEnable 1 false 1#2) (ported { mode := .up, txSeq := 9 }) (fun t => (t.port 1).mode == .down && (t.port 1).txSeq == 0) &&
    gives (.portEnable 1 true 1#2) (ported { mode := .up }) (fun t => (t.port 1).mode == .up && (t.port 1).enable) &&
    gives (.retrain 1) (ported { mode := .up, enable := true }) (fun t => (t.port 1).mode == .training) &&
    gives (.disable 1) (ported { mode := .up, enable := true }) (fun t => (t.port 1).mode == .disabled) &&
    gives (.linkLoss 1) (ported { mode := .up, enable := true }) (fun t => (t.port 1).mode == .down && (t.evq.travelling.map (·.code)) == [0x0601]) = true := by
  decide +kernel

theorem test_training :
    gives (.trainingComplete 1 true 0xFF#8 5#16) (ported { mode := .training, enable := true }) (fun t => (t.port 1).mode == .up && (t.port 1).peerDev == 5) &&
    gives (.trainingComplete 1 true 0x0F#8 5#16) (ported { mode := .training, enable := true }) (fun t => (t.port 1).mode == .upHalf) &&
    gives (.trainingComplete 1 true 0x1E#8 5#16) (ported { mode := .training, enable := true }) (fun t => (t.port 1).mode == .failed) &&
    gives (.trainingComplete 1 false 0#8 5#16) (ported { mode := .training, enable := true }) (fun t => (t.port 1).mode == .training && (t.port 1).trains == 1) &&
    gives (.trainingComplete 1 false 0#8 5#16) (ported { mode := .training, enable := true, trains := 1 }) (fun t => (t.port 1).mode == .failed) &&
    gives (.laneFailure 1 0x0F#8) (ported { mode := .up, enable := true }) (fun t => (t.port 1).mode == .training) &&
    gives (.laneFailure 1 0x1E#8) (ported { mode := .up, enable := true }) (fun t => (t.port 1).mode == .failed) = true := by decide +kernel

/-- A packet of a kind for an address, from device 5. -/
def packet (kind gaddr : Nat) : Packet :=
  { cls := 1, kind := kind, chan := 0, epoch := false, circOn := false, last := false, rpt := false, trailer := false, hops := 3, srcDev := 5, srcInc := 0,
    gaddr := gaddr, srcNode := 9, circ := 0, arg := 0, poison := 0#32, data := List.replicate 64 7#8, inl := [] }

/-- A frame with that number that has been sent again that often. -/
def frame (seq resends : Nat) : SentFrame := ⟨seq, ⟨packet 0 0, none, none⟩, 0, resends⟩

/-- A packet of kind 6 for device 7, without data. -/
def note (cls : Nat) : Packet := { packet 6 (7 * 2 ^ 48) with cls := cls, data := [], inl := List.replicate 32 0#8 }

/-- The bytes of a DATA frame of one unit with that SEQ, and of an ACK (1) or NAK (2) frame for SEQ 3 that returns 5 units of class 2. -/
def dataBytes (seq : Nat) : List (BitVec 8) := frameBytes ⟨0, seq, 0, 0, 0, 3, 1⟩ (note 3).head

/-- That DATA frame arrives on port 1, with bytes that follow it. -/
def arrives (corr seq : Nat) (more : List (BitVec 8)) : Instr :=
  .dataFrame 1 corr 0 (BitVec.ofNat 12 seq) 0#12 0#2 0#6 3#2 ((dataBytes seq).drop 8 ++ more)

def ctlBytes (typ : Nat) : List (BitVec 8) := frameBytes ⟨typ, 0, 3, 2, 5, 0, 0⟩ []

theorem witness_frames : readFrame (ctlBytes 1) = some (⟨1, 0, 3, 2, 5, 0, 0⟩, []) ∧ readFrame (dataBytes 0) = some (⟨0, 0, 0, 0, 0, 3, 1⟩, (note 3).head) ∧
    (note 3).inl.length = 32 ∧ (note 3).data = [] ∧ (parsePacket (note 3).head).2 = false ∧ (ported {}).zfp.paced = [] ∧
    readFrame (dataBytes 0 ++ [0#8]) = none ∧ dataWire 0#12 0#12 0#2 0#6 3#2 ((dataBytes 0).drop 8) = dataBytes 0 := by decide +kernel

theorem test_link :
    gives (.portDown 1) (ported { mode := .up, enable := true, replay := [frame 3 8] }) (fun t => (t.port 1).mode == .training && (t.port 1).live && (t.port 1).replay == [] &&
      (t.port 1).downs == 1 && t.incOf 0x8001 == 1) &&
    gives (arrives 2 0 [0#8]) (ported { mode := .up }) (fun t => (t.port 1).gapNak && t.zfp.rx == [] && (t.port 1).corr == 2) &&
    gives (arrives 0 1 []) (ported { mode := .up }) (fun t => (t.port 1).gapNak && t.zfp.rx == []) &&
    gives (arrives 0 0 []) (ported { mode := .up }) (fun t => (t.port 1).rxSeq == 0 && t.zfp.rx.length == 1 && (t.port 1).held 3 == 1) &&
    gives (.ackFrame 1 0 0 (ctlBytes 1)) (ported { mode := .up, replay := [frame 2 0, frame 3 0, frame 4 0], credits := [(2, 10)] }) (fun t =>
      (t.port 1).replay.map (·.seq) == [4] && (t.port 1).credit 2 == 15) &&
    gives (.nakFrame 1 ⟨0, 0, ctlBytes 2⟩) (ported { mode := .up, replay := [frame 2 0, frame 3 0, frame 4 0] }) (fun t =>
      (t.port 1).replay.map (fun f => (f.seq, f.resends)) == [(4, 1)] && (t.port 1).replays == 1) = true := by decide +kernel

/-- A packet for an address has arrived on port 1 in cycle 4; device 7 routes device 8 by port 2 (gateway 0) and device 9 by port 5 (gateway 1), both UP. -/
def arrived (p : Packet) : State :=
  { State.reset with
    clock := { now := 4 }
    panel := { routerUp := [(13, true), (39, true)] }
    zfp := { State.reset.zfp with
      devNum := 7, rx := [(0, ⟨1, p, 4⟩)], nextRx := 1, ports := [(1, { mode := .up }), (2, { mode := .up }), (5, { mode := .up })]
      rt := ({ dev := [(8, 0x82), (9, 0x85)] }, {}) } }

theorem witness_transit : let s := arrived (packet 0 (8 * 2 ^ 48))
    s.zfp.isPair 1 = false ∧ (s.dropRx 0).isStale (packet 0 (8 * 2 ^ 48)) = false ∧ (s.dropRx 0).routeOf (packet 0 (8 * 2 ^ 48)) 1 = some (2, none) ∧
    (s.dropRx 0).routeOf (packet 0 (9 * 2 ^ 48)) 1 = some (5, none) ∧ (s.dropRx 0).routeOf (packet 0 (10 * 2 ^ 48)) 1 = none := by decide +kernel

theorem test_transit :
    gives (.transitPacket 0) (arrived (packet 0 (8 * 2 ^ 48))) (fun t => (t.port 2).replay.length == 1 && t.zfp.rx == []) &&
    gives (.transitPacket 0) (arrived (packet 0 (9 * 2 ^ 48))) (fun t => (tfind t.zfp.transits 0).map (fun k => (k.port, k.flits)) == some (5, [0, 1]) &&
      t.mesh.nextFlit == 2) &&
    gives (.transitPacket 0) (arrived (packet 0 (10 * 2 ^ 48))) (fun t => t.zfp.noRoute == 1 && t.zfp.rx == []) &&
    gives (.transitPacket 0) (arrived { packet 0 (8 * 2 ^ 48) with hops := 0 }) (fun t => t.zfp.aged == 1 && t.zfp.rx == []) &&
    gives (.packetAged (.rx 0)) (arrived (packet 0 (8 * 2 ^ 48))) (fun t => t.zfp.aged == 1 && t.zfp.rx == []) = true := by decide +kernel

/-- Packet number `num` from gateway 0 to gateway 1, with these flits to come. -/
def transit (num : Nat) (flits : List Nat) (ready : Option Nat) : Transit := ⟨0, 1, num, 5, packet 0 (9 * 2 ^ 48), none, flits, ready, 4, false⟩

/-- Flit 0 of transit 0 has reached gateway 1. -/
def reassembling (flits : List Nat) : State :=
  { arrived (packet 0 0) with
    zfp := { (arrived (packet 0 0)).zfp with transits := [(0, transit 0 flits none)] }
    mesh := { State.reset.mesh with flits := [(3, { landing with kind := 0xA, tag := some 0, arg := 0 })] } }

theorem test_reassembly :
    gives (.transitReassembly 3) (reassembling [0, 1]) (fun t => (tfind t.zfp.transits 0).map (·.flits) == some [1] && t.mesh.flits == []) &&
    gives (.transitReassembly 3) (reassembling [0]) (fun t => (t.port 5).replay.length == 1 && tget 0 t.zfp.rxNum 1 == 1) &&
    gives (.transitGapTimeout 0 1) { reassembling [0] with zfp := { (reassembling [0]).zfp with transits := [(0, transit 0 [0] none), (1, transit 1 [] (some 6))] } }
      (fun t => t.zfp.aged == 1 && t.clock.now == 4102 && (t.port 5).replay.length == 1) = true := by decide +kernel

/-- A packet for this device: device 5 is a live member of the job's group and a manager. -/
def mine (p : Packet) : State :=
  let s := arrived p
  { s with cons := { s.cons with mode := .member, group := 1, members := [(0, { dev := 5, live := true, inc := 0 })] }
           zfp := { s.zfp with mgr := [(0, (true, 5))] }, stew := { active := some false } }

/-- The address of scratchpad granule 4 of logical core 2 on device 7. -/
def pad : Nat := 7 * 2 ^ 48 + 0x400000000000 + 2 * 2 ^ 21 + 256

theorem witness_delivered : ((mine (packet 0 pad)).dropRx 0).arrivalDrop ⟨1, packet 0 pad, 4⟩ = none ∧
    ((mine (packet 0 pad)).dropRx 0).passesWrite (packet 0 pad) = true ∧ ((mine (packet 0 pad)).dropRx 0).mgmtReader 5 = true ∧
    mgmtReads 0 = true ∧ mgmtWrites 0x408010 = true := by decide +kernel

theorem test_delivered :
    gives (.writePacket 0) (mine (packet 0 pad)) (fun t => (tfind t.mesh.flits 0).map (fun f => (f.kind, f.dest, f.arg, f.bytes.take 1)) == some (3, 2, 4, [7#8])) &&
    gives (.writePacket 0) (mine (packet 0 (7 * 2 ^ 48 + 0x18000000000))) (fun t => t.zfp.refused == 1 && t.mesh.nextFlit == 0) &&
    gives (.redPacket 0) (mine { packet 1 pad with arg := 3 }) (fun t => t.mesh.nextFlit == 1 && t.zfp.red == []) &&
    gives (.redPacket 0) (mine { packet 1 pad with arg := 0x10003 }) (fun t => t.mesh.nextFlit == 0 && t.zfp.red.length == 1) &&
    gives (.mgmtResp 0) (mine { packet 6 (7 * 2 ^ 48 + 9) with arg := 4, inl := leBytes 8 3 ++ leBytes 2 0x95 }) (fun t => t.zfp.replies.map (fun r => (r.node, r.data, r.code)) ==
      [(9, 3, 0x95)]) &&
    gives (.mgmtNote 0) (mine { packet 7 (7 * 2 ^ 48) with inl := [1#8] }) (fun t => (t.evq.travelling.map (·.code)) == [0x0605]) = true := by decide +kernel

theorem test_management :
    gives (.mgmtReq 0) (mine { packet 5 (7 * 2 ^ 48 + ctlBase + 0x408010) with arg := 0x20000, inl := leBytes 4 0x1234 }) (fun t => t.zfp.check == 0x1234#32) = true := by
  decide +kernel

/-- Remote DMA 0 of core 2 to device 5 waits for its report. -/
def reporting : State :=
  let s := mine { packet 2 (7 * 2 ^ 48) with inl := leBytes 4 9 ++ leBytes 2 2 ++ leBytes 4 3 ++ leBytes 4 1 ++ [1#8] }
  { s with win := { s.win with rdma := [(8, ⟨1, 5 * 2 ^ 48, 9, 0, 4, 0, 0, false, false, false, 0, false, 99⟩)] } }

theorem test_report :
    gives (.reportPacket 0) reporting (fun t => (t.rdma 8).map (fun r => (r.landed, r.dropped, r.mismatch, r.reported)) == some (3, 1, true, true)) = true := by
  decide +kernel

theorem test_routing :
    gives (.devNumWrite 7#16) { State.reset with panel := { mode := .ready } } (fun t => t.zfp.devNum == 7) &&
    gives (.devNumWrite 7#16) State.reset (fun t => t.zfp.devNum == 0xFFFF) &&
    gives (.pairSet true 1 5 8#16) { State.reset with panel := { mode := .ready } } (fun t => t.zfp.pairOn && t.zfp.partner == 8 && !t.zfp.pairUp) &&
    gives (.routeTableWrite false 8 0xFFFFFFFF#64) State.reset (fun t => tget 0 t.zfp.rt.2.dev 8 == 0x9F9F9F9F && tget 0 t.zfp.rt.1.dev 8 == 0) &&
    gives (.routeTableWrite true 32 0xFFFFFFFFFF#64) State.reset (fun t => tget 0 t.zfp.rt.2.bcast 32 == 0x1FFFFFFFF) &&
    gives .routeFlip { State.reset with zfp := { State.reset.zfp with loaded := true, flipTick := 2#64 } } (fun t => t.zfp.pending) &&
    gives .routeFlip { State.reset with zfp := { State.reset.zfp with loaded := true, flipTick := 1#64 } } (fun t => !t.zfp.pending) &&
    gives .zfpFlip { State.reset with zfp := { State.reset.zfp with pending := true } } (fun t => t.zfp.active && (t.evq.travelling.map (·.code)) == [0x0602]) &&
    gives (.circEntryActivate 3) { State.reset with zfp := { State.reset.zfp with circ := [(3, { valid := true, first := 0, count := 1 })] } } (fun t =>
      (tget {} t.zfp.circ 3).active) &&
    gives (.drainExpiry 8#16 1 0#4) { State.reset with zfp := { State.reset.zfp with lastSent := [(8 * 64 + 16, (4, true))] } } (fun t => t.clock.now != 0) = true := by
  decide +kernel

/-! ### The storage side (R403 to R435) -/

/-- Channel 2 has these blocks. -/
def flash (bs : Tab BlockRec) : State := { State.reset with nvm := { State.reset.nvm with chans := [(2, { blocks := bs })] } }

/-- Block `b` of channel 2. -/
def blockOf (t : State) (b : Nat) : BlockRec := (t.chan 2).block b

theorem test_codewords :
    gives (.codewordRead 2 9 .tier1 none) (flash []) (fun t => (t.chan 2).tier1 == 1 && (blockOf t 9).reads == 1) &&
    gives (.patrolRead 2 9 (.tier2 0) none) (flash []) (fun t => (t.chan 2).tier2 == 1) &&
    gives (.codewordRead 2 9 .tier3 none) (flash []) (fun t => (t.chan 2).tier3 == 1 && !(blockOf t 9).bad) &&
    gives (.codewordRead 2 9 .tier4 none) (flash []) (fun t => (t.chan 2).tier4 == 1 && (blockOf t 9).bad) &&
    gives (.codewordRead 2 9 .failed (some 1)) (flash []) (fun t => (t.chan 2).uncorr == 1 && (blockOf t 9).bad && t.nvm.mode == .broken) = true := by
  decide +kernel

theorem test_blocks :
    gives (.blockRefresh 2 9 ⟨5, true⟩) (flash [(5, { free := true }), (9, { valid := true })]) (fun t => !(blockOf t 9).valid && (blockOf t 5).valid && !(blockOf t 5).free) &&
    gives (.wearMove 2 0) (flash [(5, { free := true, erases := 300 }), (9, { valid := true, erases := 43 })]) (fun t => (blockOf t 5).valid) &&
    gives (.wearMove 2 0) (flash [(5, { free := true, erases := 300 }), (9, { valid := true, erases := 44 })]) (fun t => !(blockOf t 5).valid) &&
    gives (.programComplete 2 9 false 0 0) (flash []) (fun t => (blockOf t 9).bad) &&
    gives (.programComplete 2 9 true 0 0) (flash [(9, { free := true })]) (fun t => (blockOf t 9).valid && !(blockOf t 9).free) &&
    gives (.eraseComplete 2 9 true) (flash [(9, { valid := true, erases := 4 })]) (fun t => blockOf t 9 == { erases := 5, free := true }) &&
    gives (.channelOut 2 (some 3)) { State.reset with nvm := { State.reset.nvm with
        chans := [(2, { mode := .up, targets := 0xFF#8 })], stripes := [(6, { pages := [(0, [])] })] } } (fun t =>
      (t.chan 2).targets == 0xF7#8 && (t.nvm.stripe 6).lost == [0]) = true := by decide +kernel

/-- A stripe whose gateway 1 holds a page and whose parity page, of gateway 2, is programmed. -/
def striped : StripeRec := { pages := [(1, [⟨3, 6, 1, none, 0, [9#8, 7#8]⟩])], parity := some 2 }

-- the only data page of the stripe is what its parity page holds
theorem test_rebuild : (striped.rebuild 2 1 0).take 3 = [9#8, 7#8, 0#8] ∧ (striped.pages.map (·.1)).Nodup ∧ (striped.rebuild 2 1 1).take 1 = [0#8] := by
  decide +kernel

/-- Channels 2 and 6 serve. -/
def twoUp : State := { State.reset with nvm := { State.reset.nvm with chans := [(2, { mode := .up }), (6, { mode := .up })] }, panel := { routerUp := [(13, true), (39, true)] } }

theorem witness_program : ((flash [(9, { free := true })]).chan 2).mayOpen 9 = true ∧
    ((flash [(9, { free := true, erases := 5 }), (7, { free := true })]).chan 2).mayOpen 9 = false ∧
    (twoUp.parityAt 0 2 = some 0 ∧ twoUp.parityAt 2 2 = some 1) := by decide +kernel

theorem witness_wear :
    let good : List (Nat × BlockRec) := [(5, { free := true, erases := 300 }), (9, { valid := true, erases := 43 })]
    pickErase false good = some (9, { valid := true, erases := 43 }) ∧ pickErase true good = some (5, { free := true, erases := 300 }) ∧
    pickErase false (good.filter fun e => e.2.valid) = some (9, { valid := true, erases := 43 }) ∧
    pickErase true (good.filter fun e => e.2.free) = some (5, { free := true, erases := 300 }) := by decide

theorem test_system_area :
    gives (.systemAreaCopy true) { State.reset with nvm := { State.reset.nvm with sys := [(1, [(4, [1#8]), (3, [2#8]), (4, [3#8])])] } } (fun t =>
      (tget [] t.nvm.sys 1).find? (fun e => e.1 == 4) == some (4, [1#8]) && (tget [] t.nvm.sys 1).length == 2 && tget 0 t.nvm.sysHalf 1 == 1) &&
    gives .imageCommit { State.reset with nvm := { State.reset.nvm with imageNew := [(3, 4, 5, ⟨[1#8], []⟩)] } } (fun t =>
      t.nvm.imageNew == [] && (tfind t.nvm.imageNow 5).isSome && (t.status 3 4).st == .done) = true := by decide +kernel

/-- A running job with job number 6, with these marks accepted and steps requested. -/
def stepping (marks closing : List (Nat × Nat)) : State :=
  { State.reset with job := { phase := .running, running := true, started := true, spec := { State.reset.job.spec with job := 6 }, marks := marks, closing := closing } }

theorem test_steps :
    gives .stepMark (stepping [(1, 5)] []) (fun t => t.job.asked == 1 && t.job.closing == [(1, 7)]) &&
    gives .stepMark (stepping [(3, 5)] []) (fun t => t.job.marks == [] && t.job.asked == 0 && (t.evq.travelling.map (·.code)) == [0x0903]) &&
    gives .stepMark (stepping [(1, 5)] (List.replicate 16 (0, 0))) (fun t => t.job.endCode == some 0x0E3) &&
    gives .stepClose (stepping [] [(1, 0)]) (fun t => t.job.closed == 1 && t.job.closing == []) &&
    gives .stepClose (stepping [] [(1, 1)]) (fun t => t.job.closed == 0) = true := by decide +kernel

/-- Stack 0's ring holds one granule of step 1. -/
def staging : State :=
  { stepping [] [] with
    nvm := { State.reset.nvm with
      rings := [(0, { q := [⟨64, 1, [1#8], 0#8⟩] })], mode := .recording, valid := true, slots := [(0, ⟨1, 0, 6, [], [], 0, []⟩)] }
    job := { (stepping [] []).job with closed := 1 } }

theorem witness_delta : (staging.nvm.inForce.map fun r => (r.job, r.last)) = some (6, 0) ∧ staging.undrained 1 = true ∧
    (∀ t, exec (.stagingDrain 0 1) staging = .next t → t.undrained 1 = false) := by
  refine ⟨by decide, by decide, ?_⟩
  intro t h
  cases h
  decide +kernel

theorem test_store :
    gives (.stagingDrain 0 1) staging (fun t => t.nvm.pages.length == 1 && (t.ring 0).q == []) &&
    gives .deltaCommit { staging with nvm := { staging.nvm with rings := [], pages := [⟨64, 1, [1#8], 0#8⟩], flashed := 1 } } (fun t =>
      t.nvm.stepCommit == 1 && t.nvm.pages == [] && t.nvm.areaA.map (fun c => (c.kind, c.step, c.cseq)) == [(2, 1, 1)] && t.nvm.areaB == t.nvm.areaA) &&
    gives .snapshotCommit { staging with nvm := { staging.nvm with snapNow := some ⟨true, 1, [⟨64, 1, [1#8], 0#8⟩], 1, [], [], (List.range 16).map (fun n => (n, 0)), 0⟩ } } (fun t =>
      t.nvm.slotB && t.nvm.base == 1 && t.nvm.sgen == 1 && t.nvm.snapNow.isNone) &&
    gives (.restoreDone false true) { staging with job := { staging.job with phase := .restoring, running := false } } (fun t =>
      t.job.closed == 0 && t.nvm.mode == .idle && t.job.phase == .ready) &&
    gives (.restoreDone true true) { staging with job := { staging.job with phase := .restoring, running := false } } (fun t => t.job.endCode == some 0x0B0) = true := by
  decide +kernel

/-! ### The host interface (R436 to R468) -/

/-- Link 0 is UP, and queue 0 is enabled with 16 slots. -/
def hosted : State :=
  { State.reset with
    panel := { mode := .ready, routerUp := [(13, true)] }
    zfp := { State.reset.zfp with ports := [(32, { mode := .up, enable := true })] }
    hif := { State.reset.hif with queues := [(0, { enable := true, depth := 4, tail := 1 })] } }

/-- The head unit of a request of class C1 with tag 9. -/
def head (addr len : Nat) : HostHead :=
  { badType := false, cls := 1#8, tag := 9#16, len := BitVec.ofNat 32 len, addr := BitVec.ofNat 64 addr, code := 0#16, rest := true }

/-- The completion that a command leaves: tag, code, bytes. -/
def answer (t : State) : Option (Nat × Nat × List (BitVec 8)) := t.hif.cpls.getLast?.map fun c => (c.tag, c.code, c.bytes)

theorem witness_host : hosted.takesRequest 0 = true ∧ headBad (head 0 4) true = false ∧ headBad (head 0 5) true = true ∧ rangeOf 0 64 = some .plos ∧
    rangeOf 0x400000000100 64 = some .pads ∧ rangeOf ctlBase 4 = some .ctl ∧ rangeOf queueBase 64 = some .queues ∧
    rangeOf 0x400600000000 4 = some .hole ∧ rangeOf 0xFFFFFFFFFFFC 4 = none ∧ hosted.touchesLost 0 64 = false := by decide

theorem test_host_requests :
    gives (.mwr 0 (head 0 5) []) hosted (fun t => answer t == some (9, 0x0CE, [])) &&
    gives (.mrd 0 (head 0xFFFFFFFFFFFC 4)) hosted (fun t => answer t == some (9, 0x0C9, [])) &&
    gives (.mwr 0 (head 0 64) (List.replicate 64 5#8)) hosted (fun t => t.plos.accesses.length == 1 && t.hif.cpls == []) &&
    gives (.mwr 0 (head 0x400000000100 64) (List.replicate 64 5#8)) hosted (fun t => answer t == some (9, 0, []) &&
      (tfind t.mesh.flits 0).map (fun f => (f.kind, f.dest, f.arg)) == some (3, 0, 4)) &&
    gives (.mrd 0 (head 0x400000000100 64)) hosted (fun t => answer t == some (9, 0x095, [])) &&
    gives (.mrd 0 (head 0x400600000000 4)) hosted (fun t => answer t == some (9, 0x096, [])) &&
    gives (.mwr 0 (head (ctlBase + 0x408010) 4) (leBytes 4 0x1234)) hosted (fun t => t.zfp.check == 0x1234#32 && answer t == some (9, 0, [])) &&
    gives (.mwr 0 (head queueBase 64) (List.replicate 64 5#8)) hosted (fun t => Memory.readBytes t.hif.cmds 0 2 == [5#8, 5#8] && Memory.read t.hif.cmds 64 == 0#8) = true := by
  decide +kernel

/-- A transfer of `n` bytes under tag 9 waits for the host. -/
def asked (link n : Nat) (use : XferFor) : State :=
  { hosted with hif := { hosted.hif with xfers := [(9, ⟨link, 0x1000, n, none, 0, use⟩)], queues := [(0, { enable := true, depth := 4, live := [2] })]
                                         status := [(2, { st := .running })]
                                         copies := [(0, ⟨2, 0x1000, 0, 64, 0, false, 0, false, [], false, 0, 0⟩)] } }

theorem test_completions :
    gives (.hostCpl 0 (head 0 64) (List.replicate 64 5#8)) (asked 0 64 (.copy 0)) (fun t => t.plos.accesses.length == 1 && t.hif.xfers == []) &&
    gives (.hostCpl 0 { head 0 64 with code := 1#16 } []) (asked 0 64 (.copy 0)) (fun t => (t.status 0 2).st == .failed && (t.status 0 2).code == 0x0C5) &&
    gives (.hostCpl 0 (head 0 64) (List.replicate 64 5#8)) (asked 0 64 .start) (fun t => t.hif.xfers == []) &&
    gives (.hostLinkWaitTimeout 9#16) (asked 2 64 (.copy 0)) (fun t => (t.status 0 2).st == .failed && (t.status 0 2).code == 0x0C6) &&
    gives (.hostLinkWaitTimeout 9#16) (asked 0 64 (.copy 0)) (fun t => t.hif.xfers.length == 1) = true := by decide +kernel

theorem test_queue_registers :
    gives (.doorbell 0 15#12) hosted (fun t => (t.queue 0).tail == 15) && gives (.doorbell 0 16#12) hosted (fun t => (t.queue 0).tail == 1) &&
    gives (.hifQctlWrite 0 0xC0000005#32) hosted (fun t => (t.queue 0).depth == 5 && (t.queue 0).cls == 2 && (t.queue 0).head == 0 && (t.queue 0).tail == 1) &&
    gives (.hifQctlWrite 0 0x80000003#32) hosted (fun t => (t.queue 0).depth == 4) &&
    gives (.hifQctlWrite 1 0x80000004#32) hosted (fun t => (t.queue 1).enable && (t.queue 1).depth == 4) = true := by decide +kernel

/-- Slot 0 of queue 0 holds a command of 64 bytes. -/
def slotted (c : List (BitVec 8)) (cls : Nat) : State :=
  { hosted with hif := { hosted.hif with cmds := Memory.writeBytes [] 0 c, queues := [(0, { enable := true, cls := cls, depth := 4, tail := 1 })] } }

/-- A command with OP, SEQ 7 and ARG0. -/
def cmd (op arg0 : Nat) : List (BitVec 8) := leBytes 2 op ++ leBytes 2 7 ++ leBytes 4 0 ++ leBytes 8 arg0 ++ List.replicate 48 0#8

theorem witness_slots : (slotted (cmd 0 0) 1).canTake 0 = true ∧ (slotted (cmd 0 0) 1).rejectCode 0 (cmd 0 0) = 0 ∧
    (slotted (cmd 0 1) 1).rejectCode 0 (cmd 0 1) = 0x0C0 ∧ (slotted (cmd 2 0x700000003) 0).rejectCode 0 (cmd 2 0x700000003) = 0 := by decide +kernel

theorem test_slots :
    gives (.slotTake 0) (slotted (cmd 0 0) 1) (fun t => (t.status 0 0).st == .accepted && (t.status 0 0).seq == 7 && (t.queue 0).head == 1 && (t.queue 0).live == [0]) &&
    gives (.slotTake 0) (slotted (cmd 0 1) 1) (fun t => (t.status 0 0).st == .rejected && (t.status 0 0).code == 0x0C0 && (t.queue 0).live == []) &&
    gives (.abort 0) { slotted (cmd 2 0x700000003) 0 with hif := { (slotted (cmd 2 0x700000003) 0).hif with status := [(12288, { st := .accepted, seq := 7 })] } } (fun t =>
      (t.status 3 0).st == .aborted && (t.status 3 0).code == 0x0CB && (t.status 0 0).st == .done) &&
    gives (.abort 0) (slotted (cmd 2 0x700000003) 0) (fun t => (t.status 0 0).st == .failed && (t.status 0 0).code == 0x0C3) = true := by decide +kernel

/-- A command has been taken from slot 0 of queue 0 and has its turn. -/
def taken (c : List (BitVec 8)) (cls : Nat) : State :=
  { hosted with hif := { hosted.hif with own := [(0, c)], status := [(0, { st := .accepted })]
                                         queues := [(0, { enable := true, cls := cls, depth := 4, live := [0], head := 1, tail := 1 })] } }

theorem test_commands :
    gives (.queueNop 0) (taken (cmd 0 0) 1) (fun t => (t.status 0 0).st == .done && (t.queue 0).live == []) &&
    gives (.snapshot 0) (taken (cmd 4 0) 1) (fun t => (t.status 0 0).st == .done && t.nvm.snapAsked) &&
    gives (.copy 0) (taken (leBytes 8 3 ++ leBytes 8 0x1000 ++ leBytes 8 64 ++ leBytes 8 128 ++ List.replicate 32 0#8) 1) (fun t =>
      (t.copyOf 0).map (fun k => (k.host, k.stack, k.total, k.out)) == some (0x1000, 64, 128, false) && (t.status 0 0).st == .running) &&
    gives (.imageWrite 0 none (some [])) (taken (cmd 5 4) 1) (fun t => (t.status 0 0).code == 0x0C5) &&
    gives (.imageWrite 0 (some [1#8]) (some [])) (taken (cmd 5 4) 1) (fun t => (t.status 0 0).st == .running && t.nvm.imageNew.length == 1) = true := by decide +kernel

/-- A START of queue 0 has its turn. -/
def starting (mode : PanelMode) : State :=
  let s := taken (cmd 1 0) 1
  { s with panel := { s.panel with mode := mode }, hif := { s.hif with starts := [(0, 0)] } }

theorem witness_start : (starting .ready).startTurn = some (0, 0) ∧ (starting .ready).startBusy = false ∧ (starting .ready).anyLink = true := by decide

theorem test_start :
    gives (.start 0 none none false 0) (starting .ready) (fun t => (t.status 0 0).code == 0x0C5 && t.job.phase == .none_) &&
    gives (.startBegin none none false 0) (starting .short) (fun t => (t.status 0 0).code == 0x0C2) &&
    gives (.start 0 none none false 0) (starting .relay) (fun t => t == starting .relay) &&
    gives (.startBegin (some (List.replicate 4095 0#8)) none false 0) (starting .ready) (fun t => (t.status 0 0).code == 0x0CA) = true := by decide +kernel

/-- The job of queue 0 is in a phase. -/
def jobIn (ph : JobPhase) : State :=
  { hosted with
    panel := { hosted.panel with mode := .running, ldSite := [(0, 0)], role := [(0, .bound)] }
    job := { phase := ph, running := ph == .running, started := true, faultCode := 0x042, cause := .abort, hdr := { slack := 40 } }, cores := [(0, { runner with stat := { run := .idle, valid := true }, ctl := { stopped := true } })] }

theorem witness_jobs : (jobIn .running).allStopped = true ∧ (withCore runner).allStopped = false ∧ (jobIn .drain).servedSites ≠ [] := by decide

theorem test_job_end :
    gives .jobDrain (jobIn .running) (fun t => t.job.phase == .drain && !t.job.running && t.clock.now == 4096) &&
    gives .resultCopyDone (jobIn .drain) (fun t => t.job.phase == .sweep && t.job.endCode == some 0x042) &&
    gives (.fitTestComplete false 0) (jobIn .relay) (fun t => t.job.endCode == some 0x022) &&
    gives (.fitTestComplete true 41) (jobIn .relay) (fun t => t.job.endCode == some 0x022) &&
    gives .abortSweepDeadline { jobIn .sweep with
        panel := { (jobIn .sweep).panel with role := [(0, .bound), (70, .spare)], routerUp := [(70, true)] }, win := { State.reset.win with sweep := [(0, { st := 1, left := [5] })] } } (fun t => (t.dieSweep 0).st == 3 &&
      tget .off t.panel.die 0 == .fenced && t.roleOf 0 == .retired && t.panel.ldSite == [(0, 70)] && (t.cvu 0).lastSeq == 1 &&
      (tfind (t.cvu 0).ring 0).map (fun e => (e.node, e.rseq, e.bytes)) == some (panelNode, t.panel.mapGen.toNat, 0xFF8)) &&
    gives (.queueTakeover true) hosted (fun t => t.queueGw7 0 == hosted.queueGw7 0 && (t.queue 63).moved) = true := by decide +kernel

/-! ### Mailboxes, security and group services (R470 to R476, R488 to R493, R583 to R614) -/

/-- The panel is READY, its steward is active, and mailbox `m` is `b`. -/
def boxed (m : Nat) (b : MbxRec) : State :=
  { State.reset with panel := { mode := .ready, role := [(70, .spare)], routerUp := [(70, true)] }, stew := { active := some false }
                     hif := { State.reset.hif with mbx := [(m, b)] } }

/-- The request of a service stands before firmware, with these data words. -/
def request (m service : Nat) (ws : List Nat) : State :=
  boxed m { owner := 1, pending := true, service := service, data := putWordsFrom [] 0 ws }

/-- The code with which the command answers the request. -/
def answersWith (i : Instr) (s : State) (m code : Nat) : Bool :=
  gives i s fun t => (t.box m).done && !(t.box m).pending && (t.box m).rcode == code

theorem witness_mailboxes : mayUse 8 0x101 = true ∧ mayUse 7 0x101 = false ∧ mayUse 7 0x11 = true ∧ (request 8 1 []).asked 8 1 = true ∧
    (request 0 0x30 []).secAsked 0 0x30 = true ∧ served 8 9 = false ∧ served 8 3 = true ∧ served 0 3 = false ∧
    (request 0 0x37 []).secBusy 0 = false ∧ State.reset.anyLink = false := by decide

theorem test_mailbox :
    gives (.mbxLockRead 8 0x101) (boxed 8 {}) (fun t => (t.box 8).owner == 0x101) &&
    gives (.mbxLockRead 7 0x101) (boxed 7 {}) (fun t => t.box 7 == {}) &&
    gives (.mbxLockRead 8 2) (boxed 8 { owner := 1 }) (fun t => (t.box 8).owner == 1) &&
    gives (.mbxLockWrite 8 1 1) (boxed 8 { owner := 1, data := [(0, 5#32)] }) (fun t => (t.box 8).owner == 0 && (t.box 8).data == []) &&
    gives (.mbxLockWrite 8 2 2) (boxed 8 { owner := 1 }) (fun t => (t.box 8).owner == 1) &&
    gives (.mbxDbWrite 8 1 9) (boxed 8 { owner := 1 }) (fun t => (t.box 8).done && (t.box 8).rcode == 0x0CC) &&
    gives (.mbxDbWrite 8 1 3) (boxed 8 { owner := 1 }) (fun t => (t.box 8).pending && (t.box 8).service == 3) &&
    gives (.mbxDbWrite 8 0x101 9) (boxed 8 { owner := 0x101, receiver := 2 }) (fun t => (t.box 8).pending && (t.evq.travelling.map (·.code)) == [0x0801]) &&
    gives (.mbxAckWrite 8 2 5#16) (boxed 8 { owner := 1, receiver := 2, pending := true }) (fun t => (t.box 8).done && (t.box 8).rcode == 5) &&
    gives (.mbxDataWrite 8 1 3 7#32) (boxed 8 { owner := 1 }) (fun t => (t.box 8).word 3 == 7) &&
    gives (.mbxDataWrite 8 1 3 7#32) (boxed 8 { owner := 1, pending := true }) (fun t => (t.box 8).word 3 == 0) &&
    gives (.mbxForced 1) (boxed 8 { owner := 1, pending := true }) (fun t => (t.box 8).owner == 0 && !(t.box 8).pending) = true := by decide +kernel

theorem test_services :
    answersWith (.echo 8) (request 8 1 []) 8 0 && answersWith (.overrun 8) (request 8 3 [0x300]) 8 0 &&
    gives (.overrun 8) (request 8 3 [0x300]) (fun t => t.clock.stretch && t.clock.stretchLen == 768) &&
    gives (.overrun 8) (request 8 3 [1]) (fun t => !t.clock.stretch) &&
    gives (.version 8) { request 8 2 [] with sec := { inForce := [(1, (0, ⟨1, 0, 0, 0, 0, leBytes 16 0x41, 0, []⟩))] } } (fun t => (t.box 8).word 0 == 0x41) &&
    gives (.selftest 8 []) (request 8 0x20 [0]) (fun t => (t.box 8).rcode == 0 && (t.stack 3).sweeping) &&
    answersWith (.dietest 8) (request 8 0x21 [71]) 8 0x0CD &&
    gives (.dietest 8) (request 8 0x21 [70]) (fun t => t.panel.mode == .test && !t.routerUp 70 && t.boot.test == some ⟨8, 70, false, .spare⟩) &&
    answersWith (.dieTestEnd [] false) { request 8 0x21 [70] with boot := { test := some ⟨8, 70, false, .spare⟩ } } 8 0x4111 = true := by decide +kernel

/-- A group of two devices: rank 0 is device 4, rank 1 is device 7. -/
def descriptor : List (BitVec 8) :=
  leBytes 4 0x5047564B ++ leBytes 2 1 ++ leBytes 2 2 ++ leBytes 4 6 ++ leBytes 4 3 ++ leBytes 2 100 ++ [3#8, 0#8] ++ leBytes 4 50 ++
  List.replicate 40 0#8 ++ leBytes 2 4 ++ leBytes 2 0xFFFF ++ leBytes 4 8 ++ leBytes 2 7 ++ leBytes 2 0xFFFF ++ leBytes 4 9

/-- GROUP_SET for rank 1 of device 7 stands before firmware. -/
def grouping : State := { request 0 0x10 [0, 0, 1] with zfp := { State.reset.zfp with devNum := 7 } }

theorem witness_group : groupBad descriptor 1 7 = false ∧ groupBad descriptor 1 4 = true ∧ grouping.asked 0 0x10 = true := by decide

theorem test_group_services :
    answersWith (.groupSet 0 none) grouping 0 0x0C5 && answersWith (.groupSet 0 (some [])) grouping 0 0x0E2 &&
    gives (.groupSet 0 (some descriptor)) grouping (fun t => t.cons.mode == .member && t.cons.group == 6 && t.cons.view == 3 && t.cons.rank == 1 &&
      t.cons.inc == 9 && (t.member 0).dev == 4 && (t.member 1).live && !t.cons.spare) &&
    answersWith (.groupLeave 0) (request 0 0x11 []) 0 0 = true := by decide +kernel

/-- The header of a die steward image of 64 bytes of version 0. -/
def fwHeader (type : Nat) : List (BitVec 8) :=
  leBytes 4 0x5746564B ++ leBytes 2 1 ++ leBytes 1 type ++ List.replicate 5 0#8 ++ leBytes 4 64 ++ List.replicate 112 0#8

theorem witness_images : let c : Sec := {}
    c.imageCode false (some 16416) (some (fwHeader 2)) true true true = 0 ∧ c.imageCode false (some 16416) (some (fwHeader 6)) true true true = 0x122 ∧
    c.imageCode true none (some (fwHeader 6)) true true true = 0 ∧ c.imageCode false (some 16416) (some (fwHeader 2)) true true false = 0x120 ∧
    c.imageCode false (some 16416) (some (fwHeader 2)) false true true = 0x0C5 ∧ c.freeSlot 2 = 0 := by decide +kernel

/-- `s` with an owner's key in fuse bank A. -/
def owned (s : State) : State := { s with sec := { s.sec with bankA := { s.sec.bankA with owner := some [] } } }

theorem test_security :
    answersWith (.ident 0) { request 0 0x30 [] with sec := { debug := true } } 0 0x125 &&
    answersWith (.attest 0) { request 0 0x31 [] with sec := { scan := true } } 0 0x125 &&
    gives (.fwUpdate 0 (some (fwHeader 2)) true [] true true) (request 0 0x32 [0, 0, 16416]) (fun t => (t.box 0).rcode == 0 && tmem t.sec.images 4 && tmem t.sec.images 20) &&
    answersWith (.fwUpdate 0 (some (fwHeader 2)) true [] true true) (request 0 0x32 [0, 0, 16417]) 0 0x122 &&
    answersWith (.fwUpdate 0 none true [] true true) (request 0 0x32 [0, 0, 16416]) 0 0x0C5 &&
    answersWith (.extLoad 0 (some (fwHeader 6)) true [] true true) (request 0 0x33 [0, 0, 2]) 0 0x126 &&
    gives (.extLoad 0 (some (fwHeader 6)) true [] true true) (owned (request 0 0x33 [0, 0, 2])) (fun t => (t.box 0).rcode == 0 && tmem t.sec.exts 2) &&
    answersWith (.extUnload 0) (request 0 0x34 [1]) 0 0 &&
    answersWith (.ownerEnroll 0) (owned (request 0 0x35 [])) 0 0x124 &&
    gives (.ownerEnroll 0) (request 0 0x35 [1, 2]) (fun t => t.sec.ownerSet && t.sec.bankB.owner == some (leBytes 4 1 ++ leBytes 4 2 ++ List.replicate 40 0#8)) &&
    gives (.debugChallenge 0) (request 0 0x36 []) (fun t => t.sec.challenge.isSome && (t.box 0).rcode == 0) &&
    answersWith (.debugUnlock 0 none true true) (request 0 0x37 []) 0 0x124 &&
    answersWith (.debugUnlock 0 none true true) { request 0 0x37 [] with sec := { challenge := some [] } } 0 0x0C5 &&
    gives (.extFault 2) { request 0 0 [] with sec := { exts := [(2, ⟨6, 0, 0, 0, 0, [], 0, []⟩)] } } (fun t => t.sec.exts == [] && t.sec.extFault == 4#4) = true := by
  decide +kernel

/-- The token of a debug unlock for scan, as the device's number and challenge make it. -/
def token : List (BitVec 8) := leBytes 4 0x4754564B ++ deviceId ++ challengeBytes 0 ++ [2#8] ++ List.replicate 91 0#8

theorem witness_token : Sec.tokenCode {} (challengeBytes 0) (some token) true true = 0 ∧ Sec.tokenCode {} (challengeBytes 0) (some token) true false = 0x120 := by
  constructor <;> simp [Sec.tokenCode, token, deviceId, challengeBytes, leBytes, List.range, List.range.loop, leField, leNat, zeroes, Sec.revoked]

/-! ### The step group and the stewards (R478 to R510) -/

/-- A STATE packet of a sub-kind from device 5 (rank 0) has arrived: device 7 is rank 1 of a group of three. -/
def told (sub : Nat) (d : List (BitVec 8)) : State :=
  let s := arrived { packet 4 (7 * 2 ^ 48) with data := [], arg := sub, inl := d }
  { s with
    cons := { s.cons with
      mode := .member, rank := 1, group := 6, view := 3, inc := 9, beaconUs := 100, silence := 3, deadline := 1
      members := [(0, { live := true, dev := 5, inc := 0 }), (1, { live := true, dev := 7, inc := 9 }), (2, { live := true, dev := 8, inc := 2 })] }
    stew := { active := some false } }

/-- The inline data of a STATE packet of group 6 from a rank (R496). -/
def stateData (view rank cause inc step : Nat) (ranks : List Nat) : List (BitVec 8) :=
  leBytes 4 6 ++ leBytes 4 view ++ leBytes 2 rank ++ leBytes 2 cause ++ leBytes 4 inc ++ leBytes 8 step ++
  ((ranks ++ [0xFFFF, 0xFFFF, 0xFFFF, 0xFFFF]).take 4).flatMap (leBytes 2)

/-- A change to view 4 has been proposed here. -/
def proposing (acks : List Nat) (sub : Nat) (d : List (BitVec 8)) : State :=
  let s := told sub d
  { s with cons := { s.cons with mode := .changing, proposal := some ⟨4, 1, [2], 0, none, acks, 0⟩ } }

theorem witness_state : let s := told 1 (stateData 3 0 1 0 0 [2])
    ((s.takeState 0 1).2.map fun p => (s.senderRank p, statePacketRanks p)) = some (some 0, [2]) ∧ s.cons.actors = [0, 1, 2] ∧ s.cons.monitors = [2, 0] ∧
    s.cons.stillDue ⟨1, [2], none⟩ = true ∧ s.cons.coord = some 0 ∧ s.fromActor { packet 4 0 with inl := stateData 4 0 1 0 0 [2] } = true := by
  decide +kernel

theorem test_view_changes :
    gives (.suspect 0) (told 1 (stateData 3 0 1 0 0 [2])) (fun t => t.cons.mode == .changing &&
      t.cons.proposal.map (fun p => (p.view, p.cause, p.ranks, p.acks)) == some (4, 1, [2], [1]) && t.cons.view == 3) &&
    gives (.leave 0) (told 7 (stateData 3 0 4 0 0 [0])) (fun t => t.cons.proposal.map (fun p => (p.cause, p.ranks)) == some (4, [0])) &&
    gives (.rewind 0) (told 8 (stateData 3 0 2 0 5 [])) (fun t => t.cons.proposal.map (fun p => (p.cause, p.ranks)) == some (2, [0])) &&
    gives (.join 0) (told 6 (stateData 3 0 5 0 0 [])) (fun t => t.cons.mode == .member) &&
    gives (.propose 0) (told 2 (stateData 4 0 1 0 5 [2])) (fun t => t.cons.mode == .changing && t.cons.view == 3) &&
    gives (.ack 0) (proposing [1] 3 (stateData 3 0 1 0 0 [2])) (fun t => t.cons.view == 4 && t.cons.lastCause == 1 && t.cons.proposal.isNone && !(t.member 2).live) &&
    gives (.ack 0) (proposing [1] 3 (stateData 2 0 1 0 0 [2])) (fun t => t.cons.view == 3 && t.cons.mode == .changing) &&
    gives (.commit 0) (told 4 (stateData 4 0 1 0 5 [2])) (fun t => t.cons.view == 4 && t.cons.resume == 5 && !(t.member 2).live && (t.member 2).inc == 3) &&
    gives (.fenced 0) (told 5 (stateData 3 0 1 9 0 [1])) (fun t => t.cons.mode == .fenced && (t.evq.travelling.map (·.code)) == [0x0902]) &&
    gives (.fenced 0) (told 5 (stateData 3 0 1 8 0 [1])) (fun t => t.cons.mode == .member) &&
    gives (.gstep 0) (told 9 (stateData 3 0 0 0 5 [])) (fun t => t.cons.groupStep == 5) = true := by decide +kernel

/-- A beacon of rank 0 that tells of steps 5 and 4. -/
def beaconPacket : Packet :=
  { packet 3 (7 * 2 ^ 48) with
    data := [], arg := 6, inl := leBytes 4 3 ++ leBytes 2 0 ++ [1#8, 0#8] ++ leBytes 8 5 ++ leBytes 8 4 ++ leBytes 8 0 }

/-- The beacon has arrived. -/
def heard : State :=
  let s := told 0 []
  { s with zfp := { s.zfp with rx := [(0, ⟨1, beaconPacket, 4⟩)] } }

theorem test_beacons :
    gives (.beacon 0) heard (fun t => (t.member 0).closed == 5 && (t.member 0).committed == 4 && (t.member 0).seen == 4) &&
    gives .beaconPeriod (told 0 []) (fun t => t.cons.view == 3 && t.cons.lastClosed == 0) &&
    gives (.beaconSilence 0) (told 0 []) (fun t => t.cons.suspected == [0]) && gives (.beaconSilence 3) (told 0 []) (fun t => t.cons.suspected == []) = true := by
  decide +kernel

/-- Device 7 and rank 0, device 5, are a pair. -/
def paired (sub : Nat) (d : List (BitVec 8)) : State :=
  let s := told sub d
  { s with cons := { s.cons with pair := true, members := tput s.cons.members 1 { live := true, dev := 7, inc := 9, partner := some 0 } }
           zfp := { s.zfp with pairOn := true, portA := 1, portB := 5, partner := 5, pairUp := true } }

theorem witness_pair : (paired 10 []).partnerDev = some 5 := by decide

theorem test_pair :
    gives (.stepLog 0) (paired 10 (stateData 3 0 0 0 5 [])) (fun t => t.cons.logged == 5) &&
    gives (.apply 0) (paired 11 (stateData 3 0 0 0 5 [])) (fun t => t.cons.partnerApplied == 5) = true := by decide +kernel

theorem test_watchdogs :
    gives (.stewardWdt 0x33) (told 0 []) (fun t => (t.wdt 0x33).restarting && (t.evq.travelling.map (·.code)) == [0x0901]) &&
    gives (.stewardWdt 0x33) { told 0 [] with stew := { wdt := [(0x33, { restarting := true })] } } (fun t => (t.wdt 0x33).out && (t.stack 3).mode == .lost) &&
    gives (.stewardRestartDone 0x33 []) { told 0 [] with stew := { wdt := [(0x33, { restarting := true })] } } (fun t => !(t.wdt 0x33).restarting && (t.wdt 0x33).backAt == some 4) &&
    gives (.stewardRestartDone 0x11 []) { told 0 [] with stew := { wdt := [(0x11, { restarting := true })] } } (fun t => t.stew.active == some true) &&
    gives .panelStewardSilence { told 0 [] with stew := {} } (fun t => t.cons.silentOff) &&
    gives (.gatewayRouterFail 0 true 0) (told 0 []) (fun t => !t.routerUp 13 && (t.port 1).mode == .down && (t.chan 2).mode == .out && (t.wdt 0x20).out) = true := by
  decide +kernel

theorem test_time_limits :
    gives .suspectRetry (let s := told 0 []; { s with cons := { s.cons with suspected := [2] } }) (fun t => t.cons.suspects == 1 && t.clock.now > 1000) &&
    gives .suspectTimeout (let s := told 0 []; { s with cons := { s.cons with suspected := [2] } }) (fun t => t.cons.mode == .fenced) &&
    gives .proposeTimeout (proposing [1] 0 []) (fun t => t.cons.mode == .fenced) &&
    gives (.stragglerCheck 2) (let s := told 0 []; { s with clock := { s.clock with tick := 9#64 }, cons := { s.cons with rank := 0, straggle := 4 } }) (fun t =>
      (t.member 2).straggler && (t.member 2).noted == 1 && t.cons.stragglers == 1 && (t.evq.travelling.map (·.code)) == [0x0905]) &&
    gives (.c0RequestTimeout 0) { told 0 [] with stew := { c0 := [(0, ⟨packet 5 0, 0⟩)], nextC0 := 1 } } (fun t =>
      (tfind t.stew.c0 0).map (·.at_) == some t.clock.now && t.clock.now > 1000) = true := by decide +kernel

/-! ### Power (R511 to R532, R639 to R650) -/

/-- The panel is READY with its input at 60 V; site 0 carries logical die 0. -/
def powered : State :=
  { State.reset with
    panel := { mode := .ready, ldSite := [(0, 0)], role := [(0, .bound)], die := [(0, .ready), (1, .ready)], routerUp := [(0, true), (1, true), (13, true), (130, true)] }
    stew := { active := some false }
    pwr := { State.reset.pwr with vin := 6000, level := .normal, ergs := [(0, { mode := .up, ctrlOk := 0xF#4 }), (1, { mode := .up, ctrlOk := 0xF#4 })] }
    clk := { die := [(0, { st := .primary, pri := 1, sec := 2, link := 0xF#4 }), (1, { st := .primary, pri := 2, sec := 3, link := 0xF#4 })], aOk := true, bOk := true } }

/-- A job runs on the machine, stopped at no boundary. -/
def powerJob (s : State) : State := { s with job := { s.job with phase := .running, running := true, started := true } }

/-- The codes of the events that travel. -/
def codes (t : State) : List Nat := t.evq.travelling.map (·.code)

theorem test_input :
    exec (.inputVoltageEvent 7501#16) powered = .fault .absoluteMaximum ∧
    (gives (.inputVoltageEvent 7500#16) powered (fun t => t.pwr.stopped && t.panel.mode == .starting && t.pwr.vin == 7500) &&
    gives (.inputVoltageEvent 6800#16) powered (fun t => t.pwr.excursion && codes t == [0x0A01] && t.panel.mode == .ready) &&
    gives (.inputVoltageEvent 6400#16) powered (fun t => !t.pwr.excursion && t.pwr.level == .normal) &&
    gives (.inputVoltageEvent 5400#16) powered (fun t => t.pwr.level == .normal) &&
    gives (.inputVoltageEvent 5399#16) powered (fun t => t.pwr.level == .beyond) &&
    gives (.inputVoltageEvent 4999#16) (powerJob powered) (fun t => t.pwr.stopping && t.job.endCode == some 0x0F2) &&
    gives .stage1Stop { powered with pwr := { powered.pwr with stopping := true } } (fun t => t.pwr.stopped && t.panel.ldSite == [] && t.pwr.vin == 6000) &&
    gives .inputRecovery { powered with pwr := { powered.pwr with excursion := true } } (fun t => !t.pwr.excursion)) = true := by
  refine ⟨rfl, by decide +kernel⟩

theorem test_cap :
    gives (.powerSample 15001#16 0#16 9#16 7#16 3) powered (fun t => t.pwr.capStep == 1 && codes t == [0x0A02] && t.pwr.avg10ms == 9 && t.pwr.energy == 3) &&
    gives (.powerSample 15000#16 16500#16 0#16 7#16 3) powered (fun t => t.pwr.capStep == 0 && codes t == []) &&
    gives (.powerSample 15000#16 16501#16 0#16 7#16 3) powered (fun t => t.pwr.capStep == 1) &&
    gives (.powerSample 13499#16 0#16 0#16 7#16 3) { powered with pwr := { powered.pwr with capStep := 2, capLow := 99999 } } (fun t => t.pwr.capStep == 1 && t.pwr.capLow == 0) &&
    gives (.powerSample 13500#16 0#16 0#16 7#16 3) { powered with pwr := { powered.pwr with capStep := 2, capLow := 99999 } } (fun t => t.pwr.capStep == 2 && t.pwr.capLow == 0) = true := by
  decide +kernel

theorem test_droop :
    gives (.droopTrip 3 5) powered (fun t => (t.ergPwr 1).trips == 1 && codes t == [0x0A03]) &&
    gives (.droopTrip 0 5) { powerJob powered with pwr := { powered.pwr with ergs := [(0, { trips := 0xFF })] } } (fun t => (t.ergPwr 0).droopOvf && t.job.endCode == some ST_CORE_HW) = true := by
  decide +kernel

theorem test_controllers :
    gives (.controllerFail 1 2) powered (fun t => (t.ergPwr 1).mode == .derated && (t.ergPwr 1).limit == 1080 && t.pwr.floor == 1 && codes t == [0x0A06] && t.pwr.migrate == [1]) &&
    gives (.controllerFail 1 2) { powered with pwr := { powered.pwr with ergs := [(1, { mode := .derated, ctrlOk := 0xD#4 })] } } (fun t => (t.ergPwr 1).mode == .dark &&
      t.pwr.dark.contains 1 && (codes t).contains 0x0A07) &&
    gives (.controllerFail 1 2) { powered with pwr := { powered.pwr with ergs := [(1, { mode := .up, ctrlOk := 0xB#4 })] } } (fun t => (t.ergPwr 1).mode == .up) &&
    gives (.ergShort 1) powered (fun t => (t.ergPwr 1).mode == .shorted && t.pwr.shorted.contains 1 && (codes t).contains 0x0A08) &&
    gives .deratedMigration { powered with pwr := { powered.pwr with migrate := [1], floor := 1 } } (fun t => t.pwr.migrate == [] && t.pwr.floor ≤ 1) = true := by
  decide +kernel

/-- Sensor 5 of site 0 has drooped beyond its bound in 15 windows, and the site has had two anomalies. -/
def drooping : State :=
  let s := powerJob powered
  { s with pwr := { s.pwr with ergs := [(0, { mode := .up, ctrlOk := 0xF#4, runs := [(5, 15)] })], anoms := [(0, 2)] } }

theorem test_forecast_windows :
    gives (.forecastWindow 0 313 700 1 2 []) drooping (fun t => (t.ergPwr 0).unhinted == 1 && (t.ergPwr 0).noted && codes t == [0x0A04] && (t.ergPwr 0).iout == 313 &&
      (t.ergPwr 0).limit == 1440) &&
    gives (.forecastWindow 0 312 700 1 2 []) drooping (fun t => (t.ergPwr 0).unhinted == 0 && (t.ergPwr 0).vmin == 700) &&
    gives (.forecastWindow 0 313 700 1 2 [⟨0, 5, 20001, 10000⟩]) drooping (fun t => (t.ergPwr 0).anomalies == 1 && t.pwr.replace == [0] && (t.ergPwr 0).lastSensor == 5) &&
    gives (.forecastWindow 0 313 700 1 2 [⟨0, 5, 12500, 10000⟩]) drooping (fun t => (t.ergPwr 0).anomalies == 0 && (t.ergPwr 0).runs == []) = true := by decide +kernel

/-! ### Clocks, frequency steps and heat (R533 to R558) -/

/-- A plan in which site 0 takes its clock from site 1, and that from the gateway at 13. -/
def plan : List (Nat × Nat × Option Nat) := [(0, 1, none), (1, 2, none)]

theorem witness_plan : powered.planFits plan = true ∧ neighbour 0 1 = some 1 ∧ neighbour 1 2 = some 13 ∧
    powered.planFits [(0, 1, some 1), (1, 2, none)] = false ∧ powered.planFits [(13, 1, none)] = false ∧ State.reset.planFits plan = false := by decide +kernel

theorem test_clocks :
    gives (.refclkLoss false) powered (fun t => t.clk.sel == .refB && !t.clk.aOk && codes t == [0x0B01]) &&
    gives (.refclkLoss true) powered (fun t => t.clk.sel == .refA && !t.clk.bOk && codes t == []) &&
    gives (.refclkLoss true) { powered with clk := { bOk := true, sel := .refB } } (fun t => t.clk.sel == .holdover) &&
    gives (.refclkReturn false) { powered with clk := { bOk := true, sel := .refB } } (fun t => t.clk.sel == .refA) &&
    gives (.refclkReturn true) { powered with clk := { sel := .holdover } } (fun t => t.clk.sel == .refB) &&
    gives (.pllLockLoss 0) powered (fun t => t.clk.pllOut == [0] && (t.dieClk 1).link == 0xB#4 && (t.dieClk 1).st == .secondary && codes t == [0x0B02]) &&
    gives (.pllRelock 0) { powered with clk := { pllOut := [0] } } (fun t => t.clk.pllOut == [] && (t.dieClk 1).link == 4#4) &&
    gives (.primaryClockLoss 1 true 8#4) powered (fun t => (t.dieClk 1).st == .secondary && (t.dieClk 1).link == 8#4 && t.clk.relayDue) &&
    gives (.primaryClockLoss 1 false 8#4) powered (fun t => (t.dieClk 1).st == .lost) &&
    gives (.clockPlanRelay plan) { powered with clk := { powered.clk with relayDue := true } } (fun t => (t.dieClk 0).pri == 1 && (t.dieClk 0).sec == 1 && !t.clk.relayDue && codes t == [0x0B02]) &&
    gives (.clockReturn 5 3#4) { powered with panel := { powered.panel with role := [(5, .retired)] } } (fun t => t.clk.rejoin == [5] && (t.dieClk 5).link == 3#4) = true := by
  decide +kernel

theorem test_steps_of_frequency :
    gives (.stepRequest 0x50000#32) powered (fun t => t.clk.req == 5) && gives (.stepRequest 0x60000#32) powered (fun t => t.clk.req == 0) &&
    gives .stepChangeRequest { powered with clk := { req := 2 } } (fun t => t.clk.next == 2 && t.clk.pending && t.clk.step == 0 && t.clk.atTick != 0#64) &&
    gives .stepChangeRequest { powered with clk := { req := 3, next := 2, pending := true, atTick := 0#64 } } (fun t => t.clk.next == 2 && t.clk.drop.isSome) &&
    gives .stepChangeRequest { powered with clk := { req := 3, next := 2, pending := true, atTick := 999#64 } } (fun t => t.clk.next == 3 && t.clk.drop.isNone) &&
    gives .stepChange { powered with clk := { next := 2, pending := true, atTick := 1#64 } } (fun t => t.clk.step == 0) &&
    gives .stepChange { powered with clk := { next := 2, pending := true, atTick := 0#64 } } (fun t => t.clk.step == 2 && !t.clk.pending && codes t == [0x0B03]) &&
    gives .stepChange { powered with clk := { next := 2, pending := true, atTick := 0#64, drop := some (4, 7) } } (fun t => t.clk.step == 2 && t.clk.next == 4 && t.clk.pending) &&
    gives .stepChange { powered with clk := { next := 2, pending := true, atTick := 0#64 }, clock := { now := 1 } } (fun t => t.clk.step == 0) = true := by
  decide +kernel

/-- A unit's forecast: 5 ms ahead, and at the next faster step. -/
def forecast (unit fc faster : Nat) : Junction := ⟨unit, 60, 2, fc, faster, 0, 0, 0⟩

theorem test_junctions :
    gives (.thermalForecast [forecast 0 105 0]) powered (fun t => t.clk.thmLimit == 1 && codes t == [0x0B04, 0x0B05] && (t.dieClk 0).fc == 105) &&
    gives (.thermalForecast [forecast 0 104 99]) { powered with clk := { thmLimit := 2, cool100 := 99 } } (fun t => t.clk.thmLimit == 1 && t.clk.cool100 == 0) &&
    gives (.thermalForecast [forecast 144 95 0]) powered (fun t => t.clk.thmLimit == 1) &&
    gives (.thermalForecast [forecast 0 105 0]) { powered with clk := { powered.clk with thmLimit := 5 } } (fun t => t.clk.parked == [0] && (t.ergPwr 0).mode == .off && t.clk.thmLimit == 5) &&
    gives (.thermalForecast [{ forecast 0 90 0 with west := 105 }]) { powered with panel := { powered.panel with mode := .test } } (fun t => (t.dieClk 0).stretchW == 1 && (t.dieClk 0).stretchE == 0) = true := by
  decide +kernel

/-- Erg 0 is parked, with sites that served before, and has been cool for that many forecasts. -/
def coolOff (n : Nat) : State :=
  { powered with
    clk := { parked := [0], ergs := [(0, { cool := n })] }
    panel := { powered.panel with before := (ergSites 0).map fun x => (x, .spare) }
    pwr := { powered.pwr with ergs := [(0, { mode := .off, ctrlOk := 0xF#4 })] } }

theorem test_trips :
    gives (.thermalTrip 0 114#8) powered (fun t => !t.mc.tripLow) &&
    gives (.thermalTrip 0 115#8) powered (fun t => t.mc.tripLow && t.clk.tripped == [0] && (codes t).contains 0x0B06) &&
    gives (.thermalTrip 147 105#8) powered (fun t => t.mc.tripLow && (t.stack 3).mode == .lost) &&
    gives (.ergUnpark 0) (coolOff 1000) (fun t => t.clk.parked == [] && (t.ergPwr 0).mode == .up && t.routerUp 2 && t.panel.returning == [0] &&
      (t.dieSweep 2).left.length == 104 && (t.dieSweep 2).cause == .back) &&
    gives (.ergUnpark 0) (coolOff 999) (fun t => t.clk.parked == [0]) = true := by decide +kernel

theorem test_rotation :
    gives .rotationInterval { powered with panel := { powered.panel with rest := [(1, 5)] }
                                           cores := [(pcoreAt 0 0 12, { stat := { run := .resting, valid := true } })] } (fun t =>
      (tfind t.panel.moves 0).map (fun m => (m.src, m.rest)) == some (11, 12) && (t.core (pcoreAt 0 0 12)).stat.run == .selfcheck &&
      (tfind t.panel.moves 1).map (fun m => (m.src, m.rest)) == some (6, 5)) = true := by
  decide +kernel

theorem test_water :
    gives (.waterSample (some 101#8) (some 101#8)) powered (fun t => t.clk.cooling == .lost && codes t == [0x0B09]) &&
    gives (.waterSample (some 100#8) (some 101#8)) powered (fun t => t.clk.cooling == .degraded) &&
    gives (.waterSample (some 80#8) none) powered (fun t => t.clk.cooling == .lost) &&
    gives (.waterSample (some 80#8) (some 82#8)) powered (fun t => t.clk.cooling == .ok && codes t == []) &&
    gives (.waterSample (some 80#8) (some 82#8)) { powered with clk := { cooling := .degraded, worseGone := 999 } } (fun t => t.clk.cooling == .ok) &&
    gives (.waterSample (some 80#8) (some 82#8)) { powered with clk := { cooling := .lost, lostGone := 998 } } (fun t => t.clk.cooling == .lost) = true := by decide +kernel

/-! ### Bring-up and broadcast (R559 to R593) -/

/-- A start at which everything that the facts can name passes, on GW0's side; the part left manufacture with a panel steward image. -/
def facts : StartFacts :=
  { rootA := true, rootB := false, firmware := [(2, ⟨1, 0, 0, 0, 0, [], 0, []⟩)], spoiled := [], spares := [], badMapA := false, badMapB := false
    badAreaA := false, badAreaB := false, stage1Out := [], ctrls := [], silent := [], silentStacks := [], fullTrain := true, media := [], jisto := []
    bist := [], d2dRetry := [], d2dFail := [], refA := true, refB := true, plan := [], unreached := [], straps := 2#2, time := 3 }

/-- The input is good and nothing has started. -/
def cold : State := { State.reset with pwr := { State.reset.pwr with level := .normal } }

theorem witness_cold : cold.panel.mode = .starting ∧ ((cold.firmware facts).sec.levelBanks.choose facts.spoiled 1).isSome = true ∧
    cold.startRecord facts = none ∧ (factoryRecord [1, 2, 3, 4, 5, 6, 7, 8]).ldSite.length = 128 ∧
    (cold.startRecord { facts with spares := [0, 1, 2, 3, 4, 5, 6, 7] }).isSome = true := by decide +kernel

theorem test_cold_start :
    gives (.coldStart facts) State.reset (fun t => t.boot.boot == []) &&
    gives (.coldStart { facts with rootA := false }) cold (fun t => t.panel.mode == .starting && tget {} t.boot.boot 7 == { step := 4, full := true, code := 0x110, ms := 3 } &&
      t.evq.buffer.map (·.code) == [0x0C01] && t.mc.straps == 2) &&
    gives (.coldStart facts) cold (fun t => (tget {} t.boot.boot 0).step == 10 && (tget {} t.boot.boot 7).code == 0x110 && t.stew.active == some false && (codes t).contains 0x0102) = true := by
  decide +kernel

/-- A record that the flash holds: no die is bound and none in service. -/
def emptyRecord : MapRecord := { gen := 5#32, commitTick := 0#64, ldSite := [], role := [], rowFault := [], spares := [] }

theorem test_confirm :
    gives (.coldStart { facts with stage1Out := (List.range 15).map (· + 1) }) { cold with panel := { copyA := some emptyRecord } } (fun t =>
      t.panel.confirmed && t.panel.mapGen == 6#32 && (tget {} t.boot.boot 0).step == 0xF) = true := by decide +kernel

theorem test_settings :
    gives (.settingsWrite [(0x5001, 0xFF, leBytes 12 900), (0x6000, 0xFF, leBytes 12 1), (0x5002, 0xFF, [1#8])]) { State.reset with nvm := { State.reset.nvm with chans := [(3, {})] } } (fun t =>
      t.boot.sgen == 1 && t.boot.settings.length == 1 && (t.chan 3).endurance == 900 && (tget [] t.nvm.sys 1).length == 1) &&
    gives (.settingsWrite [(0x5001, 0xFF, leBytes 12 900)]) { cold with panel := { routerUp := [(13, true), (130, true)] } } (fun t =>
      ({ t with boot := {} }.settingsStart.boot.settings == t.boot.settings) && { t with boot := {} }.settingsStart.boot.sgen == 1) &&
    gives (.settingsWrite []) { State.reset with boot := { sgen := 0xFFFFFFFF } } (fun t => t.boot.sgen == 1) = true := by decide +kernel

theorem test_retrains :
    gives (.retrainDone 1 true false 0x0F#8 5#16) (ported { mode := .training, live := true, enable := true }) (fun t => (t.port 1).mode == .upHalf && !(t.port 1).live) &&
    gives (.retrainDone 1 false false 0#8 5#16) (ported { mode := .training, live := true, enable := true }) (fun t => (t.port 1).mode == .failed && (codes t).contains 0x0C02) &&
    gives (.retrainDone 1 true false 0#8 5#16) (ported { mode := .up }) (fun t => (t.port 1).mode == .up) &&
    gives (.retrainDone 66 false true 0#8 0#16) (let s := ported {}; { s with nvm := { s.nvm with chans := [(2, { mode := .training })] } }) (fun t => (t.chan 2).mode == .up) &&
    gives (.retrainDone 66 false false 0#8 0#16) (let s := ported {}; { s with nvm := { s.nvm with chans := [(2, { mode := .training })] } }) (fun t =>
      (t.chan 2).mode == .failed && (codes t).contains 0x0C02) = true := by decide +kernel

theorem test_d2d :
    gives (.d2dRetrain 0 1 true 7#16) powered (fun t => tget {} t.boot.qual 1 == { st := .pass, retrains := 1, errors := 7 } && (tget {} t.boot.qual 7).retrains == 1) &&
    gives (.d2dRetrain 0 0 true 7#16) powered (fun t => t.boot.qual == []) &&
    gives (.d2dRetrain 0 1 false 7#16) { powered with panel := { powered.panel with role := [(0, .bound), (1, .spare)] } } (fun t => (codes t).contains 0x0C02 && t.roleOf (powered.linkVictim 0 1) == .retired) = true := by decide +kernel

/-- Die 1 is in compute reset since cycle 0. -/
def resetting : State := { powered with panel := { powered.panel with die := [(1, .computeReset)], resetAt := [(1, 0)], role := [(1, .spare)] } }

/-- A program waits for die 1, with a half-die of die 0 stretched or not. -/
def waitsFor (k : Nat) : State :=
  { resetting with job := { phase := .waitDie }, clk := { resetting.clk with die := [(0, { stretchW := k })] } }

theorem witness_wait : (waitsFor 0).stretchBars = false ∧ (waitsFor 1).stretchBars = true ∧ (waitsFor 1).job.started = false ∧
    (powered.cvu 0).busy = none ∧ (powered.cvu 0).queue = [] ∧ powered.zfp.sends = [] ∧ powered.zfp.committing = false ∧ powered.gwServes 0 = true := by
  decide +kernel

theorem test_wait :
    gives (.computeResetDone 1 true true) (waitsFor 0) (fun t => t.job.phase == .ready) &&
    gives (.computeResetDone 1 true true) (waitsFor 1) (fun t => t.job.phase == .none_) = true := by decide +kernel

theorem test_compute_reset :
    gives (.computeResetDone 1 true true) resetting (fun t => tget .off t.panel.die 1 == .ready && t.panel.resetAt == []) &&
    gives (.computeResetDone 1 true false) resetting (fun t => tget .off t.panel.die 1 == .computeReset) &&
    gives (.computeResetTimeout 1) resetting (fun t => t.clock.now > 1000 && t.roleOf 1 == .retired && tget .off t.panel.die 1 == .fenced) = true := by decide +kernel

/-- Gateway 0 has a transfer of an object of 7s open for site 1. -/
def casting (length round : Nat) (r : BcastRecv) : State :=
  { powered with panel := { powered.panel with role := [(1, .spare)] }, boot := { xfers := [(0, ⟨9, 3, 0, List.replicate length 7#8, 0, round, [(1, r)]⟩)] } }

theorem test_announce :
    gives (.bcastAnnounce 0 3#8 0 (List.replicate 300 7#8) [1, 150] [2] [1]) powered (fun t => (t.xferAt 0).map (fun x => (x.xfer, x.obj, x.recv)) == some (0, 3, [(1, {}), (146, {})]) &&
      tget 0 t.boot.nextXfer 0 == 1 && tget {} t.boot.bcast 1 == { result := 1, rounds := 0, xfer := 0 }) &&
    gives (.bcastAnnounce 0 8#8 0 [7#8] [1] [] []) powered (fun t => t.xferAt 0 == none) && gives (.bcastAnnounce 0 3#8 0 [] [1] [] []) powered (fun t => t.xferAt 0 == none) = true := by
  decide +kernel

/-- What receiver 1 of gateway 0's transfer holds. -/
def receiver (t : State) : Option BcastRecv := (t.xferAt 0).bind fun x => tfind x.recv 1

theorem test_broadcast :
    gives (.bcastData 0 1 1#15 [7#8]) (casting 300 0 {}) (fun t => (receiver t).map (fun r => r.got.map (·.1)) == some [1]) &&
    gives (.bcastData 0 1 2#15 [7#8]) (casting 300 0 {}) (fun t => (receiver t).map (·.got) == some []) &&
    gives (.bcastEnd 0 1) (casting 300 0 { got := [(1, [])] }) (fun t => (receiver t).map (·.ready) == some (some (1, [(0, 1)]))) &&
    gives (.bcastEnd 0 1) (casting 2 0 { got := [(0, [7#8, 7#8, 0#8])] }) (fun t => (receiver t).map (·.ready) == some (some (0, [])) && (tget {} t.boot.bcast 1).result == 2) &&
    gives (.bcastReport 0 1) (casting 300 0 { ready := some (0, []) }) (fun t => t.xferAt 0 == none) &&
    gives (.bcastReport 0 1) (casting 300 0 { ready := some (1, [(0, 1)]) }) (fun t => (receiver t).map (·.reported) == some (some (1, [(0, 1)]))) &&
    gives (.reportWaitExpiry 0) (casting 300 2 { reported := some (1, [(0, 1)]) }) (fun t => (t.xferAt 0).map (·.round) == some 3 && (tget {} t.boot.bcast 1).rounds == 3) &&
    gives (.reportWaitExpiry 0) (casting 300 3 { reported := some (1, [(0, 1)]) }) (fun t => t.xferAt 0 == none && (codes t).contains 0x0C03 && (tget {} t.boot.bcast 1).result == 3) = true := by
  decide +kernel

/-! ### Registers, events and upkeep (R9 to R14, R616 to R632, R645, R649) -/

theorem witness_registers : mayWrite 1 0x200008 = true ∧ mayWrite 1 0x600000 = false ∧ mayWrite 1 0x1000110 = false ∧ mayWrite 0x11 0x1000110 = true ∧
    mayRead 0x101 0x600000 = false ∧ State.reset.partAt 0x200008 ≠ .absent ∧ isRw64 0x103000 = true ∧ isRw64 0x201000 = false ∧
    lockAt 0x103000 = none ∧ mbxShut 1 0x103000 = false := by decide +kernel

theorem witness_wide : (State.reset.reg 0x103000).map (·.1) = some 8 ∧ ((State.reset.syncReg 0x103000).reg 0x103000).map (·.1) = some 8 := by decide +kernel

theorem test_register_writes :
    gives (.registerWrite ⟨1, 0x200008⟩ 2000#32) powered (fun t => t.pwr.cap == 2000) && gives (.registerWrite ⟨1, 0x200008⟩ 15000#32) powered (fun t => t.pwr.cap == 15000) &&
    gives (.registerWrite ⟨1, 0x200008⟩ 1999#32) powered (fun t => t.pwr.cap == 15000) && gives (.registerWrite ⟨1, 0x200008⟩ 15001#32) powered (fun t => t.pwr.cap == 15000) &&
    gives (.registerWrite ⟨1, 0x2000⟩ 63#32) powered (fun t => t.bg.spacing == 63) && gives (.registerWrite ⟨1, 0x2000⟩ 64#32) powered (fun t => t.bg.spacing == 4) &&
    gives (.registerWrite ⟨1, 0x2000⟩ 63#32) State.reset (fun t => t.bg.spacing == 4) &&
    gives (.registerWrite ⟨1, 0x300004⟩ 0x50000#32) powered (fun t => t.clk.req == 5) && gives (.registerWrite ⟨1, 0x300004⟩ 0x60000#32) powered (fun t => t.clk.req == 0) &&
    gives (.registerWrite ⟨1, 0x300010⟩ 0x70000#32) powered (fun t => t.clk.rotMs == 7) && gives (.registerWrite ⟨1, 0x300010⟩ 0x70000#32) State.reset (fun t => t.clk.rotMs == 20) &&
    gives (.registerWrite ⟨1, 0x408010⟩ 9#32) powered (fun t => t.zfp.check == 9#32) && gives (.registerWrite ⟨1, 0x408011⟩ 9#32) powered (fun t => t.zfp.check == 0#32) = true := by decide +kernel

theorem test_overflow_flags :
    gives (.ovfClear ⟨1, 0x300010⟩) { powered with clk := { rotOvf := true, skips := 7 } } (fun t => !t.clk.rotOvf && t.clk.skips == 0) &&
    gives (.ovfClear ⟨1, 0x103010⟩) { powered with evq := { ovf := true, lost := 7 } } (fun t => !t.evq.ovf && t.evq.lost == 0) &&
    gives (.ovfClear ⟨1, 0x2028⟩) { powered with bg := { acts := [(6, { ovf := true, missed := 7 })] } } (fun t => t.bgAct 6 == {}) &&
    gives (.ovfClear ⟨1, 0x407C08⟩) (ported {}) (fun t => !(t.port 31).fecOvf) &&
    gives (.ovfClear ⟨1, 0x400408⟩) (ported { fecOvf := true, corr := 3, uncorr := 4, replays := 5 }) (fun t => t.port 1 == { replays := 5 }) &&
    gives (.ovfClear ⟨1, 0x400410⟩) (ported { retryOvf := true, replays := 5, downs := 6, corr := 3 }) (fun t => t.port 1 == { corr := 3 }) &&
    gives (.ovfClear ⟨1, 0x501F08⟩) { powered with nvm := { chans := [(31, { ovf := true, tier1 := 5 })] } } (fun t => (t.chan 31).tier1 == 0 && !(t.chan 31).ovf) &&
    gives (.ovfClear ⟨1, 0x2013CC⟩) { powered with pwr := { powered.pwr with ergs := [(15, { droopOvf := true, trips := 3, unhinted := 4, anomalies := 5 })] } } (fun t =>
      t.ergPwr 15 == { anomalies := 5 }) &&
    gives (.ovfClear ⟨1, 0x600000⟩) powered (fun t => t.evq == powered.evq) = true := by decide +kernel

theorem test_wide_registers :
    gives (.lowWordRead ⟨1, 0x103000⟩) { powered with evq := { base := 0x5000003000 } } (fun t => tfind t.latches.latch 1 == some (0x103000, 0x50#32)) &&
    gives (.lowWordWrite ⟨1, 0x103000⟩ 0x3FFF#32) powered (fun t => tfind t.latches.heldLow 1 == some (0x103000, 0x3FFF#32) && t.evq.base == 0) &&
    gives (.lowWordWrite ⟨1, 0x2010⟩ 1#32) powered (fun t => t.latches.heldLow == []) &&
    gives (.highWordWrite ⟨1, 0x103004⟩ 0x50#32) { powered with latches := { heldLow := [(1, (0x103000, 0x3FFF#32))] } } (fun t => t.evq.base == 0x5000003000 && t.latches.heldLow == []) &&
    gives (.highWordWrite ⟨1, 0x103004⟩ 0x50#32) { powered with evq := { base := 0x7000 } } (fun t => t.evq.base == 0x5000007000) &&
    gives (.highWordWrite ⟨1, 0x40800C⟩ 2#32) { powered with latches := { heldLow := [(1, (0x408008, 3#32))] } } (fun t => t.zfp.flipTick == 0x200000003#64) = true := by decide +kernel

/-- Link 0 is UP, the ring is enabled, and these events travel and wait. -/
def ringing (travelling buffer : List EventRec) : State :=
  { hosted with stew := { active := some false }, evq := { enable := true, size := 8, base := 0x1000, tail := 255, head := 5, travelling := travelling, buffer := buffer } }

/-- An event without values. -/
def event (code : Nat) : EventRec := ⟨code, 3, 4, 5, []⟩

theorem witness_events : (ringing [] []).mayWriteEvent = true ∧ forwardClass 0x0104 = some 3 ∧ forwardClass 0x0801 = none ∧
    (event 0x0605).entries.length = 2 ∧ ((event 0x0605).entries.map (·.second)) = [false, true] := by decide

theorem test_events :
    gives (.evqCtlWrite 0x80000009#32) powered (fun t => t.evq.enable && t.evq.size == 9) && gives (.evqCtlWrite 0x80000007#32) powered (fun t => !t.evq.enable && t.evq.size == 8) &&
    gives (.evqCtlWrite 10#32) powered (fun t => !t.evq.enable && t.evq.size == 10) && gives (.evqCtlWrite 10#32) (ringing [] []) (fun t => !t.evq.enable && t.evq.size == 8) &&
    gives (.evqHeadWrite 0x18001#32) powered (fun t => t.evq.head == 1) &&
    gives .eventFlit (ringing [event 0x0801] []) (fun t => t.evq.travelling == [] && t.evq.buffer == [event 0x0801]) &&
    gives .eventFlit (ringing [event 0x0801] (List.replicate 1024 (event 0x0801))) (fun t => t.evq.lostSince == 1 && t.evq.lost == 1 && t.evq.buffer.length == 1024) &&
    gives .eventWrite (ringing [] [event 0x0801]) (fun t => t.evq.tail == 0 && t.evq.seq == 1 && t.evq.buffer == [] &&
      t.hif.xfers.map (fun x => (x.2.addr, x.2.data.map (·.take 4))) == [(0x1000 + 255 * 32 + 4, some (leBytes 4 3)), (0x1000 + 255 * 32, some [1#8, 8#8, 0#8, 0#8])]) &&
    gives .eventWrite (let s := ringing [] [event 0x0801]; { s with evq := { s.evq with lostSince := 3 } }) (fun t => t.evq.lostSince == 0 && t.evq.buffer == [event 0x0801] &&
      (t.hif.xfers.getLast?.bind (·.2.data)) == some [4#8, 0x0E#8, 0#8, 0#8]) = true := by decide +kernel

theorem test_background :
    gives (.backgroundUnit 5 2 0 0) { powered with bg := { acts := [(5, { work := 2, total := 4, urgent := true })] }, nvm := { stripes := [(2, { lost := [1] })] } } (fun t =>
      (t.bgAct 5).work == 0 && !(t.bgAct 5).urgent && (t.bgAct 5).donePct == 100 && (t.nvm.stripe 2).lost == []) &&
    gives (.backgroundUnit 0 1 0 32768) { powered with bg := { acts := [(0, { work := 2, total := 2 })] }, srams := { imemFlips := [(imKey 0 0, 1)] } } (fun t =>
      t.srams.imemFlips == [] && (t.core 0).count.corr == 1 && (t.bgAct 0).donePct == 50) &&
    gives (.periodEnd 2 7#16 10) { powered with bg := { acts := [(2, { work := 3 })] } } (fun t => (t.bgAct 2).work == 13 && (t.bgAct 2).missed == 1 && codes t == [0x0E02]) &&
    gives (.periodEnd 2 7#16 10) powered (fun t => (t.bgAct 2).work == 10 && codes t == []) = true := by decide +kernel

theorem test_module :
    gives (.smbusBlockRead 0x5A#7 2#8) { powered with mc := { straps := 2 } } (fun t => t.mc.reply.map (·.length) == some 5) &&
    gives (.smbusBlockRead 0x5A#7 10#8) { powered with mc := { straps := 2 } } (fun t => t.mc.reply == some [0#8]) &&
    gives (.smbusBlockRead 0x59#7 2#8) { powered with mc := { straps := 2, reply := some [] } } (fun t => t.mc.reply == none) &&
    gives (.smbusBlockRead 0x58#7 2#8) { powered with pwr := { powered.pwr with vin := 5399 } } (fun t => t.mc.reply == none) &&
    gives (.smbusWrite 0x58#7 2#8 [1#8]) { powered with mc := { reply := some [] } } (fun t => t.mc.reply == none) &&
    gives (.carrierRemoved 7) powered (fun t => t.mc.removed == [7] && (t.chan 31).mode == .out && (t.chan 28).mode == .out) &&
    gives (.carrierInserted 7) powered (fun t => t.mc.removed == []) = true := by decide +kernel

/-! ### The machine, its queue and its commands -/

theorem reset_inRange : State.reset.inRange := by unfold State.inRange; decide

theorem reset_memWf : State.reset.memWf = true := by decide

theorem test_step : (match step { State.reset with pending := [.stepRequest 0x50000#32, .stage1Stop] } with
    | .next t => t.clk.req == 5 && t.pending == [.stage1Stop]
    | _ => false) = true := by decide +kernel

theorem test_idle : (match step State.reset with
    | .next t => t.clock.now == 1 && t.clock.tick == 0#64
    | _ => false) = true := by decide +kernel

theorem test_fetch_word : decodeTableWord 32 5 = none ∧ State.reset.withFetchWord 32 5 = State.reset := ⟨rfl, rfl⟩

/-- Commands with an operand out of its range, one for each check, are refused. -/
theorem test_ill_formed : List.all (α := Instr)
  [.mbxLockRead 8 0, .mbxLockWrite 8 1 65536, .mbxLockWrite 8 3 1, .mbxDbWrite 8 1 65536, .mbxDbWrite 8 0x28 1, .mbxAckWrite 8 0x190 0#16, .mbxDataWrite 8 0x12 0 0#32,
   .mbxForced 3, .stewardWdt 1, .stewardRestartDone 0x40 [], .ovfClear ⟨1, 2⟩, .lowWordRead ⟨0, 0⟩, .lowWordWrite ⟨1, 0x4000000⟩ 0#32, .highWordWrite ⟨0x1FFFF, 4⟩ 0#32,
   .registerWrite ⟨1, 1⟩ 0#32, .cvuRequest 0 16384 0 0 false none, .cvuRequest 0 0 65536 0 false none, .unscheduledStackAccess 0 0 0 none, .unscheduledStackAccess 0 0x17FFFFFFFFF 2 none,
   .dataFrame 1 0 0 0#12 0#12 0#2 0#6 0#2 (List.replicate 67 0#8), .ackFrame 1 0 0 (List.replicate 333 0#8), .nakFrame 1 ⟨0, 0, []⟩, .heldBundleIssue 1352, .holdExpiry 1455, .tsyncArrival 1976,
   .coreHwCheck 13520, .hold 13623, .resume 1352, .selfcheck 1352, .sweep 1352, .pageinComplete 1352, .waitstrRelease 1352, .marginFault 1352, .wadiFlitLand 1352,
   .sweepTimeout 1352, .coreFaultReport 1352 true, .selfcheckDone 1352 true, .stop 1352 0#5, .pageMark 1352 0#5, .backgroundUnit 0 0 1352 0,
   .beaconSilence 4096, .stragglerCheck 4096, .settingsWrite [(65536, 0, [])], .settingsWrite [(0, 256, [])], .settingsWrite [(0, 0, List.replicate 13 0#8)],
   .bcastAnnounce 0 1#8 0 [] [] [] [], .bcastAnnounce 0 1#8 0 [0#8] [144] [] [], .bcastAnnounce 0 1#8 0 [0#8] [] [16] [],
   .clockPlanRelay [(144, 0, none)], .clockPlanRelay [(0, 4, none)], .clockPlanRelay [(0, 0, some 4)], .forecastWindow 0 0 0 0 0 [⟨144, 0, 0, 0⟩], .forecastWindow 0 0 0 0 0 [⟨0, 64, 0, 0⟩],
   .thermalForecast [⟨160, 0, 0, 0, 0, 0, 0, 0⟩], .thermalForecast [⟨0, 0, 16, 0, 0, 0, 0, 0⟩], .backgroundUnit 0 0 14976 0, .backgroundUnit 0 0 0 34816,
   .backgroundUnit 4 0 16 0, .backgroundUnit 4 0 0 0x60000000]
    (fun i => !WellFormed i) = true := by decide +kernel

theorem test_well_formed : WellFormed (.mbxLockRead 8 0x18F) = true ∧ WellFormed (.ovfClear ⟨0x1FFFE, 0x3FFFFFC⟩) = true ∧
    WellFormed (.backgroundUnit 4 0 15 0x5FFFFFFF) = true ∧ WellFormed (.unscheduledStackAccess 0 0x17FFFFFFFFF 1 none) = true ∧ WellFormed .stage1Stop = true := by
  decide +kernel

end Sys2Proof.Tests
end

section
/-! PROOFS. Bundles that fault or that cannot be fetched: the core stops with the cause in its fault record, and no slot issues
(R73, R83, R86, R87, R97, R139, R162). -/

namespace Sys2Proof.Machine

open Sys2Proof

/-! ### The fault record (R97) -/

/-- Core record `k` is what core record `c` becomes when its bundle faults in tick `t`: the cause stands in the fault record,
fetching stops, and registers, counts and results in flight stand. -/
def CoreRec.FaultsTo (c k : CoreRec) (t : BitVec 64) (multi : Bool) (slot code : Nat) : Prop :=
  k.stat.run = .faulted ∧ k.fault.valid = true ∧ k.fault.multi = multi ∧ k.fault.slot = slot ∧ k.fault.code = code ∧
    k.fault.bundle = c.ctl.pc ∧ k.fault.tick = t ∧ k.ctl.readyAt = none ∧ k.regs = c.regs ∧ k.count = c.count ∧
    k.pipe.flights = c.pipe.flights

/-- A first fault at the program counter changes the core's record alone. -/
theorem recordFault_faultsTo {u : State} {p : Nat} (hv : (u.core p).fault.valid = false) (x : Cause) (xs : List Cause) :
    ∃ k, u.recordFault p (u.core p).ctl.pc x xs = u.setCore p k ∧
      (u.core p).FaultsTo k u.clock.tick (!xs.isEmpty) (lowestCause x xs).slot (lowestCause x xs).code :=
  ⟨_, rfl, by simp [CoreRec.FaultsTo, hv]⟩

/-- Putting back a core's own record changes nothing that a fault records. -/
theorem recordFault_setCore_self (u : State) (p bundle : Nat) (x : Cause) (xs : List Cause) :
    (u.setCore p (u.core p)).recordFault p bundle x xs = u.recordFault p bundle x xs := by
  simp [State.recordFault]

/-! ### Commands that issue a bundle -/

/-- The command `i` is the issue of bundle `k` by core `p`. -/
def Issues (i : Instr) (p : Nat) (k : Slots) : Prop := ∀ s, exec i s = .next (s.issueBundle p k)

/-- A command whose bundle faults for `x` and `xs` records the lowest of these causes. -/
theorem Issues.faults {i : Instr} {s u : State} {p : Nat} {k : Slots} {x : Cause} {xs : List Cause} (hi : Issues i p k)
    (hv : (u.core p).fault.valid = false) (hf : s.issueBundle p k = u.recordFault p (u.core p).ctl.pc x xs) :
    ∃ c, Goes i s (u.setCore p c) ∧
      (u.core p).FaultsTo c u.clock.tick (!xs.isEmpty) (lowestCause x xs).slot (lowestCause x xs).code := by
  obtain ⟨c, hc, hto⟩ := recordFault_faultsTo hv x xs
  exact ⟨c, by rw [Goes, hi, hf, hc], hto⟩

/-- A bundle that is met and that WAITSTR does not hold makes its first request in its ready cycle. -/
theorem issueBundle_firstRequest {s u : State} {p : Nat} {k : Slots} (hm : Meets s p u) (hw : u.waits p k = false) :
    s.issueBundle p k = u.firstRequest p k := by
  rw [issueBundle_of_meets _ hm, State.ready, hw, if_neg Bool.false_ne_true]

/-! ### Encoding checks (R139) -/

theorem slotGuardOk_ctrl {op : CtrlOp} (hn : op ≠ .nop) (g : BitVec 5) : slotGuardOk (op == .nop) g = guardOk g := by
  simp [slotGuardOk, hn]

/-- R140: the guard mode 3 is reserved. -/
theorem guardOk_reserved {g : BitVec 5} (hg : 24 ≤ g.toNat) : guardOk g = false := by
  have hm : bitsOf g.toNat 3 2 = 3 := by
    have := g.isLt
    simp only [bitsOf]
    omega
  simp [guardOk, hm]

/-- In a bundle with one CTRL operation only the CTRL slot can be undefined. -/
theorem undefinedSlots_ctrl (h : Header) (op : CtrlOp) (g : BitVec 5) :
    undefinedSlots { hdr := h, ctrl := op, ctrlG := g } =
      if ctrlOk op && slotGuardOk (op == .nop) g then [] else [1] := by
  have hb : slotGuardOk true 0#5 = true := by decide
  have hv : vecOk .nop {} = true := by decide
  cases hok : ctrlOk op <;> cases hg : slotGuardOk (op == .nop) g <;>
    simp [undefinedSlots, hok, hg, hb, hv, tensorOk, memIsStore, memRegOk, routeOk]

/-- A bundle with one load, or one store in the LS1 slot, is a defined encoding. -/
theorem undefinedSlots_loadBundle (h : Header) {g : BitVec 5} {ls1 : Bool} {op : MemOp} {reg : BitVec 6} (base : BitVec 4)
    (off : BitVec 16) (hn : op ≠ .nop) (hl : memIsStore op = true → ls1 = true) (hr : memRegOk op reg = true)
    (hg : guardOk g = true) : undefinedSlots (loadBundle h g ls1 op reg base off) = [] := by
  have hv : vecOk .nop {} = true := by decide
  have hm : memRegOk .nop 0#6 = true := by decide
  have hs : memIsStore .nop = false := rfl
  cases ls1
  case false =>
    have hload : memIsStore op = false := Bool.eq_false_iff.mpr fun hst => Bool.false_ne_true (hl hst)
    simp [loadBundle, undefinedSlots, ctrlOk, tensorOk, hv, hm, hload, hr, hg, hn, routeOk, slotGuardOk]
  case true => simp [loadBundle, undefinedSlots, ctrlOk, tensorOk, hv, hm, hs, hr, hg, hn, routeOk, slotGuardOk]

/-- A bundle whose CTRL slot is an undefined encoding faults in its first request cycle. -/
theorem firstRequest_ctrl_undefined (u : State) (p : Nat) (h : Header) {op : CtrlOp} {g : BitVec 5}
    (hbad : (ctrlOk op && slotGuardOk (op == .nop) g) = false) :
    u.firstRequest p { hdr := h, ctrl := op, ctrlG := g } =
      u.recordFault p (u.core p).ctl.pc ⟨1, ST_CORE_ILLEGAL, none⟩ [] := by
  have hd := undefinedSlots_ctrl h op g
  rw [hbad] at hd
  have hn : (List.range 7).filter ([1] : List Nat).contains = [1] := by decide
  simp [State.firstRequest, hd, busySlots, hn]

/-- An undefined CTRL operation faults with ST_CORE_ILLEGAL. -/
theorem Issues.ctrl_undefined {i : Instr} {s u : State} {p : Nat} {h : Header} {op : CtrlOp} {g : BitVec 5}
    (hi : Issues i p { hdr := h, ctrl := op, ctrlG := g }) (hm : Meets s p u) (hv : (u.core p).fault.valid = false)
    (hw : u.waits p { hdr := h, ctrl := op, ctrlG := g } = false)
    (hbad : (ctrlOk op && slotGuardOk (op == .nop) g) = false) :
    ∃ c, Goes i s (u.setCore p c) ∧ (u.core p).FaultsTo c u.clock.tick false 1 ST_CORE_ILLEGAL := by
  refine hi.faults (x := ⟨1, ST_CORE_ILLEGAL, none⟩) (xs := []) hv ?_
  rw [issueBundle_firstRequest hm hw, firstRequest_ctrl_undefined u p h hbad]

/-! ### Alignment (R73) -/

/-- An access that acts is misaligned when its offset is no multiple of its size. -/
theorem misaligned_mkAccess {r : CoreRegs} {op : MemOp} {g : BitVec 5} (reg : BitVec 6) (base : BitVec 4) (off : BitVec 16)
    (hn : op ≠ .nop) (hg : r.guard0 g = true) :
    misaligned (mkAccess r op g reg base off) = decide (accessOff r op base off % memSize op ≠ 0) := by
  unfold mkAccess
  cases hs : memIsStore op <;> simp [hn, hg, misaligned]

/-- A defined bundle whose one access is misaligned faults in its first request cycle, in the slot of the access. -/
theorem firstRequest_misaligned {u : State} {p : Nat} {h : Header} {g : BitVec 5} {ls1 : Bool} {op : MemOp} {reg : BitVec 6}
    {base : BitVec 4} {off : BitVec 16} (hd : undefinedSlots (loadBundle h g ls1 op reg base off) = [])
    (ha : misaligned (mkAccess (u.core p).regs op g reg base off) = true) :
    u.firstRequest p (loadBundle h g ls1 op reg base off) =
      u.recordFault p (u.core p).ctl.pc ⟨if ls1 then 5 else 4, ST_CORE_ALIGN, none⟩ [] := by
  have hn : (List.range 7).filter ([] : List Nat).contains = [] := by decide
  cases ls1 <;> simp [State.firstRequest, hd] <;> simp [loadBundle, busySlots, ha, hn]

/-- A misaligned load or store that acts faults with ST_CORE_ALIGN. -/
theorem Issues.misaligned {i : Instr} {s u : State} {p : Nat} {h : Header} {g : BitVec 5} {ls1 : Bool} {op : MemOp}
    {reg : BitVec 6} {base : BitVec 4} {off : BitVec 16} (hi : Issues i p (loadBundle h g ls1 op reg base off))
    (hm : Meets s p u) (hv : (u.core p).fault.valid = false) (hn : op ≠ .nop) (hl : memIsStore op = true → ls1 = true)
    (hr : memRegOk op reg = true) (hg : guardOk g = true) (h0 : (u.core p).regs.guard0 g = true)
    (ha : accessOff (u.core p).regs op base off % memSize op ≠ 0) :
    ∃ c, Goes i s (u.setCore p c) ∧ (u.core p).FaultsTo c u.clock.tick false (if ls1 then 5 else 4) ST_CORE_ALIGN := by
  refine hi.faults (x := ⟨if ls1 then 5 else 4, ST_CORE_ALIGN, none⟩) (xs := []) hv ?_
  have hw : u.waits p (loadBundle h g ls1 op reg base off) = false := by cases ls1 <;> rfl
  rw [issueBundle_firstRequest hm hw]
  refine firstRequest_misaligned (undefinedSlots_loadBundle h base off hn hl hr hg) ?_
  rw [misaligned_mkAccess _ _ _ hn h0]
  exact decide_eq_true ha

/-! ### Causes of the issue cycle (R83, R86) -/

/-- A defined CTRL operation that acts and faults does so in its issue cycle, for the causes that the operation gives. -/
theorem issueBundle_ctrl_faults {s u : State} {p : Nat} {h : Header} {op : CtrlOp} {g : BitVec 5} {x : Cause}
    {xs : List Cause} (hm : Meets s p u) (hok : (ctrlOk op && slotGuardOk (op == .nop) g) = true)
    (hw : u.waits p { hdr := h, ctrl := op, ctrlG := g } = false) (h0 : (u.core p).regs.guard0 g = true)
    (hc : (u.ctrlEval p h.tsm op).causes = x :: xs) :
    s.issueBundle p { hdr := h, ctrl := op, ctrlG := g } = u.recordFault p (u.core p).ctl.pc x xs := by
  have hd := undefinedSlots_ctrl h op g
  rw [hok] at hd
  have hv : ∀ r i x g, vecEval r i x .nop g {} = .writes [] := by intros; rfl
  have hi : (u.setCore p (u.core p)).issueCauses p { hdr := h, ctrl := op, ctrlG := g } noAccess noAccess = x :: xs := by
    simp [State.issueCauses, ctrlEval_setCore_self, hv, h0, hc]
  rw [issueBundle_firstRequest hm hw, firstRequest_defined hd (by simp [busySlots]) (by simp) (by simp)]
  simp only [mkAccess_nop]
  rw [serveOrHold_noAccess _ _ _ (seamHeld_nop _ _ _ rfl), State.issue, hi]
  simp only [State.core_setCore_self, recordFault_setCore_self]

/-- A CTRL operation that acts and gives the causes `x` and `xs` records the lowest of them. -/
theorem Issues.ctrl_faults {i : Instr} {s u : State} {p : Nat} {h : Header} {op : CtrlOp} {g : BitVec 5} {x : Cause}
    {xs : List Cause} (hi : Issues i p { hdr := h, ctrl := op, ctrlG := g }) (hm : Meets s p u)
    (hv : (u.core p).fault.valid = false) (hn : op ≠ .nop) (hok : ctrlOk op = true) (hg : guardOk g = true)
    (hw : u.waits p { hdr := h, ctrl := op, ctrlG := g } = false) (h0 : (u.core p).regs.guard0 g = true)
    (hc : (u.ctrlEval p h.tsm op).causes = x :: xs) :
    ∃ c, Goes i s (u.setCore p c) ∧
      (u.core p).FaultsTo c u.clock.tick (!xs.isEmpty) (lowestCause x xs).slot (lowestCause x xs).code :=
  hi.faults hv (issueBundle_ctrl_faults hm (by rw [hok, slotGuardOk_ctrl hn, hg]; rfl) hw h0 hc)

/-- R175: a poison source of an ALU function is poison at an address register that it writes. -/
theorem ctrlEval_alu_poison {u : State} {p : Nat} (b : Bool) (fn : AluFn) {d s1 : BitVec 5} (s2 : BitVec 5)
    (hd : 16 ≤ d.toNat) (hs : ((u.core p).regs.ctrl s1).poison = true) :
    (u.ctrlEval p b (.alu fn d s1 s2)).causes = ctrlPoison := by
  simp [State.ctrlEval, ctrlPut, mkLane, hs, isAddr, hd]

/-- R176: a comparison with a poison source faults. -/
theorem ctrlEval_cmp_poison {u : State} {p : Nat} (b : Bool) (fn : CmpFn) (d : BitVec 5) {s1 : BitVec 5} (s2 : BitVec 5)
    (hs : ((u.core p).regs.ctrl s1).poison = true) : (u.ctrlEval p b (.cmp fn d s1 s2)).causes = ctrlPoison := by
  simp [State.ctrlEval, hs]

/-- R178: a branch to a poison register faults. -/
theorem ctrlEval_jmpr_poison {u : State} {p : Nat} (b : Bool) {s1 : BitVec 5}
    (hs : ((u.core p).regs.ctrl s1).poison = true) : (u.ctrlEval p b (.jmpr s1)).causes = ctrlPoison := by
  simp [State.ctrlEval, hs]

/-- R86: the causes of a page-in, first that its page runs, then that it stands behind two others. -/
theorem ctrlEval_pagein_causes (u : State) (p : Nat) (b : Bool) {imm : BitVec 21} (hi : imm.toNat < 2048) :
    (u.ctrlEval p b (.pagein imm)).causes =
      (if imm.toNat / 256 = (u.core p).ctl.pc / 256 then [⟨1, ST_CORE_PAGE_LIVE, none⟩] else []) ++
        (if (u.core p).ctl.pagein.isSome && (u.core p).ctl.pageinQ.isSome then [⟨1, ST_CORE_PAGE_BUSY, none⟩] else []) := by
  have hb : bitsOf imm.toNat 8 3 = imm.toNat / 256 := by
    simp only [bitsOf]
    omega
  simp only [State.ctrlEval, hb]
  split
  · next hnil => exact hnil.symm
  · rfl

/-! ### The fetch (R87, R162) -/

theorem fetchCheck_pageLate {u : State} {p : Nat}
    (hp : (u.core p).ctl.pageValid.getLsbD ((u.core p).ctl.pc / 256) = false) :
    u.fetchCheck p = (u, some ⟨0, ST_CORE_PAGE_LATE, none⟩) := by
  simp [State.fetchCheck, hp]

theorem fetchCheck_uncorrectable {u : State} {p : Nat}
    (hp : (u.core p).ctl.pageValid.getLsbD ((u.core p).ctl.pc / 256) = true)
    (hf : 2 ≤ tget 0 u.srams.imemFlips (imKey p (u.core p).ctl.pc)) :
    u.fetchCheck p = (u.countUncorr p none, some ⟨0, ST_CORE_IMEM_ECC, none⟩) := by
  obtain ⟨n, hn⟩ := Nat.exists_eq_add_of_le' hf
  simp [State.fetchCheck, hp, hn]

/-- A fetch that fails faults before any slot is looked at, whatever the bundle holds. -/
theorem issueBundle_of_fetchCheck {s u v : State} {p r : Nat} {x : Cause} (k : Slots) (hr : (s.core p).canIssue = some r)
    (hu : u = s.meetAt p r) (hrun : (u.core p).stat.run = .running) (hf : u.fetchCheck p = (v, some x)) :
    s.issueBundle p k = v.recordFault p (u.core p).ctl.pc x [] := by
  subst hu
  simp only [State.issueBundle, hr, hrun, if_true, hf]

/-- An overflow flag that rises concerns the event queue alone. -/
theorem cntOvf_frame (s : State) (rose : Bool) (reg lowBit node : Nat) :
    ∃ e, s.cntOvf rose reg lowBit node = { s with evq := e } := by
  cases rose
  · exact ⟨s.evq, rfl⟩
  · exact ⟨_, rfl⟩

/-- The count of uncorrectable errors goes up to 15 (R622), and beside the core's counts only an event can come of it. -/
theorem countUncorr_frame (u : State) (p : Nat) (bank : Option Nat) :
    ∃ e n, u.countUncorr p bank = { u with evq := e }.setCore p { u.core p with count := n } ∧
      n.uncorr = if (u.core p).count.uncorr < 15 then (u.core p).count.uncorr + 1 else (u.core p).count.uncorr := by
  refine (cntOvf_frame _ _ _ _ _).imp fun e he => ⟨_, he, ?_⟩
  simp only [bump]
  split <;> rfl

/-- R162: a core whose next bundle lies in an invalid page faults with ST_CORE_PAGE_LATE. -/
theorem Issues.pageLate {i : Instr} {s u : State} {p r : Nat} {k : Slots} (hi : Issues i p k)
    (hr : (s.core p).canIssue = some r) (hu : u = s.meetAt p r) (hrun : (u.core p).stat.run = .running)
    (hv : (u.core p).fault.valid = false)
    (hp : (u.core p).ctl.pageValid.getLsbD ((u.core p).ctl.pc / 256) = false) :
    ∃ c, Goes i s (u.setCore p c) ∧ (u.core p).FaultsTo c u.clock.tick false 0 ST_CORE_PAGE_LATE :=
  hi.faults (x := ⟨0, ST_CORE_PAGE_LATE, none⟩) (xs := []) hv
    (issueBundle_of_fetchCheck k hr hu hrun (fetchCheck_pageLate hp))

/-- R87: a core whose next bundle has an uncorrectable error counts it and faults with ST_CORE_IMEM_ECC. -/
theorem Issues.imemEcc {i : Instr} {s u : State} {p r : Nat} {k : Slots} (hi : Issues i p k)
    (hr : (s.core p).canIssue = some r) (hu : u = s.meetAt p r) (hrun : (u.core p).stat.run = .running)
    (hv : (u.core p).fault.valid = false)
    (hp : (u.core p).ctl.pageValid.getLsbD ((u.core p).ctl.pc / 256) = true)
    (hf : 2 ≤ tget 0 u.srams.imemFlips (imKey p (u.core p).ctl.pc)) :
    ∃ c e n, Goes i s ({ u with evq := e }.setCore p c) ∧
      { u.core p with count := n }.FaultsTo c u.clock.tick false 0 ST_CORE_IMEM_ECC ∧
      n.uncorr = if (u.core p).count.uncorr < 15 then (u.core p).count.uncorr + 1 else (u.core p).count.uncorr := by
  obtain ⟨e, n, hcount, hn⟩ := countUncorr_frame u p none
  have hcore : (u.countUncorr p none).core p = { u.core p with count := n } := by rw [hcount, State.core_setCore_self]
  have hissue := issueBundle_of_fetchCheck k hr hu hrun (fetchCheck_uncorrectable hp hf)
  obtain ⟨c, hgoes, hto⟩ := hi.faults (u := u.countUncorr p none) (by rw [hcore]; exact hv) (by rw [hissue, hcore])
  rw [hcore] at hto
  rw [hcount, State.setCore_setCore] at hgoes
  rw [hcount] at hto
  exact ⟨c, e, n, hgoes, hto, hn⟩

/-! ### Cores that issue nothing -/

/-- A core that does not run, that holds a bundle, or that no cycle is set for cannot issue. -/
theorem canIssue_eq_none {c : CoreRec} (h : c.stat.run ≠ .running ∨ c.pipe.held ≠ none ∨ c.ctl.readyAt = none) :
    c.canIssue = none := by
  unfold CoreRec.canIssue
  split
  · next hcan =>
    obtain ⟨hrun, hheld⟩ := hcan
    obtain hnot | hholds | hready := h
    · exact absurd hrun hnot
    · exact absurd (Option.isNone_iff_eq_none.mp hheld) hholds
    · exact hready
  · rfl

/-- The command of a core that cannot issue leaves the machine as it is. -/
theorem Issues.idle {i : Instr} {s : State} {p : Nat} {k : Slots} (hi : Issues i p k) (hc : (s.core p).canIssue = none) :
    Goes i s s := by
  rw [Goes, hi]
  simp [State.issueBundle, hc]

/-- Settles O16: each defect's own lemma, by the cycle in which the defect is found (the fetch, the first request cycle, the issue
cycle), brought to the one record of a fault. -/
theorem faultingAndUnusableBundlesRecordTheirCause : Obligations.FaultingAndUnusableBundlesRecordTheirCause := by
  unfold Obligations.FaultingAndUnusableBundlesRecordTheirCause
  refine ⟨fun s u p h g d a b imm reg base off ls1 hm hv => ?_, ?_, ?_⟩
  · have aluAdd : Issues (.aluAdd p h g d a b) p { hdr := h, ctrl := .alu .add d a b, ctrlG := g } := fun _ => rfl
    have cmpEq : Issues (.cmpEq p h g d a b) p { hdr := h, ctrl := .cmp .eq d a b, ctrlG := g } := fun _ => rfl
    have jmp : Issues (.jmp p h g imm) p { hdr := h, ctrl := .jmp imm, ctrlG := g } := fun _ => rfl
    have jmpr : Issues (.jmpr p h g a) p { hdr := h, ctrl := .jmpr a, ctrlG := g } := fun _ => rfl
    have pagein : Issues (.pagein p h g imm) p { hdr := h, ctrl := .pagein imm, ctrlG := g } := fun _ => rfl
    have ldv : Issues (.ldv p h g ls1 reg base off) p (loadBundle h g ls1 .ldv reg base off) := fun _ => rfl
    have stv : Issues (.stv p h g reg base off) p (loadBundle h g true .stv reg base off) := fun _ => rfl
    refine ⟨fun hg => ?_, fun hd => ?_, fun hi => ⟨?_, ?_⟩, fun hg h0 => ⟨fun hr hoff => ⟨?_, ?_⟩, fun ha => ⟨?_, ?_, ?_⟩,
      fun hi => ⟨?_, ?_, ?_⟩⟩⟩
    · exact aluAdd.ctrl_undefined hm hv rfl (by rw [slotGuardOk_ctrl (by simp), guardOk_reserved hg, Bool.and_false])
    · exact cmpEq.ctrl_undefined hm hv rfl (Bool.and_eq_false_iff.mpr (.inl (decide_eq_false (Nat.not_lt.mpr hd))))
    · exact jmp.ctrl_undefined hm hv rfl (Bool.and_eq_false_iff.mpr (.inl (decide_eq_false (Nat.not_lt.mpr hi))))
    · exact pagein.ctrl_undefined hm hv rfl (Bool.and_eq_false_iff.mpr (.inl (decide_eq_false (Nat.not_lt.mpr hi))))
    · exact ldv.misaligned hm hv (by simp) (by simp [memIsStore]) (decide_eq_true hr) hg h0 hoff
    · exact stv.misaligned hm hv (by simp) (fun _ => rfl) (decide_eq_true hr) hg h0 hoff
    · exact jmpr.ctrl_faults hm hv (by simp) rfl hg rfl h0 (ctrlEval_jmpr_poison _ ha)
    · exact fun hd => aluAdd.ctrl_faults hm hv (by simp) rfl hg rfl h0 (ctrlEval_alu_poison _ _ _ hd ha)
    · exact fun hd => cmpEq.ctrl_faults hm hv (by simp) (decide_eq_true hd) hg rfl h0 (ctrlEval_cmp_poison _ _ _ _ ha)
    · intro hlive hfree
      refine pagein.ctrl_faults hm hv (by simp) (decide_eq_true hi) hg rfl h0
        (x := ⟨1, ST_CORE_PAGE_LIVE, none⟩) (xs := []) ?_
      rw [ctrlEval_pagein_causes u p _ hi, if_pos hlive]
      obtain hfree | hfree := hfree <;> simp [hfree]
    · intro hlive hin hq
      obtain ⟨k, hgoes, hrun, -, hmulti, -, hcode, -, -, -, hregs, -⟩ :=
        pagein.ctrl_faults (x := ⟨1, ST_CORE_PAGE_LIVE, none⟩) (xs := [⟨1, ST_CORE_PAGE_BUSY, none⟩]) hm hv (by simp)
          (decide_eq_true hi) hg rfl h0
          (by simp [ctrlEval_pagein_causes u p _ hi, hlive, Option.isSome_iff_ne_none.mpr hin, Option.isSome_iff_ne_none.mpr hq])
      exact ⟨k, hgoes, hrun, hmulti, hcode, hregs⟩
    · intro hother hin hq
      exact pagein.ctrl_faults hm hv (by simp) (decide_eq_true hi) hg rfl h0
        (x := ⟨1, ST_CORE_PAGE_BUSY, none⟩) (xs := []) (by simp [ctrlEval_pagein_causes u p _ hi, hother, hin, hq])
  · intro s u p h r g d a b imm reg base i hform hr hu hrun hv
    have hissues : ∃ k, Issues i p k := by
      obtain rfl | rfl | rfl | rfl | rfl | rfl | rfl := hform <;> exact ⟨_, fun _ => rfl⟩
    obtain ⟨bundle, hi⟩ := hissues
    refine ⟨fun hp => ?_, fun hp hf => ?_⟩
    · obtain ⟨k, hgoes, hfault, -, -, hslot, hcode, hpc, -, -, hregs, -, hflights⟩ := hi.pageLate hr hu hrun hv hp
      exact ⟨k, hgoes, hfault, hcode, hslot, hpc, hregs, hflights⟩
    · obtain ⟨k, e, n, hgoes, ⟨hfault, -, -, -, hcode, hpc, -, -, hregs, hcount, -⟩, hn⟩ := hi.imemEcc hr hu hrun hv hp hf
      exact ⟨k, e, hgoes, hfault, hcode, hpc, hregs, by rw [hcount]; exact hn⟩
  · intro s p h g d imm reg base hstill
    have hc := canIssue_eq_none hstill
    have movi : Issues (.movi p h g d imm) p { hdr := h, ctrl := .movi d imm, ctrlG := g } := fun _ => rfl
    have stv : Issues (.stv p h g reg base imm) p (loadBundle h g true .stv reg base imm) := fun _ => rfl
    have vmov : Issues (.vmov p h g reg reg) p { hdr := h, vec := .mov, vecG := g, vargs := { vd := reg, va := reg } } :=
      fun _ => rfl
    exact ⟨movi.idle hc, stv.idle hc, vmov.idle hc⟩

end Sys2Proof.Machine
end

section
/-! PROOFS. The CTRL slot's results: the ALU, the immediates, the predicates, the status reads and the stream waits (R173 to R177,
R187 to R193). -/

namespace Sys2Proof.Machine

open Sys2Proof

/-! ### A CTRL operation that writes (R154, R172) -/

/-- A CTRL operation that acts, and whose effect is the results `ws` alone, issues with them. -/
theorem Issues.ctrl_issued {i : Instr} {s u : State} {p : Nat} {h : Header} {op : CtrlOp} {g : BitVec 5}
    {ws : List (Loc × Pending)} (hi : Issues i p { hdr := h, ctrl := op, ctrlG := g }) (hm : Meets s p u) (hn : op ≠ .nop)
    (hok : ctrlOk op = true) (hg : guardOk g = true) (h0 : (u.core p).regs.guard0 g = true)
    (hw : u.waits p { hdr := h, ctrl := op, ctrlG := g } = false) (he : u.ctrlEval p h.tsm op = { writes := ws }) :
    Goes i s (u.issued p h (nextPc h (u.core p).ctl.pc) 1 ws) := by
  rw [Goes, hi, issueBundle_ctrl hm hok (by rw [slotGuardOk_ctrl hn, hg]) hw (by rw [if_pos h0, he]) rfl rfl rfl]
  simp [State.issued, CoreRec.withEffect]

/-- R175: a result is written but for poison into an address register. -/
theorem ctrlPut_writes {d : BitVec 5} {bad : Bool} (b : BitVec 32) (hd : ¬ (bad = true ∧ 16 ≤ d.toNat)) :
    ctrlPut d (mkLane b bad) = { writes := [(ctrlLoc d, .put ⟨b, bad⟩)] } := by
  simp only [ctrlPut, mkLane, isAddr, Bool.and_eq_true, decide_eq_true_iff, if_neg hd]

/-- A CTRL operation whose effect is one value for the register that `d` names writes it. -/
theorem Issues.ctrl_wrote {i : Instr} {s u : State} {p : Nat} {h : Header} {op : CtrlOp} {g d : BitVec 5} {b v : BitVec 32}
    {bad : Bool} (hi : Issues i p { hdr := h, ctrl := op, ctrlG := g }) (hm : Meets s p u) (hn : op ≠ .nop)
    (hok : ctrlOk op = true) (hg : guardOk g = true) (h0 : (u.core p).regs.guard0 g = true)
    (hw : u.waits p { hdr := h, ctrl := op, ctrlG := g } = false) (hd : ¬ (bad = true ∧ 16 ≤ d.toNat))
    (he : u.ctrlEval p h.tsm op = ctrlPut d (mkLane b bad)) (hb : b = v) : Goes i s (u.ctrlWrote p h d v bad) :=
  hi.ctrl_issued hm hn hok hg h0 hw (by rw [he, hb, ctrlPut_writes v hd])

/-! ### The integer functions of the ALU, as arithmetic (R174) -/

theorem aluEval_add (x y : BitVec 32) : aluEval .add x y = BitVec.ofNat 32 (x.toNat + y.toNat) := by
  simp [aluEval, BitVec.ofNat_add]

theorem aluEval_sub (x y : BitVec 32) : aluEval .sub x y = BitVec.ofInt 32 (x.toInt - y.toInt) := by
  rw [aluEval, ← BitVec.toInt_inj, BitVec.toInt_sub, BitVec.toInt_ofInt]

theorem aluEval_mul (x y : BitVec 32) : aluEval .mul x y = BitVec.ofNat 32 (x.toNat * y.toNat) := by
  simp [aluEval, BitVec.ofNat_mul]

theorem aluEval_sra (x y : BitVec 32) : aluEval .sra x y = BitVec.ofInt 32 (x.toInt / 2 ^ (y.toNat % 32)) := by
  rw [aluEval, BitVec.sshiftRight, Int.shiftRight_eq_div_pow]
  norm_cast

theorem aluEval_min (x y : BitVec 32) : aluEval .min x y = BitVec.ofInt 32 (min x.toInt y.toInt) := by
  rw [aluEval, Int.min_def, apply_ite (BitVec.ofInt 32), BitVec.ofInt_toInt, BitVec.ofInt_toInt]
  simp only [BitVec.sle_iff_toInt_le]

theorem aluEval_max (x y : BitVec 32) : aluEval .max x y = BitVec.ofInt 32 (max x.toInt y.toInt) := by
  rw [aluEval, Int.max_def, apply_ite (BitVec.ofInt 32), BitVec.ofInt_toInt, BitVec.ofInt_toInt]
  simp only [BitVec.sle_iff_toInt_le]

theorem aluEval_minu (x y : BitVec 32) : aluEval .minu x y = BitVec.ofNat 32 (min x.toNat y.toNat) := by
  rw [aluEval, Nat.min_def, apply_ite (BitVec.ofNat 32), BitVec.ofNat_toNat, BitVec.ofNat_toNat]
  simp only [BitVec.ule_iff_toNat_le, BitVec.setWidth_eq]

theorem aluEval_maxu (x y : BitVec 32) : aluEval .maxu x y = BitVec.ofNat 32 (max x.toNat y.toNat) := by
  rw [aluEval, Nat.max_def, apply_ite (BitVec.ofNat 32), BitVec.ofNat_toNat, BitVec.ofNat_toNat]
  simp only [BitVec.ule_iff_toNat_le, BitVec.setWidth_eq]

/-- R173: MOVHI puts its immediate above the low half of the register. -/
theorem movhi_bits (imm : BitVec 16) (o : BitVec 32) :
    BitVec.ofNat 32 (imm.toNat * 65536 + o.toNat % 65536) = imm ++ o.setWidth 16 := by
  apply BitVec.eq_of_toNat_eq
  have himm := imm.isLt
  have hlow : (o.setWidth 16).toNat < 2 ^ 16 := (o.setWidth 16).isLt
  rw [BitVec.toNat_append, ← Nat.shiftLeft_add_eq_or_of_lt hlow, Nat.shiftLeft_eq, BitVec.toNat_setWidth, BitVec.toNat_ofNat]
  omega

theorem addi_bits (imm : BitVec 16) (o : BitVec 32) : o + imm.signExtend 32 = BitVec.ofInt 32 (o.toInt + imm.toInt) := by
  rw [BitVec.ofInt_add, BitVec.ofInt_toInt]
  rfl

/-- Settles O1: every operation is one value for the register that DST names, and its value is the arithmetic of its rule. -/
theorem scalarOperationsWriteTheirResult : Obligations.ScalarOperationsWriteTheirResult := by
  unfold Obligations.ScalarOperationsWriteTheirResult
  intro s u p h g d a b imm hm hg h0 x y o bad
  have never : ¬ (false = true ∧ 16 ≤ d.toNat) := by simp
  have movi : Issues (.movi p h g d imm) p { hdr := h, ctrl := .movi d imm, ctrlG := g } := fun _ => rfl
  have movhi : Issues (.movhi p h g d imm) p { hdr := h, ctrl := .movhi d imm, ctrlG := g } := fun _ => rfl
  have addi : Issues (.addi p h g d imm) p { hdr := h, ctrl := .addi d imm, ctrlG := g } := fun _ => rfl
  refine ⟨movi.ctrl_wrote hm (by simp) rfl hg h0 rfl never rfl rfl, fun hd => ⟨?_, ?_⟩, fun hd => ?_⟩
  · exact movhi.ctrl_wrote hm (by simp) rfl hg h0 rfl hd rfl (movhi_bits imm o.bits)
  · exact addi.ctrl_wrote hm (by simp) rfl hg h0 rfl hd rfl (addi_bits imm o.bits)
  · have alu {i : Instr} {fn : AluFn} {v : BitVec 32} (hv : aluEval fn x.bits y.bits = v)
        (hi : Issues i p { hdr := h, ctrl := .alu fn d a b, ctrlG := g }) : Goes i s (u.ctrlWrote p h d v bad) :=
      hi.ctrl_wrote hm (by simp) rfl hg h0 rfl hd rfl hv
    exact ⟨alu (aluEval_add _ _) fun _ => rfl, alu (aluEval_sub _ _) fun _ => rfl, alu (aluEval_mul _ _) fun _ => rfl,
      alu (fn := .and) rfl fun _ => rfl, alu (fn := .or) rfl fun _ => rfl, alu (fn := .xor) rfl fun _ => rfl,
      alu (fn := .shl) rfl fun _ => rfl, alu (fn := .shr) rfl fun _ => rfl, alu (aluEval_sra _ _) fun _ => rfl,
      alu (aluEval_min _ _) fun _ => rfl, alu (aluEval_max _ _) fun _ => rfl, alu (aluEval_minu _ _) fun _ => rfl,
      alu (aluEval_maxu _ _) fun _ => rfl, alu (fn := .fadd) rfl fun _ => rfl, alu (fn := .fsub) rfl fun _ => rfl,
      alu (fn := .fmul) rfl fun _ => rfl, alu (fn := .fmin) rfl fun _ => rfl, alu (fn := .fmax) rfl fun _ => rfl⟩

/-! ### Whole predicates (R176, R177) -/

/-- All 64 bits of a predicate tell whether a condition holds. -/
theorem allBits_eq_ite {b : Bool} {c : Prop} [Decidable c] (hbc : b = true ↔ c) :
    allBits b = if c then BitVec.allOnes 64 else 0#64 := by
  simp only [allBits, hbc]

theorem ne_zero_iff_exists_bit (m : BitVec 64) : (m != 0#64) = true ↔ ∃ i : Fin 64, m.getLsbD i = true := by
  constructor
  · intro hne
    refine Classical.byContradiction fun hnone => bne_iff_ne.mp hne (BitVec.eq_of_getLsbD_eq fun i hi => ?_)
    rw [BitVec.getLsbD_zero]
    exact Bool.eq_false_iff.mpr fun hbit => hnone ⟨⟨i, hi⟩, hbit⟩
  · rintro ⟨i, hi⟩
    refine bne_iff_ne.mpr fun hz => ?_
    rw [hz, BitVec.getLsbD_zero] at hi
    exact Bool.false_ne_true hi

theorem eq_allOnes_iff_forall_bit (m : BitVec 64) :
    (m == BitVec.allOnes 64) = true ↔ ∀ i : Fin 64, m.getLsbD i = true := by
  rw [beq_iff_eq]
  constructor
  · rintro rfl i
    rw [BitVec.getLsbD_allOnes, decide_eq_true i.isLt]
  · intro hall
    refine BitVec.eq_of_getLsbD_eq fun i hi => ?_
    rw [BitVec.getLsbD_allOnes, decide_eq_true hi, hall ⟨i, hi⟩]

/-- R176: CMP on good sources writes its condition to a whole predicate. -/
theorem Issues.cmp_writes {i : Instr} {s u : State} {p : Nat} {h : Header} {fn : CmpFn} {g d a b : BitVec 5} {c : Prop}
    [Decidable c] (hi : Issues i p { hdr := h, ctrl := .cmp fn d a b, ctrlG := g }) (hm : Meets s p u)
    (hg : guardOk g = true) (h0 : (u.core p).regs.guard0 g = true) (hd : d.toNat < 8)
    (ha : ((u.core p).regs.ctrl a).poison = false) (hb : ((u.core p).regs.ctrl b).poison = false)
    (hc : cmpEval fn ((u.core p).regs.ctrl a).bits ((u.core p).regs.ctrl b).bits = true ↔ c) :
    Goes i s (u.predWrote p h d (if c then BitVec.allOnes 64 else 0#64)) :=
  hi.ctrl_issued hm (by simp) (decide_eq_true hd) hg h0 rfl (by simp [State.ctrlEval, ha, hb, allBits_eq_ite hc])

/-- R177: a defined PLOG writes its function to a whole predicate. -/
theorem Issues.plog_writes {i : Instr} {s u : State} {p : Nat} {h : Header} {fn : PlogFn} {g d a b : BitVec 5} {v : BitVec 64}
    (hi : Issues i p { hdr := h, ctrl := .plog fn d a b, ctrlG := g }) (hm : Meets s p u) (hg : guardOk g = true)
    (h0 : (u.core p).regs.guard0 g = true) (hok : ctrlOk (.plog fn d a b) = true)
    (hv : plogEval fn ((u.core p).regs.pred a.toNat) ((u.core p).regs.pred b.toNat) = v) :
    Goes i s (u.predWrote p h d v) :=
  hi.ctrl_issued hm (by simp) hok hg h0 rfl (by rw [← hv]; rfl)

/-- Settles O2: CMP by what its condition says, PLOG by its function, with the fields it does not use zero. -/
theorem comparisonsAndPredicateLogicWriteWholePredicates :
    Obligations.ComparisonsAndPredicateLogicWriteWholePredicates := by
  unfold Obligations.ComparisonsAndPredicateLogicWriteWholePredicates
  intro s u p h g d a b hm hg h0 hd x y all
  refine ⟨fun ha hb => ?_, fun ha hb => ?_⟩
  · have cmp {i : Instr} {fn : CmpFn} {c : Prop} [Decidable c] (hc : cmpEval fn x y = true ↔ c)
        (hi : Issues i p { hdr := h, ctrl := .cmp fn d a b, ctrlG := g }) : Goes i s (u.predWrote p h d (all c)) :=
      hi.cmp_writes hm hg h0 hd ha hb hc
    exact ⟨cmp (fn := .eq) beq_iff_eq fun _ => rfl, cmp (fn := .ne) bne_iff_ne fun _ => rfl,
      cmp (fn := .lt) BitVec.slt_iff_toInt_lt fun _ => rfl, cmp (fn := .le) BitVec.sle_iff_toInt_le fun _ => rfl,
      cmp (fn := .ltu) BitVec.ult_iff_toNat_lt fun _ => rfl, cmp (fn := .leu) BitVec.ule_iff_toNat_le fun _ => rfl,
      cmp (fn := .feq) Iff.rfl fun _ => rfl, cmp (fn := .flt) Iff.rfl fun _ => rfl, cmp (fn := .fle) Iff.rfl fun _ => rfl,
      cmp (fn := .nan) Bool.or_eq_true_iff fun _ => rfl⟩
  · have plog {i : Instr} {fn : PlogFn} {a b : BitVec 5} {v : BitVec 64} (hok : ctrlOk (.plog fn d a b) = true)
        (hv : plogEval fn ((u.core p).regs.pred a.toNat) ((u.core p).regs.pred b.toNat) = v)
        (hi : Issues i p { hdr := h, ctrl := .plog fn d a b, ctrlG := g }) : Goes i s (u.predWrote p h d v) :=
      hi.plog_writes hm hg h0 hok hv
    have two : (predField d && predField a && predField b && true) = true := by simp [predField, hd, ha, hb]
    have one : (predField d && predField a && predField 0#5 && (0#5 == 0#5)) = true := by simp [predField, hd, ha]
    have zero : (predField d && predField 0#5 && predField 0#5 && (0#5 == 0#5 && 0#5 == 0#5)) = true := by
      simp [predField, hd]
    exact ⟨plog (fn := .and) two rfl fun _ => rfl, plog (fn := .or) two rfl fun _ => rfl,
      plog (fn := .xor) two rfl fun _ => rfl, plog (fn := .andn) two rfl fun _ => rfl,
      plog (fn := .not) one rfl fun _ => rfl, plog (fn := .mov) one rfl fun _ => rfl,
      plog (fn := .setall) zero rfl fun _ => rfl, plog (fn := .clrall) zero rfl fun _ => rfl,
      plog (fn := .any) one (allBits_eq_ite (ne_zero_iff_exists_bit _)) fun _ => rfl,
      plog (fn := .all) one (allBits_eq_ite (eq_allOnes_iff_forall_bit _)) fun _ => rfl⟩

/-! ### Status reads and stream waits (R187 to R193) -/

/-- R188: WAITSTR that acts on a good count holds its bundle exactly while the count is not reached and the context is ACTIVE. -/
theorem waits_waitstr {u : State} {p : Nat} {h : Header} {g d a : BitVec 5} {n : BitVec 6} (hg : guardOk g = true)
    (h0 : (u.core p).regs.guard0 g = true) (hd : d.toNat < 8) (hn : n.toNat < 8)
    (ha : ((u.core p).regs.ctrl a).poison = false) :
    u.waits p { hdr := h, ctrl := .waitstr d a n, ctrlG := g } =
      (decide ((u.getCtx (8 * (u.core p).stat.lcore + n.toNat)).count < ((u.core p).regs.ctrl a).bits.toNat) &&
        decide ((u.getCtx (8 * (u.core p).stat.lcore + n.toNat)).st = .active)) := by
  simp [State.waits, ctrlOk, predField, ctxKey, Nat.mod_eq_of_lt hn, hg, h0, hd, hn, ha]

/-- R188: WAITSTR that does not hold its bundle writes whether the count is reached. -/
theorem Issues.waitstr_writes {i : Instr} {s u : State} {p : Nat} {h : Header} {g d a : BitVec 5} {n : BitVec 6}
    (hi : Issues i p { hdr := h, ctrl := .waitstr d a n, ctrlG := g }) (hm : Meets s p u) (hg : guardOk g = true)
    (h0 : (u.core p).regs.guard0 g = true) (hd : d.toNat < 8) (hn : n.toNat < 8)
    (ha : ((u.core p).regs.ctrl a).poison = false)
    (hw : u.waits p { hdr := h, ctrl := .waitstr d a n, ctrlG := g } = false) :
    Goes i s (u.predWrote p h d (allBits (decide
      (((u.core p).regs.ctrl a).bits.toNat ≤ (u.getCtx (8 * (u.core p).stat.lcore + n.toNat)).count)))) :=
  hi.ctrl_issued hm (by simp) (by simp [ctrlOk, predField, hd, hn]) hg h0 hw
    (by simp [State.ctrlEval, ctxKey, Nat.mod_eq_of_lt hn, ha])

/-- R188: a bundle that WAITSTR holds stands at the core, and nothing of it takes effect. -/
theorem Issues.held {i : Instr} {s u : State} {p : Nat} {k : Slots} (hi : Issues i p k) (hm : Meets s p u)
    (hw : u.waits p k = true) :
    ∃ w, Goes i s (u.modPipe p fun c => { c with held := some w }) ∧ w.wait = true :=
  ⟨⟨k, true, u.clock.now, ⟨false, [], 0, 1, false, [], [], none⟩, ⟨false, [], 0, 1, false, [], [], none⟩⟩,
    by rw [Goes, hi, issueBundle_of_meets _ hm, State.ready, if_pos hw], rfl⟩

/-- What a core becomes when WAITSTR lets go of the bundle that it held for `d` cycles: they count as stream stall cycles. -/
def CoreRec.released (c : CoreRec) (d : Nat) : CoreRec :=
  { c with
    ctl := { c.ctl with tickStream := satAdd 0xFF c.ctl.tickStream d, stallSum := satAdd 0xFFFF c.ctl.stallSum d }
    pipe := { c.pipe with held := none } }

/-- R188 to R190: a held bundle for which WAITSTR waits no more meets its first request cycle. -/
theorem waitstrRelease_goes {s u : State} {p : PCore} {w : HeldBundle} (hu : u = (s.sync p).syncCtx)
    (hh : (u.core p).pipe.held = some w) (hwait : w.wait = true) (hw : u.waits p w.bundle = false) :
    Goes (.waitstrRelease p) s
      ((u.setCore p ((u.core p).released (u.clock.now - w.since))).firstRequest p w.bundle) := by
  subst hu
  change execWaitstrRelease p s = _
  simp only [execWaitstrRelease, hh, hwait, hw, Bool.not_false, Bool.and_self, if_true, State.modCtl, State.modPipe,
    State.modCore, State.core_setCore_self, State.setCore_setCore, CoreRec.released]

/-- Settles O4: a status read is one value, a stream wait writes or holds, and a held bundle is released. -/
theorem statusReadsAndStreamWaits : Obligations.StatusReadsAndStreamWaits := by
  unfold Obligations.StatusReadsAndStreamWaits
  refine ⟨?_, ?_⟩
  · intro s u p h g d a n hm hg h0 hn c x
    have hfn : decide (n.toNat < 8) = true := decide_eq_true hn
    have hkey : ctxKey c.stat.lcore (n.toNat % 8) = 8 * c.stat.lcore + n.toNat := by rw [Nat.mod_eq_of_lt hn, ctxKey]
    have never : ¬ (false = true ∧ 16 ≤ d.toNat) := by simp
    have strcnt : Issues (.strcnt p h g d n) p { hdr := h, ctrl := .strcnt d n, ctrlG := g } := fun _ => rfl
    have csrrd {i : Instr} {fn : CsrFn} {v : BitVec 32} (hv : u.csr p fn = v)
        (hi : Issues i p { hdr := h, ctrl := .csrrd fn d, ctrlG := g }) : Goes i s (u.ctrlWrote p h d v false) :=
      hi.ctrl_wrote hm (by simp) rfl hg h0 rfl never rfl hv
    have waitstr : Issues (.waitstr p h g d a n) p { hdr := h, ctrl := .waitstr d a n, ctrlG := g } := fun _ => rfl
    refine ⟨?_, ?_, ?_, ?_, ?_, ?_, ?_, fun hd ha => ?_⟩
    · exact strcnt.ctrl_wrote hm (by simp) hfn hg h0 rfl never rfl (by rw [hkey])
    · exact csrrd (fn := .lcore) rfl fun _ => rfl
    · exact csrrd (fn := .tickLo) (BitVec.setWidth_eq_extractLsb' (by decide)) fun _ => rfl
    · exact csrrd (fn := .tickHi) BitVec.setWidth_ushiftRight_eq_extractLsb fun _ => rfl
    · exact csrrd (fn := .cycle) rfl fun _ => rfl
    · exact csrrd (fn := .mapGen) rfl fun _ => rfl
    · exact csrrd (fn := .tickLen) rfl fun _ => rfl
    · have hwaits := waits_waitstr (h := h) hg h0 hd hn ha
      refine ⟨fun hreached => ?_, fun hshort hleft => ?_, fun hshort hactive => ?_⟩
      · have hgo := waitstr.waitstr_writes hm hg h0 hd hn ha
          (by rw [hwaits, decide_eq_false (Nat.not_lt.mpr hreached), Bool.false_and])
        rwa [decide_eq_true hreached] at hgo
      · have hgo := waitstr.waitstr_writes hm hg h0 hd hn ha (by rw [hwaits, decide_eq_false hleft, Bool.and_false])
        rwa [decide_eq_false (Nat.not_le.mpr hshort)] at hgo
      · exact waitstr.held hm (by rw [hwaits, decide_eq_true hshort, decide_eq_true hactive, Bool.and_self])
  · intro s u p w hu hh hwait _ hw
    exact ⟨_, waitstrRelease_goes hu hh hwait hw, rfl, rfl, rfl, rfl⟩

end Sys2Proof.Machine
end

section
/-! PROOFS. Mailboxes: the lock, the doorbell, the answer and the data words, dead owners, and the services ECHO, VERSION and OVERRUN
(R233, R470 to R476, R601). -/

namespace Sys2Proof.Machine

open Sys2Proof

/-! ### A mailbox after a change of it -/

@[simp] theorem State.box_modBox_self (s : State) (m : Nat) (f : MbxRec → MbxRec) : (s.modBox m f).box m = f (s.box m) :=
  tget_tput_self ..

theorem State.box_modBox_other (s : State) {m j : Nat} (f : MbxRec → MbxRec) (h : j ≠ m) : (s.modBox m f).box j = s.box j :=
  tget_tput_other _ _ _ h

/-- Two changes of one mailbox are one change. -/
theorem State.modBox_modBox (s : State) (m : Nat) (f g : MbxRec → MbxRec) :
    (s.modBox m f).modBox m g = s.modBox m (g ∘ f) := by
  simp [State.modBox, State.modHif, tmod]

@[simp] theorem State.box_raise (s : State) (code node unit : Nat) (vals : List (Nat × Nat)) (m : Nat) :
    (s.raise code node unit vals).box m = s.box m := rfl

@[simp] theorem State.box_dropXfers (s : State) (use : XferFor) (m : Nat) : (s.dropXfers use).box m = s.box m := rfl

@[simp] theorem State.box_ackBox_self (s : State) (m rcode : Nat) :
    (s.ackBox m rcode).box m = { s.box m with rcode := rcode, done := true, pending := false } :=
  s.box_modBox_self m _

@[simp] theorem State.box_freeBox_self (s : State) (m : Nat) :
    (s.freeBox m).box m = { s.box m with owner := 0, pending := false, data := [] } := by
  simp [State.freeBox]

theorem State.box_freeBox_other (s : State) {m j : Nat} (h : j ≠ m) : (s.freeBox m).box j = s.box j := by
  rw [State.freeBox, State.box_dropXfers, State.box_modBox_other _ _ h]

/-! ### The lock (R470, R471) -/

theorem State.lockRead_shut (s : State) {m agent : Nat} (hm : mayUse m agent = false) : (s.lockRead m agent).1 = s := by
  simp [State.lockRead, hm]

theorem State.lockRead_free {s : State} {m agent : Nat} (hm : mayUse m agent = true) (ho : (s.box m).owner = 0) :
    (s.lockRead m agent).1 = s.modBox m fun b => { b with owner := agent } := by
  simp [State.lockRead, hm, ho]

theorem State.lockRead_owned {s : State} {m : Nat} (agent : Nat) (ho : (s.box m).owner ≠ 0) : (s.lockRead m agent).1 = s := by
  simp only [State.lockRead, if_neg ho]
  split
  · rfl
  · split <;> rfl

theorem State.lockWrite_owner {s : State} {m agent : Nat} (hm : mayUse m agent = true) (ho : (s.box m).owner = agent) :
    s.lockWrite m agent agent = s.freeBox m := by
  simp [State.lockWrite, hm, ho]

theorem State.lockWrite_ignored {s : State} {m agent n : Nat}
    (h : mayUse m agent = false ∨ (s.box m).owner ≠ agent ∨ n ≠ agent) : s.lockWrite m agent n = s := by
  refine if_neg fun hall => ?_
  simp only [Bool.and_eq_true, beq_iff_eq] at hall
  obtain ⟨⟨hm, ho⟩, hn⟩ := hall
  simp [hm, ho, hn] at h

/-! ### The doorbell (R472, R473) -/

/-- A mailbox with a service rung in it, as number `ring` among all doorbells. -/
def MbxRec.rang (b : MbxRec) (service ring : Nat) : MbxRec :=
  { b with service := service % 65536, pending := true, done := false, rung := ring }

/-- The state in which a mailbox has been rung, before its receiver is told or firmware answers. -/
def State.rang (s : State) (m service : Nat) : State :=
  (s.modBox m fun b => b.rang service s.hif.nextRing).modHif fun h => { h with nextRing := h.nextRing + 1 }

@[simp] theorem State.box_rang_self (s : State) (m service : Nat) :
    (s.rang m service).box m = (s.box m).rang service s.hif.nextRing :=
  s.box_modBox_self m fun b => b.rang service s.hif.nextRing

/-- The firmware of a steward receives for the mailbox, and does not serve what is rung. -/
abbrev MbxRec.Unserved (b : MbxRec) (m service : Nat) : Prop :=
  (b.receiver = 0x10 ∨ b.receiver = 0x11) ∧ served m (service % 65536) = false

theorem MbxRec.Unserved.not_host {b : MbxRec} {m service : Nat} (h : b.Unserved m service) : ¬ b.receiver < 3 := by
  obtain ⟨hfw, -⟩ := h
  omega

section
variable {s : State} {m agent : Nat}

theorem State.dbWrite_ignored {service : Nat}
    (h : mayUse m agent = false ∨ (s.box m).owner ≠ agent ∨ (s.box m).pending = true) : s.dbWrite m agent service = s := by
  refine if_pos ?_
  simp only [Bool.or_eq_true, Bool.not_eq_true', Bool.and_eq_false_iff, beq_eq_false_iff_ne]
  exact or_assoc.mpr h

variable (service : Nat) (hm : mayUse m agent = true) (ho : (s.box m).owner = agent) (hp : (s.box m).pending = false)
include hm ho hp

/-- The owner's ring of a mailbox with no pending request: what comes of it is the receiver's. -/
theorem State.dbWrite_owner : s.dbWrite m agent service =
    if (s.box m).receiver < 3 then (s.rang m service).raise 0x0801 panelNode m [(1, m)]
    else if (s.box m).Unserved m service then (s.rang m service).ackBox m 0x0CC
    else s.rang m service := by
  simp only [State.dbWrite, hm, ho, hp, beq_self_eq_true, Bool.and_self, Bool.not_true, Bool.or_self, Bool.false_eq_true, if_false,
    MbxRec.Unserved, Bool.not_eq_true']
  rfl

theorem State.dbWrite_host (hr : (s.box m).receiver < 3) :
    s.dbWrite m agent service = (s.rang m service).raise 0x0801 panelNode m [(1, m)] := by
  rw [State.dbWrite_owner service hm ho hp, if_pos hr]

theorem State.dbWrite_unserved (hu : (s.box m).Unserved m service) :
    s.dbWrite m agent service = (s.rang m service).ackBox m 0x0CC := by
  rw [State.dbWrite_owner service hm ho hp, if_neg hu.not_host, if_pos hu]

theorem State.dbWrite_served (hr : ¬ (s.box m).receiver < 3) (hu : ¬ (s.box m).Unserved m service) :
    s.dbWrite m agent service = s.rang m service := by
  rw [State.dbWrite_owner service hm ho hp, if_neg hr, if_neg hu]

/-- Whoever receives, the mailbox stands rung, or is answered at once. -/
theorem State.box_dbWrite : (s.dbWrite m agent service).box m =
    if (s.box m).Unserved m service then
      { (s.box m).rang service s.hif.nextRing with rcode := 0x0CC, done := true, pending := false }
    else (s.box m).rang service s.hif.nextRing := by
  by_cases hu : (s.box m).Unserved m service
  · rw [State.dbWrite_unserved service hm ho hp hu, if_pos hu]
    simp
  · rw [if_neg hu]
    by_cases hr : (s.box m).receiver < 3
    · rw [State.dbWrite_host service hm ho hp hr]
      simp
    · rw [State.dbWrite_served service hm ho hp hr hu]
      simp

/-- A ring leaves the owner and the data words. -/
theorem State.box_dbWrite_fields : ((s.dbWrite m agent service).box m).service = service % 65536 ∧
    ((s.dbWrite m agent service).box m).owner = agent ∧ ((s.dbWrite m agent service).box m).data = (s.box m).data := by
  rw [State.box_dbWrite service hm ho hp]
  split <;> exact ⟨rfl, ho, rfl⟩

end

/-! ### The answer and the data words (R471, R472, R474) -/

theorem State.ackWrite_receiver {s : State} {m agent : Nat} (rcode : BitVec 16) (hm : mayUse m agent = true)
    (hr : (s.box m).receiver = agent) (hp : (s.box m).pending = true) :
    s.ackWrite m agent rcode.toNat = s.ackBox m rcode.toNat := by
  simp [State.ackWrite, hm, hr, hp, Nat.mod_eq_of_lt rcode.isLt]

theorem State.ackWrite_ignored {s : State} {m agent rcode : Nat}
    (h : mayUse m agent = false ∨ (s.box m).receiver ≠ agent ∨ (s.box m).pending = false) : s.ackWrite m agent rcode = s := by
  refine if_neg fun hall => ?_
  simp only [Bool.and_eq_true, beq_iff_eq] at hall
  obtain ⟨⟨hm, hr⟩, hp⟩ := hall
  simp [hm, hr, hp] at h

/-- The agent may write the data words: the receiver while a request is pending, and the owner while none is. -/
abbrev MbxRec.Writes (b : MbxRec) (agent : Nat) : Prop := if b.pending then b.receiver = agent else b.owner = agent

theorem MbxRec.writes_iff (b : MbxRec) (agent : Nat) :
    (if b.pending then b.receiver == agent else b.owner == agent) = true ↔ b.Writes agent := by
  cases h : b.pending <;> simp [MbxRec.Writes, h]

theorem State.dataWrite_allowed {s : State} {m agent : Nat} (w : Nat) (v : BitVec 32) (hm : mayUse m agent = true)
    (hw : (s.box m).Writes agent) :
    s.dataWrite m agent w v = s.modBox m fun b => { b with data := mset 0#32 b.data w v } :=
  if_pos (Bool.and_eq_true_iff.mpr ⟨hm, (MbxRec.writes_iff ..).mpr hw⟩)

theorem State.dataWrite_ignored {s : State} {m agent w : Nat} {v : BitVec 32}
    (h : mayUse m agent = false ∨ ¬ (s.box m).Writes agent) : s.dataWrite m agent w v = s := by
  refine if_neg fun hall => ?_
  obtain ⟨hm, hw⟩ := Bool.and_eq_true_iff.mp hall
  rcases h with h | h
  · simp [hm] at h
  · exact h ((MbxRec.writes_iff ..).mp hw)

/-! ### The mailboxes of a dead owner (R475) -/

/-- A value other than the default is listed. -/
theorem mem_of_tget_ne {α : Type} {d : α} {t : Tab α} {k : Nat} (h : tget d t k ≠ d) : (k, tget d t k) ∈ t := by
  induction t with
  | nil => exact absurd rfl h
  | cons e r ih =>
    obtain ⟨k', v⟩ := e
    by_cases hk : k' = k
    · simp [tget, hk]
    · simp only [tget, if_neg hk] at h ⊢
      exact List.mem_cons_of_mem _ (ih h)

/-- A free mailbox, with no request pending and its data words zero. -/
def MbxRec.Freed (b : MbxRec) : Prop := b.owner = 0 ∧ b.pending = false ∧ b.data = []

/-- What firmware does for one mailbox of a dead owner: it frees it, and tells host software. -/
def State.forceFree (s : State) (m : Nat) : State := (s.freeBox m).raise 0x0802 panelNode m []

@[simp] theorem State.freed_forceFree_self (s : State) (m : Nat) : ((s.forceFree m).box m).Freed := by
  simp [State.forceFree, MbxRec.Freed]

/-- A freed mailbox stays freed when any mailbox is freed. -/
theorem State.freed_forceFree {s : State} {j : Nat} (h : (s.box j).Freed) (m : Nat) : ((s.forceFree m).box j).Freed := by
  by_cases hj : j = m
  · rw [hj]
    exact s.freed_forceFree_self m
  · rwa [State.forceFree, State.box_raise, State.box_freeBox_other s hj]

theorem State.freed_each {s : State} {j : Nat} (h : (s.box j).Freed) (ms : List Nat) :
    ((s.each State.forceFree ms).box j).Freed := by
  induction ms generalizing s with
  | nil => exact h
  | cons m ms ih => exact ih (State.freed_forceFree h m)

theorem State.freed_each_of_mem {s : State} {j : Nat} {ms : List Nat} (hj : j ∈ ms) :
    ((s.each State.forceFree ms).box j).Freed := by
  induction hj generalizing s with
  | head ms => exact State.freed_each (s.freed_forceFree_self j) ms
  | tail m _ ih => exact ih

/-- The mailboxes that an agent owns, as the table lists them. -/
def State.ownedBoxes (s : State) (agent : Nat) : List Nat := (s.hif.mbx.filter fun e => e.2.owner == agent).map (·.1)

theorem State.mem_ownedBoxes {s : State} {j agent : Nat} (ha : agent ≠ 0) (ho : (s.box j).owner = agent) :
    j ∈ s.ownedBoxes agent := by
  have hne : s.box j ≠ {} := fun h => ha (by rw [← ho, h])
  exact List.mem_map.mpr ⟨(j, s.box j), List.mem_filter.mpr ⟨mem_of_tget_ne hne, beq_iff_eq.mpr ho⟩, rfl⟩

/-- R475: an owner that is dead loses its mailboxes; host software counts as dead only with both links down. -/
theorem mbxForced_goes {s : State} {agent : Nat} (ha : agent ≠ 0) (hd : agent = 1 ∨ agent = 2 → s.anyLink = false) :
    Goes (.mbxForced agent) s (s.each State.forceFree (s.ownedBoxes agent)) := by
  refine if_neg ?_
  rintro (h | ⟨hhost, hlink⟩)
  · exact ha h
  · simp [hd hhost] at hlink

/-! ### Services that firmware answers (R233, R476) -/

section
variable {s : State} {m : Mbx}

/-- The commands of MB8 up act when their service is asked. -/
theorem asked_upper {service : Nat} (h8 : 8 ≤ m.val) (ha : s.asked m service = true) :
    (decide (8 ≤ m.val) && s.asked m service) = true :=
  Bool.and_eq_true_iff.mpr ⟨decide_eq_true h8, ha⟩

theorem echo_goes (h8 : 8 ≤ m.val) (ha : s.asked m 1 = true) : Goes (.echo m) s (s.ackBox m 0) :=
  congrArg Host.Outcome.next (if_pos (asked_upper h8 ha))

/-- The words of VERSION: the four of the version string in force, and the map's generation. -/
def State.versionWords (s : State) (version : List (BitVec 8)) : List Nat :=
  [leField version 0 4, leField version 4 4, leField version 8 4, leField version 12 4, s.panel.mapGen.toNat]

theorem version_goes {k : Nat} {i : FwImage} (h8 : 8 ≤ m.val) (ha : s.asked m 2 = true) (hi : tfind s.sec.inForce 1 = some (k, i)) :
    Goes (.version m) s (s.replyBox m (s.versionWords i.version)) := by
  change execVersion m s = _
  simp only [execVersion, hi, if_pos (asked_upper h8 ha)]
  rfl

/-- The policy that OVERRUN sets for later jobs by its request word. -/
def Clock.withOverrun (c : Clock) (w : Nat) : Clock :=
  { c with
    stretch := !bitOf w 0
    stretchLen := if bitOf w 0 then c.stretchLen else 256 * if bitsOf w 8 4 = 0 then 16 else bitsOf w 8 4 }

theorem Clock.stretchLen_withOverrun (c : Clock) {w : Nat} (h : bitOf w 0 = false) :
    (c.withOverrun w).stretchLen = 256 * if bitsOf w 8 4 = 0 then 16 else bitsOf w 8 4 := by
  simp [Clock.withOverrun, h]

theorem overrun_goes_notReady (h8 : 8 ≤ m.val) (ha : s.asked m 3 = true) (hr : s.panel.mode ≠ .ready) :
    Goes (.overrun m) s (s.ackBox m 0x0CD) := by
  change execOverrun m s = _
  simp [execOverrun, h8, ha, hr]

theorem overrun_goes_ready (h8 : 8 ≤ m.val) (ha : s.asked m 3 = true) (hr : s.panel.mode = .ready) :
    Goes (.overrun m) s ({ s with clock := s.clock.withOverrun ((s.box m).word 0) }.ackBox m 0) := by
  change execOverrun m s = _
  simp [execOverrun, h8, ha, hr, Clock.withOverrun]

end

/-! ### The accesses as commands -/

section
variable {s t : State} {m : Mbx} {agent : Nat}

theorem mbxLockRead_goes (h : (s.lockRead m agent).1 = t) : Goes (.mbxLockRead m agent) s t := congrArg Host.Outcome.next h

theorem mbxLockWrite_goes {n : Nat} (h : s.lockWrite m agent n = t) : Goes (.mbxLockWrite m agent n) s t :=
  congrArg Host.Outcome.next h

theorem mbxDbWrite_goes {n : Nat} (h : s.dbWrite m agent n = t) : Goes (.mbxDbWrite m agent n) s t :=
  congrArg Host.Outcome.next h

theorem mbxAckWrite_goes {rcode : BitVec 16} (h : s.ackWrite m agent rcode.toNat = t) : Goes (.mbxAckWrite m agent rcode) s t :=
  congrArg Host.Outcome.next h

theorem mbxDataWrite_goes {w : Fin 16} {v : BitVec 32} (h : s.dataWrite m agent w v = t) : Goes (.mbxDataWrite m agent w v) s t :=
  congrArg Host.Outcome.next h

end

/-- R472, R473: the owner's ring of a mailbox with no pending request, by its receiver. -/
theorem mbxDbWrite_rings {s : State} {m : Mbx} {agent : Nat} (n : Nat) (hm : mayUse m agent = true)
    (ho : (s.box m).owner = agent) (hp : (s.box m).pending = false) :
    let t := s.dbWrite m agent n
    let firmware := (s.box m).receiver = 0x10 ∨ (s.box m).receiver = 0x11
    ((s.box m).receiver < 3 → (t.box m).pending = true ∧ (t.box m).done = false ∧
      ∃ e, t.evq.travelling = s.evq.travelling ++ [e] ∧ e.code = 0x0801 ∧ e.unit = m.val) ∧
    (firmware → served m (n % 65536) = false → (t.box m).pending = false ∧ (t.box m).done = true ∧ (t.box m).rcode = 0x0CC) ∧
    (firmware → served m (n % 65536) = true → (t.box m).pending = true ∧ (t.box m).done = false ∧ t.evq = s.evq) := by
  intro t firmware
  refine ⟨fun hr => ?_, fun hfw hs => ?_, fun hfw hs => ?_⟩
  · rw [show t = _ from State.dbWrite_host n hm ho hp hr, State.box_raise, State.box_rang_self]
    exact ⟨rfl, rfl, _, rfl, rfl, rfl⟩
  · rw [show t = _ from State.dbWrite_unserved n hm ho hp ⟨hfw, hs⟩, State.box_ackBox_self]
    exact ⟨rfl, rfl, rfl⟩
  · have hr : ¬ (s.box m).receiver < 3 := by omega
    have hu : ¬ (s.box m).Unserved m n := fun hu => Bool.false_ne_true (hu.2.symm.trans hs)
    rw [show t = _ from State.dbWrite_served n hm ho hp hr hu, State.box_rang_self]
    exact ⟨rfl, rfl, rfl⟩

/-- Settles O41: each access of a mailbox by whether the agent may make it, and each service by its answer. -/
theorem mailboxesAreClaimedRungAndAnswered : Obligations.MailboxesAreClaimedRungAndAnswered := by
  unfold Obligations.MailboxesAreClaimedRungAndAnswered
  intro s m agent n value rcode w b put firmware
  refine ⟨fun hm => ?shut, fun hm => ?allowed, fun ha hd => ?dead, fun h8 => ?services⟩
  case shut =>
    exact ⟨mbxLockRead_goes (s.lockRead_shut hm), mbxLockWrite_goes (State.lockWrite_ignored (.inl hm)),
      mbxDbWrite_goes (State.dbWrite_ignored (.inl hm)), mbxAckWrite_goes (State.ackWrite_ignored (.inl hm)),
      mbxDataWrite_goes (State.dataWrite_ignored (.inl hm))⟩
  case allowed =>
    refine ⟨fun ho => ?_, fun ho => ?_, fun ho => ?_, fun hno => ?_, fun ho hp => ?_, fun hno => ?_, fun hr hp => ?_,
      fun hno => ?_, fun hw => ?_, fun hno => ?_⟩
    · exact mbxLockRead_goes (State.lockRead_free hm ho)
    · exact mbxLockRead_goes (State.lockRead_owned agent ho)
    · exact ⟨_, mbxLockWrite_goes (State.lockWrite_owner hm ho), s.box_freeBox_self m, fun j hj => s.box_freeBox_other hj⟩
    · exact mbxLockWrite_goes (State.lockWrite_ignored (.inr hno))
    · obtain ⟨hservice, howner, hdata⟩ := State.box_dbWrite_fields n hm ho hp
      exact ⟨_, mbxDbWrite_goes rfl, hservice, howner, hdata, mbxDbWrite_rings n hm ho hp⟩
    · exact mbxDbWrite_goes (State.dbWrite_ignored (.inr hno))
    · exact mbxAckWrite_goes (State.ackWrite_receiver rcode hm hr hp)
    · exact mbxAckWrite_goes (State.ackWrite_ignored (.inr hno))
    · exact mbxDataWrite_goes (State.dataWrite_allowed w value hm hw)
    · exact mbxDataWrite_goes (State.dataWrite_ignored (.inr hno))
  case dead =>
    exact ⟨_, mbxForced_goes ha hd, fun j ho => State.freed_each_of_mem (State.mem_ownedBoxes ha ho)⟩
  case services =>
    refine ⟨fun hs => echo_goes h8 hs, fun k i hs hi => ?_, fun hs => ⟨fun hr => overrun_goes_notReady h8 hs hr, fun hr => ?_⟩⟩
    · have hgo := version_goes h8 hs hi
      rwa [State.replyBox, State.ackBox, State.modBox_modBox] at hgo
    · exact ⟨_, overrun_goes_ready h8 hs hr, State.box_ackBox_self .., rfl, rfl, s.clock.stretchLen_withOverrun⟩

end Sys2Proof.Machine
end

section
/-! PROOFS. Frequency steps: host software's limit, the change that firmware schedules with its lead, lowers or holds back, and the
boundary at which it takes effect (R518, R543 to R546). -/

namespace Sys2Proof.Machine

open Sys2Proof

/-! ### Reading a table that is changed throughout -/

/-- A lookup finds the value of the listed key, changed. -/
theorem tfind_tmap {α : Type} (f : Nat → α → α) (t : Tab α) (k : Nat) : tfind (tmap f t) k = (tfind t k).map (f k) := by
  induction t with
  | nil => rfl
  | cons e r ih =>
    obtain ⟨k', v⟩ := e
    by_cases hk : k' = k
    · simp [tmap, tfind, hk]
    · simpa [tmap, tfind, hk] using ih

/-- A table reads as its lookup finds, and as its default where that finds nothing. -/
theorem tget_eq_tfind_getD {α : Type} (d : α) (t : Tab α) (k : Nat) : tget d t k = (tfind t k).getD d := by
  induction t with
  | nil => rfl
  | cons e r ih =>
    obtain ⟨k', v⟩ := e
    by_cases hk : k' = k
    · simp [tget, tfind, hk]
    · simpa [tget, tfind, hk] using ih

/-- An event that is raised sets out. -/
theorem State.raise_travels (s : State) (code node unit : Nat) (vals : List (Nat × Nat)) :
    ∃ e ∈ (s.raise code node unit vals).evq.travelling, e.code = code :=
  ⟨_, List.mem_append_right _ (List.mem_singleton_self _), rfl⟩

/-! ### Setpoints (R518) -/

section
variable (s : State) (step : Nat)

@[simp] theorem State.setSetpoints_job : (s.setSetpoints step).job = s.job := rfl
@[simp] theorem State.setSetpoints_cores : (s.setSetpoints step).cores = s.cores := rfl
@[simp] theorem State.setSetpoints_panel : (s.setSetpoints step).panel = s.panel := rfl
@[simp] theorem State.setSetpoints_clock : (s.setSetpoints step).clock = s.clock := rfl
@[simp] theorem State.setSetpoints_clk : (s.setSetpoints step).clk = s.clk := rfl

end

/-- An erg that is up takes the setpoint of the step. -/
theorem State.setpoint_setSetpoints {s : State} (step : Nat) {e : Nat} {x : ErgPwr} (hx : tfind s.pwr.ergs e = some x)
    (hup : x.mode = .up) : ((s.setSetpoints step).ergPwr e).setpoint = setpointOf step := by
  simp only [State.ergPwr, State.setSetpoints, State.modPwr_pwr, tget_eq_tfind_getD, tfind_tmap, hx, Option.map_some, Option.getD_some]
  rw [if_pos (.inl hup)]

/-! ### A change that firmware schedules (R544 to R546) -/

section
variable {s : State}

theorem stepRequest_goes {value : BitVec 32} (hr : bitsOf value.toNat 16 4 ≤ 5) :
    Goes (.stepRequest value) s (s.modClk fun c => { c with req := bitsOf value.toNat 16 4 }) :=
  congrArg Host.Outcome.next (if_pos hr)

theorem stepRequest_ignored {value : BitVec 32} (hr : 5 < bitsOf value.toNat 16 4) : Goes (.stepRequest value) s s :=
  congrArg Host.Outcome.next (if_neg (Nat.not_le.mpr hr))

/-- With no change pending and the step that the limits call for in force there is nothing to do. -/
theorem stepChangeRequest_settled (hp : s.clk.pending = false) (hw : s.stepWanted = s.clk.step) : Goes .stepChangeRequest s s := by
  show execStepChangeRequest s = .next s
  simp [execStepChangeRequest, hp, hw]

/-- R544: with no change pending, another step is scheduled for the first boundary that meets its lead. -/
theorem stepChangeRequest_schedules (hp : s.clk.pending = false) (hw : s.stepWanted ≠ s.clk.step) :
    Goes .stepChangeRequest s ((s.modClk fun c =>
      { c with next := s.stepWanted, pending := true, atTick := BitVec.ofNat 64 (s.leadTick s.stepWanted) }).setSetpoints
        (min s.stepWanted s.clk.step)) := by
  show execStepChangeRequest s = _
  simp [execStepChangeRequest, hp, hw]

/-- A limit is met where the pending change, or the drop held back behind it, is slow enough. -/
theorem slowEnough_iff (want : Nat) (c : Clk) :
    (want ≤ c.next ∨ c.drop.any (fun d => decide (want ≤ d.1)) = true) ↔ want ≤ c.next ∨ ∃ d, c.drop = some d ∧ want ≤ d.1 := by
  cases c.drop <;> simp

theorem not_slowEnough {want : Nat} {c : Clk} (hw : c.next < want) (hd : ∀ d, c.drop = some d → d.1 < want) :
    ¬ (want ≤ c.next ∨ c.drop.any (fun d => decide (want ≤ d.1)) = true) := by
  rw [slowEnough_iff]
  rintro (h | ⟨d, hdrop, h⟩)
  · exact absurd h (Nat.not_le.mpr hw)
  · exact absurd h (Nat.not_le.mpr (hd d hdrop))

/-- A change that is slow enough stands. -/
theorem stepChangeRequest_stands (hp : s.clk.pending = true)
    (hw : s.stepWanted ≤ s.clk.next ∨ ∃ d, s.clk.drop = some d ∧ s.stepWanted ≤ d.1) : Goes .stepChangeRequest s s := by
  show execStepChangeRequest s = .next s
  simp only [execStepChangeRequest, hp, Bool.not_true, Bool.false_eq_true, if_false, if_pos ((slowEnough_iff ..).mpr hw)]

/-- R546: a pending change becomes the drop, at its own tick, where that meets the lead. -/
theorem stepChangeRequest_lowers (hp : s.clk.pending = true) (hw : s.clk.next < s.stepWanted)
    (hd : ∀ d, s.clk.drop = some d → d.1 < s.stepWanted) (hl : s.leadTick s.stepWanted ≤ s.clk.atTick.toNat) :
    Goes .stepChangeRequest s ((s.modClk fun c => { c with next := s.stepWanted, drop := none }).setSetpoints
      (min s.stepWanted s.clk.step)) := by
  show execStepChangeRequest s = _
  simp only [execStepChangeRequest, hp, Bool.not_true, Bool.false_eq_true, if_false, if_neg (not_slowEnough hw hd), if_pos hl]

/-- R546: a drop that cannot be in time for the pending change's tick is held back behind it. -/
theorem stepChangeRequest_holdsBack (hp : s.clk.pending = true) (hw : s.clk.next < s.stepWanted)
    (hd : ∀ d, s.clk.drop = some d → d.1 < s.stepWanted) (hl : s.clk.atTick.toNat < s.leadTick s.stepWanted) :
    Goes .stepChangeRequest s (s.modClk fun c =>
      { c with drop := some (s.stepWanted, max (s.leadTick s.stepWanted) (c.atTick.toNat + 1)) }) := by
  show execStepChangeRequest s = _
  simp only [execStepChangeRequest, hp, Bool.not_true, Bool.false_eq_true, if_false, if_neg (not_slowEnough hw hd),
    if_neg (Nat.not_le.mpr hl)]

/-! ### The boundary at which a change takes effect (R246, R544) -/

/-- The pending step in force, with its setpoints and its event. -/
def State.stepTaken (s : State) : State :=
  ((s.modClk fun c => { c with step := c.next, pending := false }).setSetpoints s.clk.next).raise 0x0B03 panelNode noUnit []

section
variable (s : State)

@[simp] theorem State.stepTaken_job : s.stepTaken.job = s.job := rfl
@[simp] theorem State.stepTaken_cores : s.stepTaken.cores = s.cores := rfl
@[simp] theorem State.stepTaken_panel : s.stepTaken.panel = s.panel := rfl
@[simp] theorem State.stepTaken_clock : s.stepTaken.clock = s.clock := rfl
@[simp] theorem State.stepTaken_clk : s.stepTaken.clk = { s.clk with step := s.clk.next, pending := false } := rfl

theorem State.stepTaken_told : ∃ e ∈ s.stepTaken.evq.travelling, e.code = 0x0B03 := State.raise_travels ..

end

theorem State.stepDue_of_not_due (h : s.clk.pending = false ∨ s.clock.tick.toNat < s.clk.atTick.toNat) : s.stepDue = s := by
  rw [State.stepDue, if_neg]
  rintro ⟨hp, ht⟩
  obtain h | h := h
  · exact Bool.false_ne_true (h.symm.trans hp)
  · exact absurd ht (Nat.not_le.mpr h)

theorem State.stepDue_of_due (hp : s.clk.pending = true) (ht : s.clk.atTick.toNat ≤ s.clock.tick.toNat) (hd : s.clk.drop = none) :
    s.stepDue = s.stepTaken := by
  simp only [State.stepDue, State.stepTaken, if_pos (And.intro hp ht), hd]

theorem State.stepDue_of_due_drop (hp : s.clk.pending = true) (ht : s.clk.atTick.toNat ≤ s.clock.tick.toNat) {d : Nat × Nat}
    (hd : s.clk.drop = some d) :
    s.stepDue = (s.stepTaken.modClk fun c =>
      { c with next := d.1, pending := true, atTick := BitVec.ofNat 64 d.2, drop := none }).setSetpoints (min d.1 s.clk.next) := by
  simp only [State.stepDue, State.stepTaken, if_pos (And.intro hp ht), hd]

theorem stepChange_idle (h : s.clock.now ≠ s.clock.start ∨ s.clk.pending = false ∨ s.clock.tick.toNat < s.clk.atTick.toNat) :
    Goes .stepChange s s := by
  refine congrArg Host.Outcome.next ?_
  obtain h | h := h
  · exact if_neg h
  · rw [State.stepDue_of_not_due h, ite_self]

theorem stepChange_goes (h : s.clock.now = s.clock.start) : Goes .stepChange s s.stepDue :=
  congrArg Host.Outcome.next (if_pos h)

end

/-- Settles O49: the request and the boundary, each by whether a change is pending and by what its drop and its tick allow. -/
theorem stepChangesAreScheduledAndTakeEffect : Obligations.StepChangesAreScheduledAndTakeEffect := by
  unfold Obligations.StepChangesAreScheduledAndTakeEffect
  intro s value c r want lead same
  refine ⟨stepRequest_goes, stepRequest_ignored, stepChangeRequest_settled, fun hp hw => ?schedules, stepChangeRequest_stands,
    fun hp hw hd => ⟨fun hl => ?lowers, fun hl => ?holdsBack⟩, stepChange_idle, fun hnow hp ht => ?takes⟩
  case schedules =>
    exact ⟨_, stepChangeRequest_schedules hp hw, ⟨rfl, rfl, rfl, rfl⟩, rfl, rfl, fun e x hx hup => State.setpoint_setSetpoints _ hx hup⟩
  case lowers => exact ⟨_, stepChangeRequest_lowers hp hw hd hl, ⟨rfl, rfl, rfl, rfl⟩, rfl⟩
  case holdsBack => exact ⟨_, stepChangeRequest_holdsBack hp hw hd hl, ⟨rfl, rfl, rfl, rfl⟩, rfl⟩
  case takes =>
    refine ⟨_, stepChange_goes hnow, ?_⟩
    obtain hd | ⟨d, hd⟩ := Option.eq_none_or_eq_some s.clk.drop
    · rw [State.stepDue_of_due hp ht hd]
      exact ⟨⟨rfl, rfl, rfl, rfl⟩, rfl, s.stepTaken_told,
        fun _ => ⟨rfl, fun e x hx hup => State.setpoint_setSetpoints (s := s.modClk _) _ hx hup⟩,
        fun d h => absurd (hd.symm.trans h) nofun⟩
    · rw [State.stepDue_of_due_drop hp ht hd]
      refine ⟨by simp [same], by simp [c], s.stepTaken_told, fun h => absurd (hd.symm.trans h) nofun, fun d' h => ?_⟩
      obtain rfl : d = d' := Option.some.inj (hd.symm.trans h)
      simp [c]

end Sys2Proof.Machine
end

section
/-! PROOFS. What the loss of a die leaves alone: clocks, routers, and the role of every site that is retired (R49, R485, R654). -/

namespace Sys2Proof.Machine

open Sys2Proof

/-! ### Clocks, roles and routers of the sites -/

/-- What stands of the sites: their clocks, their roles and which of their routers are up. -/
def State.siting (s : State) : Clk × Tab Role × Tab Bool := (s.clk, s.panel.role, s.panel.routerUp)

/-- A change that keeps the siting at every element keeps it over a list. -/
theorem siting_foldl {α : Type} {f : State → α → State} (hf : ∀ s x, (f s x).siting = s.siting) (l : List α) (s : State) :
    (l.foldl f s).siting = s.siting := by
  induction l generalizing s with
  | nil => rfl
  | cons x xs ih => exact (ih (f s x)).trans (hf s x)

theorem State.siting_each {f : State → Nat → State} (hf : ∀ s x, (f s x).siting = s.siting) (l : List Nat) (s : State) :
    (s.each f l).siting = s.siting := by
  induction l generalizing s with
  | nil => rfl
  | cons x xs ih => exact (ih (f s x)).trans (hf s x)

section
variable (s : State)

@[simp] theorem State.siting_raise (code node unit : Nat) (vals : List (Nat × Nat)) : (s.raise code node unit vals).siting = s.siting := rfl
@[simp] theorem State.siting_setCore (p : Nat) (c : CoreRec) : (s.setCore p c).siting = s.siting := rfl
@[simp] theorem State.siting_modSweep (x : Nat) (f : DieSweep → DieSweep) : (s.modSweep x f).siting = s.siting := rfl
@[simp] theorem State.siting_modStack (n : Nat) (f : StackRec → StackRec) : (s.modStack n f).siting = s.siting := rfl
@[simp] theorem State.siting_modZfp (f : Zfp → Zfp) : (s.modZfp f).siting = s.siting := rfl
@[simp] theorem State.siting_raiseInc (node : Nat) : (s.raiseInc node).siting = s.siting := rfl
@[simp] theorem State.siting_dieMode (x : Nat) (m : DieMode) : (s.dieMode x m).siting = s.siting := rfl
@[simp] theorem State.siting_dress (x : Nat) : (s.dress x).siting = s.siting := rfl

@[simp] theorem State.siting_cntOvf (rose : Bool) (reg lowBit node : Nat) : (s.cntOvf rose reg lowBit node).siting = s.siting := by
  obtain ⟨e, he⟩ := cntOvf_frame s rose reg lowBit node
  rw [he]
  rfl

@[simp] theorem State.siting_rebindJob : s.rebindJob.siting = s.siting := by
  rw [State.rebindJob]
  split <;> rfl

end

/-! ### Sweeps and dropped work (R93, R341, R343) -/

section
variable (s : State)

@[simp] theorem State.siting_dropRdma (gone : Nat → Bool) : (s.dropRdma gone).siting = s.siting :=
  siting_foldl (f := fun (s : State) (e : RdmaSend) => s.modCvu e.gw fun c => c.abandon e.req (e.got.flatMap fun g => g.2.1))
    (fun _ _ => rfl) (s.zfp.sends.filter fun e => gone (e.key / 4) && e.cvu != 0) s

@[simp] theorem State.siting_dropLcores (lo n : Nat) : (s.dropLcores lo n).siting = s.siting :=
  s.siting_dropRdma fun l => !(decide (l / 1 < lo) || decide (lo + n ≤ l / 1))

@[simp] theorem State.siting_sweepSite (cause : SweepCause) (panel : Bool) (x : Nat) : (s.sweepSite cause panel x).siting = s.siting := by
  rw [State.sweepSite]
  split
  · rw [State.siting_dropLcores]
    rfl
  · rfl

@[simp] theorem State.siting_sweepCore (p : Nat) : (s.sweepCore p).siting = s.siting := by
  simp only [State.sweepCore]
  split <;> simp

@[simp] theorem State.siting_dropMove (x row : Nat) : (s.dropMove x row).siting = s.siting := by
  simp only [State.dropMove]
  split
  · rfl
  · split
    · rw [State.siting_sweepCore]
      rfl
    · rfl
    · rfl

@[simp] theorem State.siting_fenceDie (x : Nat) : (s.fenceDie x).siting = s.siting := by
  rw [State.fenceDie, State.siting_dieMode, State.siting_raiseInc, State.siting_sweepSite]
  exact siting_foldl (fun s e => s.siting_dropMove (e.1 / 8) (e.1 % 8)) s.panel.moves s

@[simp] theorem State.siting_attachAnew : s.attachAnew.siting = s.siting :=
  State.siting_each (fun s n => s.siting_modStack n _) (List.range 16) s

@[simp] theorem State.siting_cutSnapshot : s.cutSnapshot.siting = s.siting := by
  unfold State.cutSnapshot
  split
  · rfl
  · extract_lets s1
    have hunits : s1.siting = s.siting := siting_foldl (by intros; rfl) ..
    clear_value s1
    exact hunits

@[simp] theorem State.siting_haltJob : s.haltJob.siting = s.siting := by
  have hmoves := siting_foldl (f := fun (s : State) (e : Nat × Move) => s.dropMove (e.1 / 8) (e.1 % 8))
    (fun s e => s.siting_dropMove _ _) s.panel.moves s
  exact (State.siting_dropRdma (State.discardStreams _) fun _ => true).trans hmoves

end

/-! ### Records (R40, R41, R355) -/

/-- What a check-value unit is asked concerns its registers and an event alone. -/
theorem State.passCvu_frame (s : State) (u : Nat) (q : CvuReq) : ∃ w e, s.passCvu u q = { s with win := w, evq := e } := by
  have hask : ∃ w e, (s.askCvu u q).1 = { s with win := w, evq := e } := by
    simp only [State.askCvu]
    split
    · exact ⟨_, _, rfl⟩
    · split
      · exact ⟨_, _, rfl⟩
      · obtain ⟨e, he⟩ := cntOvf_frame (s.modCvu u fun c =>
          { c with refused := (bump 0xFFFF (s.cvu u).refused (s.cvu u).ovf).1, ovf := (bump 0xFFFF (s.cvu u).refused (s.cvu u).ovf).2.1 })
          (bump 0xFFFF (s.cvu u).refused (s.cvu u).ovf).2.2
          ((if u < 8 then dieWin (gwSite u) + 0x200 else stackWin (u - 8) + 0x200) + 8) 0
          (if u < 8 then nodeAt (gwSite u) 7 else nodeOfStack (u - 8))
        exact ⟨_, e, he⟩
  obtain ⟨w, e, he⟩ := hask
  simp only [State.passCvu]
  split
  · rw [he]
    exact ⟨_, e, rfl⟩
  · exact ⟨w, e, he⟩

section
variable (s : State)

@[simp] theorem State.siting_commitRecord : s.commitRecord.siting = s.siting := by
  unfold State.commitRecord
  extract_lets r s1
  obtain ⟨w, e, he⟩ := s.passCvu_frame s.stewardCvu (snoopReq panelNode (r.gen.toNat % 65536) 0xFF8 (crc64 r.body).toNat)
  rw [show s1 = _ from he]
  rfl

/-- A commit leaves the moves of a fit test as they are. -/
theorem State.commitRecord_moving : s.commitRecord.panel.moving = s.panel.moving := by
  unfold State.commitRecord
  extract_lets r s1
  obtain ⟨w, e, he⟩ := s.passCvu_frame s.stewardCvu (snoopReq panelNode (r.gen.toNat % 65536) 0xFF8 (crc64 r.body).toNat)
  rw [show s1 = _ from he]
  rfl

end

/-! ### A job that ends or stops (R55, R464) -/

/-- With no die that waits for its fit test none is bound at the end of the job. -/
theorem State.siting_bindMoving {s : State} (hm : s.panel.moving = []) (result : Nat) : (s.bindMoving result).siting = s.siting := by
  rw [State.bindMoving, hm, if_pos List.isEmpty_nil]
  split
  · exact State.siting_commitRecord _
  · rfl

theorem State.siting_endJob {s : State} (hm : s.panel.moving = []) (code : Nat) : (s.endJob code).siting = s.siting := by
  rw [State.endJob, State.finishJob]
  split
  · rfl
  · have hswept := siting_foldl (f := fun (s : State) x => s.sweepSite .jobEnd true x) (fun _ _ => State.siting_sweepSite ..)
      (s.bindMoving 5).servedSites (s.bindMoving 5)
    exact (State.siting_cutSnapshot _).trans ((State.siting_dropRdma ..).trans (hswept.trans (State.siting_bindMoving hm 5)))

theorem State.siting_beginRelay (s : State) (ms : List Moved) (code : Nat) (due : Bool) :
    (s.beginRelay ms code due).siting = s.siting := by
  show (if s.job.running then s.haltJob else s).siting = s.siting
  split
  · exact s.siting_haltJob
  · rfl

/-! ### A packet that a member sends (R371, R381, R401, R502) -/

section
variable (s : State)

@[simp] theorem State.siting_dropNoRoute : s.dropNoRoute.siting = s.siting := State.siting_cntOvf ..

@[simp] theorem State.siting_dropOldEpochs (n : Nat) : (s.dropOldEpochs n).siting = s.siting := by
  induction n generalizing s with
  | zero => rfl
  | succ n ih => exact (ih s.dropOldEpoch).trans (State.siting_cntOvf ..)

@[simp] theorem State.siting_emitAt (p : Nat) (pkt : Packet) (circ at_ : Option Nat) : (s.emitAt p pkt circ at_).siting = s.siting := by
  simp only [State.emitAt]
  split
  · rw [State.c0Load]
    split <;> rfl
  · rfl

@[simp] theorem State.siting_emitMask (p : Packet) (mask : Nat) (at_ : Option Nat) (l : List Nat) :
    (s.emitMask p mask at_ l).siting = s.siting := by
  induction l generalizing s with
  | nil => rfl
  | cons q qs ih =>
    rw [State.emitMask, ih]
    split
    · exact s.siting_emitAt ..
    · rfl

@[simp] theorem State.siting_receive (port : Nat) (p : Packet) : (s.receive port p).siting = s.siting := rfl

@[simp] theorem State.siting_launch (p : Packet) : (s.launch p).siting = s.siting := by
  simp only [State.launch, State.emit]
  split
  · split <;> simp
  · split
    · rfl
    · split <;> simp

@[simp] theorem State.siting_releasePaced (n : Nat) : (s.releasePaced n).siting = s.siting := by
  induction n generalizing s with
  | zero => rfl
  | succ n ih =>
    rw [State.releasePaced]
    split
    · rfl
    · split
      · rw [ih, State.siting_launch, State.siting_modZfp]
      · rfl

@[simp] theorem State.siting_expireDomain (key : Nat) : (s.expireDomain key).siting = s.siting := State.siting_dropOldEpochs ..

@[simp] theorem State.siting_offer (p : Packet) : (s.offer p).siting = s.siting := by
  rw [State.offer]
  split
  · rfl
  · exact s.siting_launch p

@[simp] theorem State.siting_sendPacket (p : Packet) : (s.sendPacket p).siting = s.siting := by
  have hpace : s.pace.siting = s.siting := s.siting_releasePaced _
  simp only [State.sendPacket]
  split
  · rw [State.siting_dropNoRoute, hpace]
  · split
    · rw [State.siting_modZfp, hpace]
    · rw [State.siting_offer, State.siting_expireDomain, hpace]

@[simp] theorem State.siting_leaveLost : s.leaveLost.siting = s.siting := by
  rw [State.leaveLost]
  split
  · rw [State.tellCoord]
    split
    · exact State.siting_sendPacket _ _
    · rfl
  · rfl

end

/-! ### Spares take the place of lost dies (R50, R654) -/

/-- The best of the candidates is one of them. -/
theorem bestSpare_mem {old x : Nat} {free : List Nat} (h : bestSpare old free = some x) : x ∈ free := by
  induction free generalizing x with
  | nil => exact absurd h nofun
  | cons y ys ih =>
    rw [bestSpare] at h
    split at h
    · obtain rfl := Option.some.inj h
      exact List.mem_cons_self
    · next z hz =>
      obtain rfl := Option.some.inj h
      split
      · exact List.mem_cons_self
      · exact List.mem_cons_of_mem _ (ih hz)

/-- A lost die moves onto a free site. -/
theorem assignSpares_mem {lost : List (Nat × Nat)} {free : List Nat} {m : Moved} {n : Nat} (hm : m ∈ assignSpares lost free)
    (hn : m.new = some n) : n ∈ free := by
  induction lost generalizing free with
  | nil => exact absurd hm List.not_mem_nil
  | cons e r ih =>
    rw [assignSpares] at hm
    split at hm
    · obtain rfl | hm := List.mem_cons.mp hm
      · exact absurd hn nofun
      · exact ih hm
    · next x hx =>
      obtain rfl | hm := List.mem_cons.mp hm
      · obtain rfl := Option.some.inj hn
        exact bestSpare_mem hx
      · exact (List.mem_filter.mp (ih hm)).1

section
variable {s t : State} (h : t.siting = s.siting)
include h

theorem State.clk_of_siting : t.clk = s.clk := congrArg Prod.fst h

theorem State.routerUp_of_siting : t.panel.routerUp = s.panel.routerUp := congrArg (fun x => x.2.2) h

theorem State.roleOf_of_siting (x : Nat) : t.roleOf x = s.roleOf x := by
  have hrole : t.panel.role = s.panel.role := congrArg (fun x => x.2.1) h
  rw [State.roleOf, State.roleOf, hrole]

end

/-- `t` has the clocks and the routers of `s`, and the same sites are retired in both. -/
def State.SameRetired (s t : State) : Prop :=
  t.clk = s.clk ∧ t.panel.routerUp = s.panel.routerUp ∧ ∀ x, t.roleOf x = .retired ↔ s.roleOf x = .retired

theorem State.SameRetired.trans {s t u : State} (h : s.SameRetired t) (k : t.SameRetired u) : s.SameRetired u := by
  obtain ⟨hclk, hrouter, hrole⟩ := h
  obtain ⟨kclk, krouter, krole⟩ := k
  exact ⟨kclk.trans hclk, krouter.trans hrouter, fun x => (krole x).trans (hrole x)⟩

theorem State.SameRetired.of_siting {s t : State} (h : t.siting = s.siting) : s.SameRetired t := by
  exact ⟨State.clk_of_siting h, State.routerUp_of_siting h, fun x => by rw [State.roleOf_of_siting h]⟩

theorem State.roleOf_setRole_self {s : State} {x : Nat} (hgw : isGw x = false) (r : Role) : (s.setRole x r).roleOf x = r := by
  simp [State.setRole, State.roleOf, hgw]

theorem State.setRole_clk (s : State) (x : Nat) (r : Role) : (s.setRole x r).clk = s.clk := by
  rw [State.setRole]
  split <;> rfl

/-- A site that is not retired, and that takes another role than that, leaves the same sites retired. -/
theorem State.setRole_sameRetired {s : State} {x : Nat} {r : Role} (hx : s.roleOf x ≠ .retired) (hr : r ≠ .retired) :
    s.SameRetired (s.setRole x r) := by
  cases hgw : isGw x
  · refine ⟨s.setRole_clk x r, by simp [State.setRole, hgw], fun y => ?_⟩
    by_cases hy : y = x
    · rw [hy, State.roleOf_setRole_self hgw]
      exact iff_of_false hr hx
    · simp [State.setRole, State.roleOf, hgw, tget_tput_other _ _ _ hy]
  · rw [State.setRole, if_pos hgw]
    exact .of_siting rfl

theorem State.bindDie_sameRetired {s : State} (ld : Nat) {x : Nat} (hx : s.roleOf x ≠ .retired) : s.SameRetired (s.bindDie ld x) := by
  have hlisted : (s.modPanel fun p => { p with ldSite := tput p.ldSite ld x, away := tdel p.away ld }).siting = s.siting := rfl
  have hbound := (SameRetired.of_siting hlisted).trans
    (State.setRole_sameRetired (x := x) (r := .bound) (by rw [State.roleOf_of_siting hlisted]; exact hx) nofun)
  rw [State.bindDie]
  refine hbound.trans (.of_siting ?_)
  rw [State.siting_dress]
  exact siting_foldl (by intros; rfl) ..

/-- Whether a move takes its die onto no site that is retired. -/
def State.MovesInto (s : State) (m : Moved) : Prop := ∀ n, m.new = some n → s.roleOf n ≠ .retired

theorem State.applyMove_sameRetired {s : State} {m : Moved} (hm : s.MovesInto m) : s.SameRetired (s.applyMove m) := by
  have hleft : (s.unbindDie m.ld m.old).siting = s.siting := rfl
  simp only [State.applyMove]
  split
  · next n hn =>
    refine (SameRetired.of_siting hleft).trans (State.bindDie_sameRetired m.ld ?_)
    rw [State.roleOf_of_siting hleft]
    exact hm n hn
  · exact .of_siting hleft

theorem State.applyMoves_sameRetired {ms : List Moved} {s : State} (hms : ∀ m ∈ ms, s.MovesInto m) :
    s.SameRetired (ms.foldl State.applyMove s) := by
  induction ms generalizing s with
  | nil => exact .of_siting rfl
  | cons m ms ih =>
    have hfirst := State.applyMove_sameRetired (hms m List.mem_cons_self)
    refine hfirst.trans (ih fun k hk n hn => ?_)
    obtain ⟨-, -, hrole⟩ := hfirst
    rw [Ne, hrole]
    exact hms k (List.mem_cons_of_mem _ hk) n hn

/-- Lost dies move onto spares. -/
theorem State.assignSpares_movesInto (s : State) (lost : List (Nat × Nat)) : ∀ m ∈ assignSpares lost s.spares, s.MovesInto m := by
  intro m hm n hn
  have hspare := (List.mem_filter.mp (assignSpares_mem hm hn)).2
  simp only [Bool.and_eq_true, beq_iff_eq] at hspare
  obtain ⟨⟨hrole, -⟩, -⟩ := hspare
  rw [hrole]
  nofun

/-! ### A die that is declared dead (R49, R50, R654) -/

/-- The replacement of lost dies retires no site and brings none back. -/
theorem State.replaceLost_sameRetired (s : State) (refit : Bool) (code : Nat) : s.SameRetired (s.replaceLost refit code) := by
  have hmoves : s.SameRetired ((assignSpares s.lostDies s.spares).foldl State.applyMove s) :=
    State.applyMoves_sameRetired (s.assignSpares_movesInto _)
  unfold State.replaceLost
  extract_lets lost ms s1 s2
  split
  · refine hmoves.trans (.of_siting ?_)
    have hnone : (s1.commitRecord.raise 0x0103 panelNode noUnit []).panel.moving = [] := s1.commitRecord_moving
    rw [State.siting_leaveLost, State.siting_endJob hnone, State.siting_raise, State.siting_commitRecord]
    rfl
  · split
    · exact .of_siting (s.siting_beginRelay ..)
    · split
      · exact .of_siting (s.siting_beginRelay ..)
      · split
        · have hbound : s2.siting = s.siting := by rw [State.siting_rebindJob, State.siting_commitRecord]
          split
          · exact .of_siting ((State.siting_beginRelay ..).trans hbound)
          · exact .of_siting hbound
        · refine hmoves.trans (.of_siting ?_)
          rw [State.siting_commitRecord]
          rfl

/-- R49, R485: a die in service that is declared dead is retired, and clocks stand; its router goes down with it where it is lost too. -/
theorem State.failDie_retires {s : State} {x : Nat} (hgw : isGw x = false) (hin : s.inService x = true) (routerLost : Bool) (code : Nat) :
    (s.failDie x routerLost code).clk = s.clk ∧ (s.failDie x routerLost code).roleOf x = .retired ∧
      (routerLost = true → (s.failDie x routerLost code).routerUp x = false) := by
  have hserves : ¬ (s.roleOf x ≠ .bound ∧ s.roleOf x ≠ .spare) := by
    rintro ⟨hb, hs⟩
    simp [State.inService, hb, hs] at hin
  unfold State.failDie
  rw [if_neg hserves]
  extract_lets s1 s2
  obtain ⟨hclk, hrouter, hrole⟩ := s2.replaceLost_sameRetired routerLost code
  have hclk1 : s1.clk = s.clk := (State.setRole_clk ..).trans (State.clk_of_siting (s.siting_fenceDie x))
  have hrole1 : s1.roleOf x = .retired := State.roleOf_setRole_self hgw _
  rw [hclk, hrole, State.routerUp, hrouter]
  clear_value s1
  simp only [s2]
  cases routerLost
  · exact ⟨hclk1, hrole1, nofun⟩
  · have hatt := (s1.modPanel fun p => { p with routerUp := tput p.routerUp x false }).siting_attachAnew
    rw [if_pos rfl, State.roleOf_of_siting hatt, State.clk_of_siting hatt, State.routerUp_of_siting hatt]
    exact ⟨hclk1, hrole1, fun _ => tget_tput_self ..⟩

/-- A die that is not in service is declared dead already. -/
theorem State.failDie_out {s : State} {x : Nat} (hin : s.inService x = false) (routerLost : Bool) (code : Nat) :
    s.failDie x routerLost code = s := by
  rw [State.failDie, if_pos]
  simpa [State.inService] using hin

end Sys2Proof.Machine
end

section
/-! PROOFS. Reference inputs, gateway PLLs and the forwarded clock: what is lost, what switches, and what returns (R535 to R542, R57). -/

namespace Sys2Proof.Machine

open Sys2Proof

/-! ### Reference inputs (R535) -/

/-- Whether a reference input is good. -/
def Clk.inputOk (c : Clk) (b : Bool) : Bool := if b then c.bOk else c.aOk

/-- The selection of a reference input. -/
def inputSel (b : Bool) : RefSel := if b then .refB else .refA

/-- A reference input is lost, and the selection stands. -/
def State.inputLost (s : State) (b : Bool) : State := s.modClk fun c => { c with aOk := c.aOk && b, bOk := c.bOk && !b }

/-- What a loss does, by which inputs are good and which is selected. -/
theorem execRefclkLoss_eq (b : Bool) (s : State) : execRefclkLoss b s =
    if s.clk.inputOk b = false then .next s
    else if s.clk.inputOk (!b) = false then
      .next (((s.inputLost b).modClk fun c => { c with sel := .holdover, holdAt := s.clock.now }).raise 0x0B01 panelNode noUnit [])
    else if s.clk.sel = inputSel b then
      .next (((s.inputLost b).modClk fun c => { c with sel := inputSel !b }).raise 0x0B01 panelNode noUnit [])
    else .next (s.inputLost b) := by
  cases b <;> simp [execRefclkLoss, Clk.inputOk, State.inputLost, inputSel]

section
variable {s : State} {b : Bool}

theorem refclkLoss_idle (h : s.clk.inputOk b = false) : Goes (.refclkLoss b) s s :=
  (execRefclkLoss_eq b s).trans (if_pos h)

/-- With the other input lost too the clocks go into holdover. -/
theorem refclkLoss_holdover (h : s.clk.inputOk b = true) (ho : s.clk.inputOk (!b) = false) :
    Goes (.refclkLoss b) s
      (((s.inputLost b).modClk fun c => { c with sel := .holdover, holdAt := s.clock.now }).raise 0x0B01 panelNode noUnit []) :=
  (execRefclkLoss_eq b s).trans (by rw [if_neg (by simp [h]), if_pos ho])

theorem refclkLoss_switches (h : s.clk.inputOk b = true) (ho : s.clk.inputOk (!b) = true) (hs : s.clk.sel = inputSel b) :
    Goes (.refclkLoss b) s (((s.inputLost b).modClk fun c => { c with sel := inputSel !b }).raise 0x0B01 panelNode noUnit []) :=
  (execRefclkLoss_eq b s).trans (by rw [if_neg (by simp [h]), if_neg (by simp [ho]), if_pos hs])

theorem refclkLoss_unselected (h : s.clk.inputOk b = true) (ho : s.clk.inputOk (!b) = true) (hs : s.clk.sel ≠ inputSel b) :
    Goes (.refclkLoss b) s (s.inputLost b) :=
  (execRefclkLoss_eq b s).trans (by rw [if_neg (by simp [h]), if_neg (by simp [ho]), if_neg hs])

theorem refclkReturn_b : Goes (.refclkReturn true) s
    { s with clk := { s.clk with bOk := true, sel := if s.clk.aOk then .refA else .refB } } := by
  show execRefclkReturn true s = _
  simp [execRefclkReturn, State.modClk]

theorem refclkReturn_a : Goes (.refclkReturn false) s { s with clk := { s.clk with aOk := true, sel := .refA } } := by
  show execRefclkReturn false s = _
  simp [execRefclkReturn, State.modClk]

end

/-! ### A die's clock after a change of it -/

/-- A value that the change leaves at its default is the one changed, listed or not. -/
theorem tget_tmap {α : Type} {d : α} {f : Nat → α → α} {k : Nat} (hd : f k d = d) (t : Tab α) :
    tget d (tmap f t) k = f k (tget d t k) := by
  rw [tget_eq_tfind_getD, tfind_tmap, tget_eq_tfind_getD]
  cases tfind t k with
  | none => exact hd.symm
  | some v => rfl

section
variable (s : State)

@[simp] theorem State.dieClk_modDieClk_self (x : Nat) (f : DieClk → DieClk) : (s.modDieClk x f).dieClk x = f (s.dieClk x) :=
  tget_tput_self ..

theorem State.dieClk_modDieClk_other {x y : Nat} (f : DieClk → DieClk) (h : y ≠ x) : (s.modDieClk x f).dieClk y = s.dieClk y :=
  tget_tput_other _ _ _ h

/-- Two changes of one die's clock are one change. -/
theorem State.modDieClk_modDieClk (x : Nat) (f g : DieClk → DieClk) : (s.modDieClk x f).modDieClk x g = s.modDieClk x (g ∘ f) := by
  simp [State.modDieClk, State.modClk, tmod]

/-- `t` differs from `s` in the dies' clocks alone. -/
def State.SameButDieClks (s t : State) : Prop := ∃ d, t = { s with clk := { s.clk with die := d } }

theorem State.sameButDieClks_modDieClk (x : Nat) (f : DieClk → DieClk) : s.SameButDieClks (s.modDieClk x f) := ⟨_, rfl⟩

theorem State.SameButDieClks.trans {s t u : State} (h : s.SameButDieClks t) (k : t.SameButDieClks u) : s.SameButDieClks u := by
  obtain ⟨d, rfl⟩ := h
  obtain ⟨e, rfl⟩ := k
  exact ⟨e, rfl⟩

end

/-! ### Neighbours -/

/-- The neighbours of a site, by direction. -/
theorem neighbour_eq_some_iff (x k n : Nat) : neighbour x k = some n ↔
    k = 0 ∧ n + 12 = x ∨ k = 1 ∧ x % 12 < 11 ∧ n = x + 1 ∨ k = 2 ∧ x < 132 ∧ n = x + 12 ∨ 3 ≤ k ∧ 0 < x % 12 ∧ n + 1 = x := by
  have hx : siteX x = x % 12 := rfl
  match k with
  | 0 | 1 | 2 | k + 3 =>
    simp only [neighbour, true_and]
    rw [Option.ite_none_right_eq_some, Option.some.injEq]
    omega

/-- The other end of a link leads back. -/
theorem neighbour_facing {x n k : Nat} (hk : k < 4) (hx : x < 144) (h : neighbour x k = some n) : neighbour n (facing k) = some x := by
  rw [neighbour_eq_some_iff] at h ⊢
  unfold facing
  omega

/-- A site has each neighbour in one direction only. -/
theorem neighbour_inj {x n j k : Nat} (hj : j < 4) (hk : k < 4) (h : neighbour x j = some n) (h' : neighbour x k = some n) : j = k := by
  rw [neighbour_eq_some_iff] at h h'
  omega

theorem neighbour_ne {x n k : Nat} (h : neighbour x k = some n) : n ≠ x := by
  rw [neighbour_eq_some_iff] at h
  omega

theorem facing_lt (k : Nat) : facing k < 4 := Nat.mod_lt _ (by decide)

theorem gwSite_lt (g : Gateway) : gwSite g < 144 := by revert g; decide

/-! ### Sites that forward no clock any more (R536, R538) -/

/-- A link mask without the directions that are gone. -/
def clearDirs (gone : Nat → Bool) (link : BitVec 4) (ks : List Nat) : BitVec 4 :=
  ks.foldl (fun m k => if gone k then m &&& ~~~(1#4 <<< k) else m) link

theorem getLsbD_clearDir (b : Bool) (link : BitVec 4) (k : Nat) {j : Nat} (hj : j < 4) :
    (if b then link &&& ~~~(1#4 <<< k) else link).getLsbD j = (link.getLsbD j && !(b && decide (j = k))) := by
  have hbit : (1#4 <<< k).getLsbD j = decide (j = k) := by
    rw [BitVec.getLsbD_shiftLeft, BitVec.getLsbD_one]
    grind
  cases b
  · simp
  · rw [if_pos rfl, BitVec.getLsbD_and, BitVec.getLsbD_not, hbit, decide_eq_true hj, Bool.true_and, Bool.true_and]

theorem getLsbD_clearDirs (gone : Nat → Bool) (link : BitVec 4) (ks : List Nat) {j : Nat} (hj : j < 4) :
    (clearDirs gone link ks).getLsbD j = (link.getLsbD j && !(gone j && ks.contains j)) := by
  induction ks generalizing link with
  | nil => simp [clearDirs]
  | cons k ks ih =>
    refine (ih _).trans ?_
    rw [getLsbD_clearDir _ _ _ hj, List.contains_cons]
    by_cases hk : j = k
    · subst hk
      cases gone j <;> simp
    · simp [hk, beq_eq_false_iff_ne.mpr hk]

theorem clearDirs_zero (gone : Nat → Bool) (ks : List Nat) : clearDirs gone 0#4 ks = 0#4 := by
  refine BitVec.eq_of_getLsbD_eq fun j hj => ?_
  rw [getLsbD_clearDirs _ _ _ hj, BitVec.getLsbD_zero, Bool.false_and]

/-- A die's clock once the links in some directions deliver none: a primary among them gives way to a secondary that is not. -/
def DieClk.unfed (d : DieClk) (gone : Nat → Bool) : DieClk :=
  { d with
    link := clearDirs gone d.link (List.range 4)
    st := if d.st = .primary ∧ gone d.pri ∧ d.sec ≠ d.pri ∧ !gone d.sec then .secondary else d.st }

/-- Whether the neighbour of a site in a direction is among some sites. -/
def leadsTo (sites : List Nat) (x k : Nat) : Bool := (neighbour x k).any fun n => sites.contains n

theorem leadsTo_singleton (y x k : Nat) : leadsTo [y] x k = true ↔ neighbour x k = some y := by
  unfold leadsTo
  cases neighbour x k <;> simp

section
variable (s : State) (sites : List Nat)

/-- What the loss of some sites' clock does to each die's clock. -/
theorem State.dieClk_clockGone (x : Nat) : (s.clockGone sites).dieClk x =
    if sites.contains x then s.dieClk x else (s.dieClk x).unfed (leadsTo sites x) := by
  have hnone : ({} : DieClk).unfed (leadsTo sites x) = {} := by
    simp [DieClk.unfed, clearDirs_zero]
  exact tget_tmap (f := fun x d => if sites.contains x then d else d.unfed (leadsTo sites x)) (by rw [hnone, ite_self]) s.clk.die

end

/-! ### A gateway's PLL (R536) -/

section
variable {s : State} {g : Gateway}

theorem pllLockLoss_idle (h : g.val ∈ s.clk.pllOut ∨ s.routerUp (gwSite g) = false) : Goes (.pllLockLoss g) s s :=
  if_pos (by simpa using h)

/-- The state in which a gateway has lost its lock. -/
def State.lockLost (s : State) (g : Nat) : State :=
  ((s.modClk fun c => { c with pllOut := g :: c.pllOut }).clockGone [gwSite g]).raise 0x0B02 (nodeAt (gwSite g) 1) (gwSite g) []

theorem pllLockLoss_goes (hin : g.val ∉ s.clk.pllOut) (hup : s.routerUp (gwSite g) = true) : Goes (.pllLockLoss g) s (s.lockLost g) := by
  show execPllLockLoss g s = _
  simp [execPllLockLoss, State.lockLost, hin, hup]

/-- A gateway's neighbour gets no clock from it, and a die that took its clock there switches to its secondary. -/
theorem State.dieClk_lockLost (s : State) (g : Gateway) {k n : Nat} (hk : k < 4) (hn : neighbour (gwSite g) k = some n) :
    ((s.lockLost g).dieClk n).link.getLsbD (facing k) = false ∧
      ((s.dieClk n).st = .primary → (s.dieClk n).pri = facing k → (s.dieClk n).sec < 4 → (s.dieClk n).sec ≠ facing k →
        ((s.lockLost g).dieClk n).st = .secondary) := by
  have hback := neighbour_facing hk (gwSite_lt g) hn
  have hleads : leadsTo [gwSite g] n (facing k) = true := (leadsTo_singleton ..).mpr hback
  have hother : [gwSite g].contains n = false := by simpa using neighbour_ne hn
  have hclk : (s.lockLost g).dieClk n = (s.dieClk n).unfed (leadsTo [gwSite g] n) := by
    have h := State.dieClk_clockGone (s.modClk fun c => { c with pllOut := g :: c.pllOut }) [gwSite g] n
    rw [hother] at h
    exact h
  rw [hclk]
  constructor
  · have hmem : (List.range 4).contains (facing k) = true := by simpa using facing_lt k
    simp only [DieClk.unfed, getLsbD_clearDirs _ _ _ (facing_lt k), hleads, hmem, Bool.and_self, Bool.not_true, Bool.and_false]
  · intro hst hpri hlt hsec
    have hkept : leadsTo [gwSite g] n (s.dieClk n).sec = false :=
      Bool.eq_false_iff.mpr fun h => hsec (neighbour_inj hlt (facing_lt k) ((leadsTo_singleton ..).mp h) hback)
    simp [DieClk.unfed, hst, hpri, hleads, hsec, hkept]

theorem pllRelock_idle (h : g.val ∉ s.clk.pllOut) : Goes (.pllRelock g) s s :=
  if_pos (by simpa using h)

/-- The link of a site's neighbour that faces it can deliver clock. -/
def State.relink (x : Nat) (s : State) (k : Nat) : State :=
  match neighbour x k with
  | some n => s.modDieClk n fun d => { d with link := d.link ||| (1#4 <<< facing k) }
  | none => s

theorem pllRelock_goes (h : g.val ∈ s.clk.pllOut) : Goes (.pllRelock g) s
    ((s.modClk fun c => { c with pllOut := c.pllOut.filter (· ≠ g.val) }).each (State.relink (gwSite g)) [0, 1, 2, 3]) :=
  if_neg (by simpa using h)

theorem State.sameButDieClks_relink (x : Nat) (s : State) (k : Nat) : s.SameButDieClks (s.relink x k) := by
  rw [State.relink]
  split
  · exact s.sameButDieClks_modDieClk ..
  · exact ⟨_, rfl⟩

theorem State.sameButDieClks_relinks (x : Nat) (s : State) (ks : List Nat) : s.SameButDieClks (s.each (State.relink x) ks) := by
  induction ks generalizing s with
  | nil => exact ⟨_, rfl⟩
  | cons k ks ih => exact (s.sameButDieClks_relink x k).trans (ih _)

theorem State.link_relink {x k n : Nat} (s : State) (hn : neighbour x k = some n) :
    ((s.relink x k).dieClk n).link.getLsbD (facing k) = true := by
  simp [State.relink, hn, facing_lt k]

/-- A link that can deliver clock still can. -/
theorem State.link_relink_of_link {x k n j : Nat} {s : State} (h : (s.dieClk n).link.getLsbD j = true) :
    ((s.relink x k).dieClk n).link.getLsbD j = true := by
  rw [State.relink]
  split
  · next m _ =>
    by_cases hm : n = m
    · subst hm
      rw [State.dieClk_modDieClk_self, BitVec.getLsbD_or, h, Bool.true_or]
    · rwa [State.dieClk_modDieClk_other _ _ hm]
  · exact h

theorem State.link_relinks_of_link {x n j : Nat} {ks : List Nat} {s : State} (h : (s.dieClk n).link.getLsbD j = true) :
    ((s.each (State.relink x) ks).dieClk n).link.getLsbD j = true := by
  induction ks generalizing s with
  | nil => exact h
  | cons k ks ih => exact ih (State.link_relink_of_link h)

theorem State.link_relinks {x k n : Nat} {ks : List Nat} (s : State) (hk : k ∈ ks) (hn : neighbour x k = some n) :
    ((s.each (State.relink x) ks).dieClk n).link.getLsbD (facing k) = true := by
  induction ks generalizing s with
  | nil => exact absurd hk List.not_mem_nil
  | cons k' ks ih =>
    obtain rfl | hk := List.mem_cons.mp hk
    · exact State.link_relinks_of_link (ks := ks) (s.link_relink hn)
    · exact ih _ hk

end

/-! ### A die's primary is lost (R538, R540) -/

/-- The links of a site that deliver clock, and what its compute domain takes, after a loss or a return. -/
def State.clocked (s : State) (x : Nat) (links : BitVec 4) (st : ClkSource) : State :=
  s.modDieClk x fun d => { d with link := links, st := st }

theorem State.dieClk_clocked (s : State) (x : Nat) (links : BitVec 4) (st : ClkSource) :
    (s.clocked x links st).dieClk x = { s.dieClk x with link := links, st := st } := s.dieClk_modDieClk_self ..

section
variable {s : State} {site : Site} {secGood : Bool} {links : BitVec 4}

theorem primaryClockLoss_idle (h : isGw site = true ∨ (s.dieClk site).st = .off ∨ (s.dieClk site).st = .lost) :
    Goes (.primaryClockLoss site secGood links) s s := if_pos h

theorem primaryClockLoss_switches (hgw : isGw site = false) (hst : (s.dieClk site).st = .primary) (hgood : secGood = true)
    (hsec : (s.dieClk site).sec ≠ (s.dieClk site).pri) :
    Goes (.primaryClockLoss site secGood links) s
      ((s.clocked site links .secondary).modClk fun c => { c with relayDue := true }) := by
  show execPrimaryClockLoss site secGood links s = _
  simp [execPrimaryClockLoss, hgw, hst, hgood, hsec, State.modDieClk_modDieClk, State.clocked, Function.comp_def]

/-- A die without clock, whose router stops with it when no link delivers any. -/
def State.clockDead (s : State) (x : Nat) (links : BitVec 4) : State :=
  if links = 0#4 then (s.clocked x links .lost).clockGone [x] else s.clocked x links .lost

theorem primaryClockLoss_kills (hgw : isGw site = false)
    (hst : (s.dieClk site).st = .primary ∧ (secGood = false ∨ (s.dieClk site).sec = (s.dieClk site).pri) ∨
      (s.dieClk site).st = .secondary) :
    Goes (.primaryClockLoss site secGood links) s
      ((s.clockDead site links).failDie site (decide (links = 0#4)) ST_CORE_HW) := by
  have hidle : ¬ (isGw site = true ∨ (s.dieClk site).st = .off ∨ (s.dieClk site).st = .lost) := by
    have hruns : (s.dieClk site).st ≠ .off ∧ (s.dieClk site).st ≠ .lost := by
      obtain ⟨hp, -⟩ | hs := hst
      · exact hp ▸ ⟨nofun, nofun⟩
      · exact hs ▸ ⟨nofun, nofun⟩
    obtain ⟨hoff, hlost⟩ := hruns
    rintro (h | h | h)
    · exact Bool.false_ne_true (hgw.symm.trans h)
    · exact hoff h
    · exact hlost h
  have hno : ¬ (secGood = true ∧ (s.dieClk site).sec ≠ (s.dieClk site).pri ∧ (s.dieClk site).st = .primary) := by
    rintro ⟨hgood, hsec, hp⟩
    obtain ⟨-, hbad | heq⟩ | hs := hst
    · exact Bool.false_ne_true (hbad.symm.trans hgood)
    · exact hsec heq
    · exact absurd (hp.symm.trans hs) nofun
  show execPrimaryClockLoss site secGood links s = _
  simp only [execPrimaryClockLoss, if_neg hidle, if_neg hno, State.modDieClk_modDieClk, decide_eq_true_eq]
  rfl

end

theorem State.dieClk_clockDead (s : State) (x : Nat) (links : BitVec 4) :
    (s.clockDead x links).dieClk x = { s.dieClk x with link := links, st := .lost } := by
  rw [State.clockDead]
  split
  · rw [State.dieClk_clockGone, if_pos (by simp), State.dieClk_clocked]
  · exact s.dieClk_clocked ..

theorem State.inService_clockDead (s : State) (x : Nat) (links : BitVec 4) : (s.clockDead x links).inService x = s.inService x := by
  rw [State.clockDead]
  split <;> rfl

/-! ### Clock plans (R537, R539, R542) -/

theorem State.planFits_iff (s : State) (plan : List (Nat × Nat × Option Nat)) : s.planFits plan = true ↔
    (∀ e ∈ plan, e.1 < 144 ∧ isGw e.1 = false) ∧ ∀ e ∈ s.wholePlan plan, planGood s.fed (s.wholePlan plan) e = true := by
  simp [State.planFits, List.all_eq_true]

/-- A die takes the neighbours of its entry of a plan, unless it has lost its clock. -/
def State.planned (s : State) (e : Nat × Nat × Option Nat) : State := s.modDieClk e.1 fun d =>
  if d.st = .lost then d else { d with st := .primary, pri := e.2.1, sec := e.2.2.getD e.2.1 }

/-- A die takes its clock as an entry of a plan gives it. -/
def DieClk.Follows (d : DieClk) (e : Nat × Nat × Option Nat) : Prop := d.st = .primary ∧ d.pri = e.2.1 ∧ d.sec = e.2.2.getD e.2.1

theorem State.layPlan_eq (s : State) (plan : List (Nat × Nat × Option Nat)) :
    s.layPlan plan = (plan.foldl State.planned s).modClk fun c => { c with relayDue := false } := rfl

theorem State.sameButDieClks_plan (s : State) (plan : List (Nat × Nat × Option Nat)) : s.SameButDieClks (plan.foldl State.planned s) := by
  induction plan generalizing s with
  | nil => exact ⟨_, rfl⟩
  | cons e plan ih => exact (s.sameButDieClks_modDieClk ..).trans (ih _)

section
variable {e : Nat × Nat × Option Nat} {plan : List (Nat × Nat × Option Nat)} {s : State}

theorem State.follows_planned (h : (s.dieClk e.1).st ≠ .lost) : ((s.planned e).dieClk e.1).Follows e := by
  rw [State.planned, State.dieClk_modDieClk_self, if_neg h]
  exact ⟨rfl, rfl, rfl⟩

theorem State.dieClk_planned_other {e' : Nat × Nat × Option Nat} (h : e.1 ≠ e'.1) : (s.planned e').dieClk e.1 = s.dieClk e.1 :=
  s.dieClk_modDieClk_other _ h

/-- A die that follows its entry still does after a plan that has no other entry for it. -/
theorem State.follows_plan_of_follows (hone : ∀ e' ∈ plan, e'.1 = e.1 → e' = e) (h : (s.dieClk e.1).Follows e) :
    ((plan.foldl State.planned s).dieClk e.1).Follows e := by
  induction plan generalizing s with
  | nil => exact h
  | cons e' plan ih =>
    refine ih (fun x hx => hone x (List.mem_cons_of_mem _ hx)) ?_
    by_cases he : e'.1 = e.1
    · obtain rfl := hone e' List.mem_cons_self he
      exact State.follows_planned (by rw [h.1]; nofun)
    · rwa [State.dieClk_planned_other (Ne.symm he)]

/-- A die with one entry in a plan follows it. -/
theorem State.follows_plan (hmem : e ∈ plan) (hone : ∀ e' ∈ plan, e'.1 = e.1 → e' = e) (h : (s.dieClk e.1).st ≠ .lost) :
    ((plan.foldl State.planned s).dieClk e.1).Follows e := by
  induction plan generalizing s with
  | nil => exact absurd hmem List.not_mem_nil
  | cons e' plan ih =>
    have hrest : ∀ x ∈ plan, x.1 = e.1 → x = e := fun x hx => hone x (List.mem_cons_of_mem _ hx)
    by_cases he : e'.1 = e.1
    · obtain rfl := hone e' List.mem_cons_self he
      exact State.follows_plan_of_follows (plan := plan) hrest (State.follows_planned h)
    · have htail : e ∈ plan := (List.mem_cons.mp hmem).resolve_left fun heq => he (congrArg Prod.fst heq.symm)
      exact ih htail hrest (by rwa [State.dieClk_planned_other (Ne.symm he)])

theorem clockPlanRelay_unfit (h : s.planFits plan = false) : Goes (.clockPlanRelay plan) s s := if_pos (by simp [h])

theorem clockPlanRelay_goes (h : s.planFits plan = true) : Goes (.clockPlanRelay plan) s
    (if s.clk.relayDue then (s.layPlan plan).raise 0x0B02 panelNode noUnit [] else s.layPlan plan) := if_neg (by simp [h])

end

/-! ### A clock that returns (R541, R57) -/

section
variable {s : State} {site : Site} {links : BitVec 4}

theorem clockReturn_idle (h : links = 0#4) : Goes (.clockReturn site links) s s := if_pos h

/-- A gateway, a site whose router is up, or a dark one waits for nothing. -/
theorem clockReturn_stays (h : links ≠ 0#4) (hbar : isGw site = true ∨ s.routerUp site = true ∨ s.roleOf site = .dark) :
    Goes (.clockReturn site links) s (s.modDieClk site fun d => { d with link := links }) :=
  (if_neg h).trans (congrArg Host.Outcome.next (if_pos hbar))

theorem clockReturn_rejoins (h : links ≠ 0#4) (hbar : ¬ (isGw site = true ∨ s.routerUp site = true ∨ s.roleOf site = .dark)) :
    Goes (.clockReturn site links) s ((s.modDieClk site fun d => { d with link := links }).modClk fun c =>
      { c with rejoin := site.val :: c.rejoin.filter (· ≠ site.val) }) :=
  (if_neg h).trans (congrArg Host.Outcome.next (if_neg hbar))

end

/-- Settles O48: each loss and each return by what is left to take the clock from. -/
theorem clocksFailOverAndReturn : Obligations.ClocksFailOverAndReturn := by
  unfold Obligations.ClocksFailOverAndReturn
  intro s b secGood g site links plan c mine other good event same d
  refine ⟨refclkLoss_idle, fun hb => ?refLost, refclkReturn_b, refclkReturn_a, pllLockLoss_idle, fun hin hup => ?unlocks, pllRelock_idle,
    fun hout => ?relocks, primaryClockLoss_idle, fun hgw hst hgood hsec => ?switches, fun hgw hst => ?dies, s.planFits_iff plan,
    clockPlanRelay_unfit, fun hfit => ?plans, clockReturn_idle, fun hl => ?returns⟩
  case refLost =>
    cases ho : c.inputOk (!b) with
    | false =>
      exact ⟨_, refclkLoss_holdover hb ho, ⟨rfl, rfl, rfl, rfl, rfl⟩, rfl, rfl, fun _ => ⟨rfl, rfl, State.raise_travels ..⟩,
        fun h => absurd (ho.symm.trans h) nofun, fun h => absurd (ho.symm.trans h) nofun⟩
    | true =>
      by_cases hs : c.sel = mine
      · exact ⟨_, refclkLoss_switches hb ho hs, ⟨rfl, rfl, rfl, rfl, rfl⟩, rfl, rfl, fun h => absurd (ho.symm.trans h) nofun,
          fun _ _ => ⟨by cases b <;> rfl, State.raise_travels ..⟩, fun _ h => absurd hs h⟩
      · exact ⟨_, refclkLoss_unselected hb ho hs, ⟨rfl, rfl, rfl, rfl, rfl⟩, rfl, rfl, fun h => absurd (ho.symm.trans h) nofun,
          fun _ h => absurd h hs, fun _ _ => ⟨rfl, rfl⟩⟩
  case unlocks =>
    exact ⟨_, pllLockLoss_goes hin hup, ⟨rfl, rfl, rfl, rfl, rfl⟩, List.mem_cons_self, rfl, State.raise_travels ..,
      fun k hk n hn => s.dieClk_lockLost g hk hn⟩
  case relocks =>
    refine ⟨_, pllRelock_goes hout, ?_⟩
    have hlinks := fun k (hk : k < 4) n hn => State.link_relinks (x := gwSite g) (k := k) (n := n) (ks := [0, 1, 2, 3])
      (s.modClk fun c => { c with pllOut := c.pllOut.filter (· ≠ g.val) }) (by simp; omega) hn
    obtain ⟨die, hdie⟩ := State.sameButDieClks_relinks (gwSite g) (s.modClk fun c => { c with pllOut := c.pllOut.filter (· ≠ g.val) })
      [0, 1, 2, 3]
    rw [hdie] at hlinks ⊢
    exact ⟨⟨rfl, rfl, rfl, rfl, rfl⟩, rfl, by simp, hlinks⟩
  case switches =>
    exact ⟨_, primaryClockLoss_switches hgw hst hgood hsec, ⟨rfl, rfl, rfl, rfl, rfl⟩, s.dieClk_clocked .., rfl⟩
  case dies =>
    have hclk := s.dieClk_clockDead site links
    have hserves := s.inService_clockDead site links
    refine ⟨_, primaryClockLoss_kills hgw hst, ?_⟩
    cases hin : s.inService site with
    | false =>
      rw [State.failDie_out (hserves.trans hin), hclk]
      exact ⟨rfl, rfl, nofun⟩
    | true =>
      obtain ⟨hstands, hrole, hrouter⟩ := State.failDie_retires hgw (hserves.trans hin) (decide (links = 0#4)) ST_CORE_HW
      rw [State.dieClk, hstands, ← State.dieClk, hclk]
      exact ⟨rfl, rfl, fun _ => ⟨hrole, fun h => hrouter (decide_eq_true h)⟩⟩
  case plans =>
    have hfollow : ∀ e ∈ plan, (∀ e' ∈ plan, e'.1 = e.1 → e' = e) → (s.dieClk e.1).st ≠ .lost →
        ((s.layPlan plan).dieClk e.1).Follows e := fun e hmem hone hst => State.follows_plan hmem hone hst
    refine ⟨_, clockPlanRelay_goes hfit, ?_⟩
    obtain ⟨die, hdie⟩ := s.sameButDieClks_plan plan
    rw [State.layPlan_eq, hdie] at hfollow ⊢
    cases hdue : s.clk.relayDue
    · exact ⟨⟨rfl, rfl, rfl, rfl, rfl⟩, rfl, nofun, fun _ => rfl, hfollow⟩
    · exact ⟨⟨rfl, rfl, rfl, rfl, rfl⟩, rfl, fun _ => State.raise_travels .., nofun, hfollow⟩
  case returns =>
    have hlink : (s.modDieClk site fun d => { d with link := links }).dieClk site = { d with link := links } :=
      s.dieClk_modDieClk_self ..
    by_cases hbar : isGw site = true ∨ s.routerUp site = true ∨ s.roleOf site = .dark
    · exact ⟨_, clockReturn_stays hl hbar, ⟨rfl, rfl, rfl, rfl, rfl⟩, hlink, fun _ => rfl, fun hgw hup hrole => absurd hbar (by simp [hgw, hup, hrole])⟩
    · exact ⟨_, clockReturn_rejoins hl hbar, ⟨rfl, rfl, rfl, rfl, rfl⟩, hlink, fun h => absurd h hbar, fun _ _ _ => List.mem_cons_self⟩

end Sys2Proof.Machine
end

section
/-! PROOFS. Background work and the module: what scrub leaves alone, a unit served, a period that ends, block reads, and a carrier that
is removed (R616 to R621, R82, R303, R645, R649). -/

namespace Sys2Proof.Machine

open Sys2Proof

/-! ### Repeated steps that each leave a part of the state as it is -/

theorem foldl_unchanged {α β : Type} {part : State → β} {f : State → α → State} (hf : ∀ s x, part (f s x) = part s)
    (l : List α) (s : State) : part (l.foldl f s) = part s := by
  induction l generalizing s with
  | nil => rfl
  | cons x xs ih => exact (ih (f s x)).trans (hf s x)

theorem State.each_unchanged {β : Type} {part : State → β} {f : State → Nat → State} (hf : ∀ s x, part (f s x) = part s)
    (l : List Nat) (s : State) : part (s.each f l) = part s := by
  induction l generalizing s with
  | nil => rfl
  | cons x xs ih => exact (ih (f s x)).trans (hf s x)

/-! ### Outside the cores: what a core's own work leaves alone (R75 to R87) -/

/-- The state with all blank that a core's own work can change: the cores, their SRAMs, the counts due to stream contexts, and events. -/
def State.offCores (s : State) : State := { s with cores := [], srams := {}, ctxDue := [], evq := {} }

section
variable (s : State)

@[simp] theorem State.offCores_setCore (p : Nat) (c : CoreRec) : (s.setCore p c).offCores = s.offCores := rfl
@[simp] theorem State.offCores_modCore (p : Nat) (f : CoreRec → CoreRec) : (s.modCore p f).offCores = s.offCores := rfl
@[simp] theorem State.offCores_modCtl (p : Nat) (f : CoreCtl → CoreCtl) : (s.modCtl p f).offCores = s.offCores := rfl
@[simp] theorem State.offCores_modPipe (p : Nat) (f : CorePipe → CorePipe) : (s.modPipe p f).offCores = s.offCores := rfl
@[simp] theorem State.offCores_modSrams (f : Srams → Srams) : (s.modSrams f).offCores = s.offCores := rfl
@[simp] theorem State.offCores_markWord (p w : Nat) (bad : Bool) : (s.markWord p w bad).offCores = s.offCores := rfl
@[simp] theorem State.offCores_putWord1 (p w : Nat) (bytes : List (BitVec 8)) (bad : Bool) :
    (s.putWord1 p w bytes bad).offCores = s.offCores := rfl
@[simp] theorem State.offCores_putBundle1 (p j : Nat) (b : BitVec 256) (bad : Bool) :
    (s.putBundle1 p j b bad).offCores = s.offCores := rfl

@[simp] theorem State.offCores_cntOvf (rose : Bool) (reg lowBit node : Nat) : (s.cntOvf rose reg lowBit node).offCores = s.offCores := by
  obtain ⟨e, he⟩ := cntOvf_frame s rose reg lowBit node
  rw [he]
  rfl

@[simp] theorem State.offCores_countCorr (p : Nat) : (s.countCorr p).offCores = s.offCores := State.offCores_cntOvf ..

@[simp] theorem State.offCores_countUncorr (p : Nat) (bank : Option Nat) : (s.countUncorr p bank).offCores = s.offCores :=
  State.offCores_cntOvf ..

@[simp] theorem State.offCores_readWord (p w : Nat) : (s.readWord p w).1.offCores = s.offCores := by
  simp only [State.readWord]
  split
  · rfl
  · split
    · rfl
    · split <;> simp

@[simp] theorem State.offCores_readWords (p w n : Nat) : (s.readWords p w n).1.offCores = s.offCores := by
  induction n generalizing s w with
  | zero => rfl
  | succ n ih => exact (ih (s.readWord p w).1 (w + 1)).trans (s.offCores_readWord p w)

@[simp] theorem State.offCores_putHalf1 (p off : Nat) (bytes : List (BitVec 8)) (bad : Bool) :
    (s.putHalf1 p off bytes bad).offCores = s.offCores := s.offCores_readWord p (off / 8)

@[simp] theorem State.offCores_putWord (p w : Nat) (bytes : List (BitVec 8)) (bad : Bool) :
    (s.putWord p w bytes bad).offCores = s.offCores := by
  simp only [State.putWord]
  split <;> simp

@[simp] theorem State.offCores_putHalf (p off : Nat) (bytes : List (BitVec 8)) (bad : Bool) :
    (s.putHalf p off bytes bad).offCores = s.offCores := by
  simp only [State.putHalf]
  split <;> simp

@[simp] theorem State.offCores_putBundle (p j : Nat) (b : BitVec 256) (bad : Bool) :
    (s.putBundle p j b bad).offCores = s.offCores := by
  simp only [State.putBundle]
  split <;> simp

@[simp] theorem State.offCores_putWords (p w : Nat) (ws : List (List (BitVec 8) × Bool)) : (s.putWords p w ws).offCores = s.offCores := by
  induction ws generalizing s w with
  | nil => rfl
  | cons x ws ih => exact (ih _ (w + 1)).trans (s.offCores_putWord ..)

@[simp] theorem State.offCores_putGranule (p off : Nat) (bytes : List (BitVec 8)) (poison : BitVec 8) :
    (s.putGranule p off bytes poison).offCores = s.offCores := by
  rw [State.putGranule]
  split <;> simp

@[simp] theorem State.offCores_landDeliv (p c : Nat) (d : Deliv) : (s.landDeliv p c d).offCores = s.offCores := by
  have hput := s.offCores_putGranule p d.off d.bytes d.poison
  rw [State.landDeliv]
  split <;> exact hput

@[simp] theorem State.offCores_meshHead (p c : Nat) : (s.meshHead p c).offCores = s.offCores := by
  simp only [State.meshHead]
  split
  · rfl
  · split
    · rfl
    · split <;> simp

@[simp] theorem State.offCores_rampHead (p c : Nat) : (s.rampHead p c).offCores = s.offCores := by
  simp only [State.rampHead]
  split
  · rfl
  · split <;> simp

@[simp] theorem State.offCores_streamHead (p c : Nat) : (s.streamHead p c).offCores = s.offCores := by
  simp only [State.streamHead]
  split
  · rfl
  · split
    · rfl
    · split <;> simp

@[simp] theorem State.offCores_copyGranule (p page src i : Nat) : (s.copyGranule p page src i).offCores = s.offCores := by
  simp [State.copyGranule]

@[simp] theorem State.offCores_pageCycle (p c : Nat) : (s.pageCycle p c).offCores = s.offCores := by
  simp only [State.pageCycle]
  split
  · rfl
  · split
    · rfl
    · split <;> simp

@[simp] theorem State.offCores_recordHead (p c : Nat) : (s.recordHead p c).offCores = s.offCores := by
  simp only [State.recordHead]
  split
  · rfl
  · simp [apply_ite State.offCores]

@[simp] theorem State.offCores_bankCycles (p c n : Nat) : (s.bankCycles p c n).offCores = s.offCores := by
  induction n generalizing s c with
  | zero => rfl
  | succ n ih =>
    rw [State.bankCycles]
    split
    · rw [ih]
      split <;> simp [State.bankCycle]
    · rfl

@[simp] theorem State.offCores_swallow (p : Nat) : (s.swallow p).offCores = s.offCores := by
  simp only [State.swallow]
  split <;> simp

/-- A core that is brought to the present cycle leaves all outside the cores as it is. -/
@[simp] theorem State.offCores_sync (p : Nat) : (s.sync p).offCores = s.offCores := by simp [State.sync]

/-! ### Scrub of a core (R82, R87, R616) -/

@[simp] theorem State.offCores_scrubWord (p w : Nat) : (s.scrubWord p w).offCores = s.offCores := by
  simp only [State.scrubWord]
  split <;> simp

@[simp] theorem State.offCores_scrubBundle (p j : Nat) : (s.scrubBundle p j).offCores = s.offCores := by
  rw [State.scrubBundle]
  split <;> simp

@[simp] theorem State.offCores_scrubCore (p granule : Nat) : (s.scrubCore p granule).offCores = s.offCores := by
  simp only [State.scrubCore]
  split
  · rw [State.each_unchanged (fun s i => s.offCores_scrubWord p (8 * granule + i)), State.offCores_sync]
  · simp

end

section
variable {s : State} {p j : Nat}

/-- The value that a well-formed table is made to hold is read back. -/
theorem tget_mset_self {α : Type} [DecidableEq α] {d : α} {t : Tab α} (k : Nat) (v : α) (h : twf d t = true) :
    tget d (mset d t k v) k = v := by
  rw [mset]
  split
  · next hv => rw [hv, tget_tdel_self k (wfFrom_sorted h)]
  · exact tget_tput_self ..

theorem State.scrubBundle_single (h : tget 0 s.srams.imemFlips (imKey p j) = 1) : s.scrubBundle p j =
    (s.countCorr p).modSrams fun r => { r with imemFlips := mset 0 r.imemFlips (imKey p j) 0 } := by
  simp only [State.scrubBundle, h]

/-- The count of corrected errors goes up to 0x7FFF (R622), and beside it only an event can come of it. -/
theorem countCorr_frame (s : State) (p : Nat) : ∃ e n, s.countCorr p = { s with evq := e }.setCore p { s.core p with count := n } ∧
    n.corr = if (s.core p).count.corr < 0x7FFF then (s.core p).count.corr + 1 else (s.core p).count.corr := by
  refine (cntOvf_frame _ _ _ _ _).imp fun e he => ⟨_, he, ?_⟩
  simp only [bump]
  split <;> rfl

/-- A single-bit error of a bundle goes when scrub reads it, and counts. -/
theorem State.scrubBundle_corrects (h : tget 0 s.srams.imemFlips (imKey p j) = 1) (hwf : twf 0 s.srams.imemFlips = true) :
    tget 0 (s.scrubBundle p j).srams.imemFlips (imKey p j) = 0 ∧ ((s.scrubBundle p j).core p).count.corr =
      if (s.core p).count.corr < 0x7FFF then (s.core p).count.corr + 1 else (s.core p).count.corr := by
  obtain ⟨e, n, hcount, hn⟩ := countCorr_frame s p
  rw [State.scrubBundle_single h, hcount]
  refine ⟨tget_mset_self (imKey p j) 0 hwf, ?_⟩
  rw [← hn]
  exact congrArg (fun c => c.count.corr) (State.core_setCore_self ..)

end

/-! ### What the end of a job and a packet leave of background work (R464, R371) -/

section
variable (s : State)

@[simp] theorem State.bg_cntOvf (rose : Bool) (reg lowBit node : Nat) : (s.cntOvf rose reg lowBit node).bg = s.bg := by
  obtain ⟨e, he⟩ := cntOvf_frame s rose reg lowBit node
  rw [he]

@[simp] theorem State.bg_dropRdma (gone : Nat → Bool) : (s.dropRdma gone).bg = s.bg :=
  foldl_unchanged (part := State.bg)
    (f := fun (s : State) (e : RdmaSend) => s.modCvu e.gw fun c => c.abandon e.req (e.got.flatMap fun g => g.2.1))
    (fun _ _ => rfl) (s.zfp.sends.filter fun e => gone (e.key / 4) && e.cvu != 0) s

@[simp] theorem State.bg_dropLcores (lo n : Nat) : (s.dropLcores lo n).bg = s.bg :=
  s.bg_dropRdma fun l => !(decide (l / 1 < lo) || decide (lo + n ≤ l / 1))

@[simp] theorem State.bg_sweepSite (cause : SweepCause) (panel : Bool) (x : Nat) : (s.sweepSite cause panel x).bg = s.bg := by
  rw [State.sweepSite]
  split
  · rw [State.bg_dropLcores]
    rfl
  · rfl

@[simp] theorem State.bg_cutSnapshot : s.cutSnapshot.bg = s.bg := by
  unfold State.cutSnapshot
  split
  · rfl
  · exact foldl_unchanged (part := State.bg) (by intros; rfl) (List.range 16) s

@[simp] theorem State.bg_commitRecord : s.commitRecord.bg = s.bg := by
  unfold State.commitRecord
  extract_lets r s1
  obtain ⟨w, e, he⟩ := s.passCvu_frame s.stewardCvu (snoopReq panelNode (r.gen.toNat % 65536) 0xFF8 (crc64 r.body).toNat)
  rw [show s1 = _ from he]
  rfl

@[simp] theorem State.bg_bindDie (ld x : Nat) : (s.bindDie ld x).bg = s.bg := by
  have hrole (t : State) : (t.setRole x .bound).bg = t.bg := by
    rw [State.setRole]
    split <;> rfl
  exact (foldl_unchanged (part := State.bg) (by intros; rfl) (List.range 8) _).trans (hrole _)

@[simp] theorem State.bg_applyMove (m : Moved) : (s.applyMove m).bg = s.bg := by
  rw [State.applyMove]
  split
  · exact State.bg_bindDie ..
  · rfl

@[simp] theorem State.bg_bindMoving (result : Nat) : (s.bindMoving result).bg = s.bg := by
  rw [State.bindMoving]
  split
  · split
    · exact State.bg_commitRecord _
    · rfl
  · exact (State.bg_commitRecord _).trans (foldl_unchanged State.bg_applyMove s.panel.moving s)

@[simp] theorem State.bg_endJob (code : Nat) : (s.endJob code).bg = s.bg := by
  rw [State.endJob, State.finishJob]
  split
  · rfl
  · have hswept := foldl_unchanged (part := State.bg) (f := fun s x => s.sweepSite .jobEnd true x) (fun _ _ => State.bg_sweepSite ..)
      (s.bindMoving 5).servedSites (s.bindMoving 5)
    exact (State.bg_cutSnapshot _).trans ((State.bg_dropRdma ..).trans (hswept.trans (s.bg_bindMoving 5)))

@[simp] theorem State.bg_dropNoRoute : s.dropNoRoute.bg = s.bg := State.bg_cntOvf ..

@[simp] theorem State.bg_dropOldEpochs (n : Nat) : (s.dropOldEpochs n).bg = s.bg := by
  induction n generalizing s with
  | zero => rfl
  | succ n ih => exact (ih s.dropOldEpoch).trans (State.bg_cntOvf ..)

@[simp] theorem State.bg_emitAt (p : Nat) (pkt : Packet) (circ at_ : Option Nat) : (s.emitAt p pkt circ at_).bg = s.bg := by
  simp only [State.emitAt]
  split
  · rw [State.c0Load]
    split <;> rfl
  · rfl

@[simp] theorem State.bg_emitMask (p : Packet) (mask : Nat) (at_ : Option Nat) (l : List Nat) : (s.emitMask p mask at_ l).bg = s.bg := by
  induction l generalizing s with
  | nil => rfl
  | cons q qs ih =>
    rw [State.emitMask, ih]
    split <;> simp

@[simp] theorem State.bg_receive (port : Nat) (p : Packet) : (s.receive port p).bg = s.bg := rfl

@[simp] theorem State.bg_launch (p : Packet) : (s.launch p).bg = s.bg := by
  simp only [State.launch, State.emit]
  split
  · split <;> simp
  · split
    · rfl
    · split <;> simp

@[simp] theorem State.bg_releasePaced (n : Nat) : (s.releasePaced n).bg = s.bg := by
  induction n generalizing s with
  | zero => rfl
  | succ n ih =>
    rw [State.releasePaced]
    split
    · rfl
    · split
      · rw [ih, State.bg_launch, State.modZfp_bg]
      · rfl

@[simp] theorem State.bg_offer (p : Packet) : (s.offer p).bg = s.bg := by
  rw [State.offer]
  split <;> simp

@[simp] theorem State.bg_sendPacket (p : Packet) : (s.sendPacket p).bg = s.bg := by
  have hpace : s.pace.bg = s.bg := s.bg_releasePaced _
  simp only [State.sendPacket]
  split
  · rw [State.bg_dropNoRoute, hpace]
  · split
    · rw [State.modZfp_bg, hpace]
    · rw [State.bg_offer, State.expireDomain, State.bg_dropOldEpochs, State.modZfp_bg, hpace]

@[simp] theorem State.bg_tellCoord (sub cause step : Nat) (ranks : List Nat) : (s.tellCoord sub cause step ranks).bg = s.bg := by
  rw [State.tellCoord]
  split
  · rw [State.sendState, State.bg_sendPacket]
    split <;> rfl
  · rfl

/-! ### Patrol scrub of a stack (R303, R317, R320, R321, R616) -/

@[simp] theorem State.bg_modStack (n : Nat) (f : StackRec → StackRec) : (s.modStack n f).bg = s.bg := rfl

@[simp] theorem State.bg_startCopy (n region : Nat) : (s.startCopy n region).bg = s.bg := by
  simp only [State.startCopy]
  split
  · rfl
  · split
    · rfl
    · exact State.bg_endJob ..

@[simp] theorem State.bg_retireRegion (n region : Nat) : (s.retireRegion n region).bg = s.bg := by
  simp only [State.retireRegion]
  split
  · rfl
  · rw [State.bg_startCopy]
    split <;> rfl

@[simp] theorem State.bg_loseStack (n : Nat) : (s.loseStack n).bg = s.bg := by
  simp only [State.loseStack]
  split
  · rfl
  · split
    · rw [State.bg_tellCoord, State.bg_endJob]
      rfl
    · exact State.bg_endJob ..

@[simp] theorem State.bg_stackCorr (n region : Nat) : (s.stackCorr n region).bg = s.bg := by
  simp only [State.stackCorr]
  split <;> simp

@[simp] theorem State.bg_stackUncorr (n region : Nat) : (s.stackUncorr n region).bg = s.bg := by
  simp only [State.stackUncorr]
  split <;> split <;> simp

@[simp] theorem State.bg_checkGranule (n off : Nat) : (s.checkGranule n off).bg = s.bg := by
  rw [State.checkGranule]
  split
  · rfl
  · split <;> simp

@[simp] theorem State.bg_scrubStack (n granule : Nat) : (s.scrubStack n granule).bg = s.bg := by
  simp only [State.scrubStack]
  split <;> simp

end

/-! ### A unit of background work (R616 to R618) -/

@[simp] theorem State.bgAct_modAct_self (s : State) (a : Nat) (f : BgAct → BgAct) : (s.modAct a f).bgAct a = f (s.bgAct a) :=
  tget_tput_self ..

/-- What the unit of an activity scrubs: a granule of a core, a granule of a stack, or nothing. -/
def State.scrub (s : State) (act unit granule : Nat) : State :=
  if act = 0 ∧ unit < 14976 ∧ !isGw (pSite unit) ∧ granule < 34816 then s.scrubCore unit granule
  else if act = 4 ∧ unit < 16 ∧ granule < 0x1800000000 / 64 then s.scrubStack unit granule
  else s

/-- The state once a unit has scrubbed and its work is served. -/
def State.bgServed (s : State) (act served unit granule : Nat) : State :=
  (s.scrub act unit granule).modAct act fun a => a.serve served

section
variable {s : State} {act unit granule : Nat}

theorem State.bg_scrubCore (s : State) (p granule : Nat) : (s.scrubCore p granule).bg = s.bg := by
  have hoff := congrArg State.bg (s.offCores_scrubCore p granule)
  exact hoff

theorem State.job_scrubCore (s : State) (p granule : Nat) : (s.scrubCore p granule).job = s.job := by
  have hoff := congrArg State.job (s.offCores_scrubCore p granule)
  exact hoff

@[simp] theorem State.bg_scrub (s : State) (act unit granule : Nat) : (s.scrub act unit granule).bg = s.bg := by
  rw [State.scrub]
  split
  · exact s.bg_scrubCore unit granule
  · split
    · exact s.bg_scrubStack unit granule
    · rfl

/-- Scrub of a core's memories leaves the job alone. -/
theorem State.job_scrub (h : act ≠ 4) : (s.scrub act unit granule).job = s.job := by
  rw [State.scrub]
  split
  · exact s.job_scrubCore unit granule
  · rw [if_neg fun hstack => h hstack.1]

theorem State.scrub_eq_self (h0 : act ≠ 0) (h4 : act ≠ 4) : s.scrub act unit granule = s := by
  rw [State.scrub, if_neg fun hcore => h0 hcore.1, if_neg fun hstack => h4 hstack.1]

/-- From granule 32,768 on the unit of activity 0 scrubs a bundle. -/
theorem State.scrub_bundle (hlo : 32768 ≤ granule) (hhi : granule < 34816) (hu : unit < 14976) (hgw : isGw (pSite unit) = false) :
    s.scrub 0 unit granule = (s.sync unit).scrubBundle unit (granule - 32768) := by
  rw [State.scrub, if_pos ⟨rfl, hu, by simp [hgw], hhi⟩, State.scrubCore, if_neg (Nat.not_lt.mpr hlo)]

@[simp] theorem State.bgAct_bgServed (s : State) (act served unit granule : Nat) :
    (s.bgServed act served unit granule).bgAct act = (s.bgAct act).serve served := by
  rw [State.bgServed, State.bgAct_modAct_self, State.bgAct, State.bg_scrub, ← State.bgAct]

theorem State.srams_bgServed (s : State) (act served unit granule : Nat) :
    (s.bgServed act served unit granule).srams = (s.scrub act unit granule).srams := rfl

theorem State.core_bgServed (s : State) (act served unit granule p : Nat) :
    (s.bgServed act served unit granule).core p = (s.scrub act unit granule).core p := rfl

/-- The last work of a period concerns the store's lost pages (R434) and the module's copies (R649) alone. -/
theorem State.actDone_frame (s : State) (act : Nat) : ∃ n m, s.actDone act = { s with nvm := n, mc := m } ∧
    (act = 5 → n = { s.nvm with stripes := tmap (fun _ x => { x with lost := [] }) s.nvm.stripes }) ∧
    (act = 6 → m = { s.mc with mirror := s.telemetry }) := by
  by_cases h5 : act = 5
  · subst h5
    exact ⟨_, _, rfl, fun _ => rfl, nofun⟩
  · by_cases h6 : act = 6
    · subst h6
      exact ⟨_, _, rfl, nofun, fun _ => rfl⟩
    · exact ⟨s.nvm, s.mc, by rw [State.actDone, if_neg h5, if_neg h6], (absurd · h5), (absurd · h6)⟩

/-- A unit of work is served, and the store and the module change with a period's last work alone. -/
theorem backgroundUnit_goes (s : State) (act : Fin 7) (served unit granule : Nat) : ∃ n m,
    let t := s.bgServed act served unit granule
    Goes (.backgroundUnit act served unit granule) s { t with nvm := n, mc := m } ∧
    (0 < (s.bgAct act).work → (s.bgAct act).work ≤ served →
      (act.val = 5 → n = { t.nvm with stripes := tmap (fun _ x => { x with lost := [] }) t.nvm.stripes }) ∧
      (act.val = 6 → m = { t.mc with mirror := t.telemetry })) := by
  have hexec : exec (.backgroundUnit act served unit granule) s =
      let t := s.bgServed act served unit granule
      .next (if 0 < (s.bgAct act).work ∧ (t.bgAct act).work = 0 then t.actDone act else t) := rfl
  have hwork : ((s.bgServed act served unit granule).bgAct act).work = (s.bgAct act).work - served := by
    rw [State.bgAct_bgServed]
    rfl
  dsimp only [Goes]
  rw [hexec]
  dsimp only
  rw [hwork]
  by_cases hlast : 0 < (s.bgAct act).work ∧ (s.bgAct act).work - served = 0
  · obtain ⟨n, m, hdone, h5, h6⟩ := (s.bgServed act served unit granule).actDone_frame act
    exact ⟨n, m, by rw [if_pos hlast, hdone], fun _ _ => ⟨h5, h6⟩⟩
  · exact ⟨_, _, by rw [if_neg hlast], fun hw hs => absurd ⟨hw, Nat.sub_eq_zero_of_le hs⟩ hlast⟩

end

/-! ### The share of a period's work done -/

section
variable {a : BgAct} {n : Nat}

theorem BgAct.serve_urgent_of_le (h : a.work ≤ n) : (a.serve n).urgent = false := by
  show (a.urgent && decide (0 < a.work - n)) = false
  rw [Nat.sub_eq_zero_of_le h]
  exact Bool.and_false _

theorem BgAct.serve_urgent_of_lt (h : n < a.work) : (a.serve n).urgent = a.urgent := by
  show (a.urgent && decide (0 < a.work - n)) = a.urgent
  rw [decide_eq_true (Nat.sub_pos_of_lt h), Bool.and_true]

theorem BgAct.serve_donePct (h : (a.serve n).total ≠ 0) :
    (a.serve n).donePct = 100 * (a.total - (a.work - n)) / a.total := if_neg h

end

/-! ### The end of a period (R621) -/

section
variable {s : State} {act : Fin 7} {u : BitVec 16} {work : Nat}

theorem periodEnd_served (h : (s.bgAct act).work = 0) : Goes (.periodEnd act u work) s
    (s.modAct act fun a => a.renew work (bgPeriod act s.nvm.patrolDays)) := if_pos h

/-- An activity once a period that ended with work left has been counted. -/
def BgAct.miss (a : BgAct) : BgAct := { a with missed := (bump 0xFF a.missed a.ovf).1, ovf := (bump 0xFF a.missed a.ovf).2.1 }

/-- An overflow flag that rises adds an event to those on their way. -/
theorem cntOvf_travelling (s : State) (rose : Bool) (reg lowBit node : Nat) : ∃ es,
    s.cntOvf rose reg lowBit node = { s with evq := { s.evq with travelling := s.evq.travelling ++ es } } := by
  cases rose
  · exact ⟨[], by rw [List.append_nil]; rfl⟩
  · exact ⟨_, rfl⟩

/-- The state once a period that ended with work left has been counted, with the events then on their way. -/
def State.bgMissed (s : State) (act : Nat) (work : Nat) (es : List EventRec) : State :=
  { s.modAct act fun a => a.miss.renew work (bgPeriod act s.nvm.patrolDays) with evq := { s.evq with travelling := es } }

/-- EV_BG_MISSED of an activity, with the unit most behind (R621). -/
def State.missedEvent (s : State) (act : Nat) (u : BitVec 16) : EventRec :=
  ⟨0x0E02, s.tick32, s.raiser panelNode, act, evData [(1, act), (2, u.toNat)]⟩

theorem State.bgAct_bgMissed (s : State) (act work : Nat) (es : List EventRec) :
    (s.bgMissed act work es).bgAct act = (s.bgAct act).miss.renew work (bgPeriod act s.nvm.patrolDays) := s.bgAct_modAct_self ..

/-- A period that ends with work left is counted and told. -/
theorem periodEnd_missed (h : (s.bgAct act).work ≠ 0) : ∃ es, Goes (.periodEnd act u work) s
    (s.bgMissed act work (s.evq.travelling ++ [s.missedEvent act u] ++ es)) := by
  let b := bump 0xFF (s.bgAct act).missed (s.bgAct act).ovf
  let t := s.modAct act fun a => ({ a with missed := b.1, ovf := b.2.1 } : BgAct).renew work (bgPeriod act s.nvm.patrolDays)
  obtain ⟨es, hes⟩ := cntOvf_travelling (t.raise 0x0E02 panelNode act [(1, act.val), (2, u.toNat)]) b.2.2 (0x2010 + 4 * act.val) 22
    panelNode
  exact ⟨es, (if_neg h).trans (congrArg Host.Outcome.next hes)⟩

theorem BgAct.miss_missed (a : BgAct) : a.miss.missed = if a.missed < 0xFF then a.missed + 1 else a.missed := by
  rw [BgAct.miss, bump]
  split <;> rfl

end

/-! ### The module (R648, R649) -/

section
variable {s : State} {addr : BitVec 7} {code : BitVec 8}

theorem smbusBlockRead_off (h : s.pwr.vin < 5400 ∨ addr.toNat ≠ 0x58 + s.mc.straps % 4) :
    Goes (.smbusBlockRead addr code) s { s with mc := { s.mc with reply := none } } := by
  have hoff : s.onBus addr.toNat = false := by
    rw [State.onBus, McRec.address, Bool.and_eq_false_iff, decide_eq_false_iff_not, Nat.not_le, beq_eq_false_iff_ne]
    exact h
  show execSmbusBlockRead addr code s = _
  simp only [execSmbusBlockRead, hoff]
  rfl

theorem smbusBlockRead_on (hv : 5400 ≤ s.pwr.vin) (ha : addr.toNat = 0x58 + s.mc.straps % 4) : Goes (.smbusBlockRead addr code) s
    { s with mc := { s.mc with reply := some (((s.smbusReg code.toNat).map fun v => 4#8 :: leBytes 4 v).getD [0#8]) } } := by
  have hon : s.onBus addr.toNat = true := by
    rw [State.onBus, McRec.address, Bool.and_eq_true, decide_eq_true_eq, beq_iff_eq]
    exact ⟨hv, ha⟩
  show execSmbusBlockRead addr code s = _
  simp only [execSmbusBlockRead, hon, if_true]
  cases s.smbusReg code.toNat <;> rfl

theorem State.smbusReg_mirrored {n : Nat} (h9 : n ≤ 9) (h0 : n ≠ 0) (h2 : n ≠ 2) :
    s.smbusReg n = some (tget (s.mirrorReset n) s.mc.mirror n) := by
  rw [State.smbusReg, if_neg h0, if_neg h2, if_pos h9]

theorem State.smbusReg_unlisted {n : Nat} (h9 : 9 < n) : s.smbusReg n = none := by
  rw [State.smbusReg, if_neg (by omega), if_neg (by omega), if_neg (by omega)]

end

/-! ### A carrier that is removed (R434, R645) -/

/-- A channel with no target in service. -/
def ChanRec.Gone (r : ChanRec) : Prop := r.mode = .out ∧ r.targets = 0#8

/-- Lost pages concern the store's stripes and mode, and beside the store an event. -/
theorem losePages_frame (s : State) (c : Nat) : ∃ x m e,
    s.losePages c = { s with nvm := { s.nvm with stripes := x, mode := m }, evq := e } := by
  simp only [State.losePages]
  split <;> exact ⟨_, _, _, rfl⟩

/-- A channel that leaves service concerns the store and an event alone. -/
theorem channelOut_frame (s : State) (c : Nat) : ∃ n e, s.channelOut c none = { s with nvm := n, evq := e } ∧
    n.chans = tmod {} s.nvm.chans c fun r => { r with targets := 0#8, mode := .out } := by
  unfold State.channelOut
  extract_lets left s1 sys s2
  have hs2 : ∃ o, s2 = { s1 with nvm := { s1.nvm with sysOut := o } } := by
    dsimp only [s2]
    split <;> exact ⟨_, rfl⟩
  obtain ⟨o, ho⟩ := hs2
  obtain ⟨x, m, e, he⟩ := losePages_frame s2 c
  rw [ho] at he ⊢
  exact ⟨_, _, he, rfl⟩

section
variable {s : State} {j : Nat}

theorem State.gone_channelOut_self (s : State) (c : Nat) : ((s.channelOut c none).chan c).Gone := by
  obtain ⟨n, e, hout, hchans⟩ := channelOut_frame s c
  rw [hout, State.chan, hchans, tmod, tget_tput_self]
  exact ⟨rfl, rfl⟩

theorem State.gone_channelOut (h : (s.chan j).Gone) (c : Nat) : ((s.channelOut c none).chan j).Gone := by
  by_cases hj : j = c
  · exact hj ▸ s.gone_channelOut_self j
  · obtain ⟨n, e, hout, hchans⟩ := channelOut_frame s c
    rw [hout, State.chan, hchans, tmod, tget_tput_other _ _ _ hj]
    exact h

theorem State.gone_each (h : (s.chan j).Gone) (cs : List Nat) : ((s.each (fun s c => s.channelOut c none) cs).chan j).Gone := by
  induction cs generalizing s with
  | nil => exact h
  | cons c cs ih => exact ih (State.gone_channelOut h c)

theorem State.gone_each_of_mem (s : State) {cs : List Nat} (hj : j ∈ cs) :
    ((s.each (fun s c => s.channelOut c none) cs).chan j).Gone := by
  induction cs generalizing s with
  | nil => exact absurd hj List.not_mem_nil
  | cons c cs ih =>
    obtain rfl | hj := List.mem_cons.mp hj
    · exact State.gone_each (s.gone_channelOut_self j) cs
    · exact ih _ hj

/-- Channels that leave service concern the store and events alone. -/
theorem channelsOut_frame (s : State) (cs : List Nat) :
    ∃ n e, s.each (fun s c => s.channelOut c none) cs = { s with nvm := n, evq := e } := by
  induction cs generalizing s with
  | nil => exact ⟨_, _, rfl⟩
  | cons c cs ih =>
    obtain ⟨n, e, hout, -⟩ := channelOut_frame s c
    rw [State.each, hout]
    exact ih _

end

/-- Settles O56: a unit by what it scrubs and whether it is a period's last, a period by the work it ends with, a read by whether the module
is on the bus. -/
theorem upkeepAndTheModuleTakeEffect : Obligations.UpkeepAndTheModuleTakeEffect := by
  unfold Obligations.UpkeepAndTheModuleTakeEffect
  intro s act served unit granule work u addr code bytes bay k a bg
  refine ⟨?unit, ?period, ?reads, rfl, ?removed, rfl⟩
  case unit =>
    obtain ⟨n, m, hgoes, hlast⟩ := backgroundUnit_goes s act served unit granule
    let t : State := { s.bgServed k served unit granule with nvm := n, mc := m }
    have hact : t.bgAct k = a.serve served := s.bgAct_bgServed ..
    refine ⟨t, hgoes, ?_⟩
    rw [hact]
    refine ⟨rfl, rfl, rfl, BgAct.serve_urgent_of_le, BgAct.serve_urgent_of_lt, BgAct.serve_donePct, State.job_scrub, fun h0 h4 => ?other,
      fun h0 hhi hlo hu hgw => ?bundle⟩
    case other =>
      have hself : s.scrub k unit granule = s := State.scrub_eq_self h0 h4
      rw [State.bgServed, hself] at hlast
      dsimp only [t]
      rw [State.bgServed, hself]
      exact ⟨rfl, rfl, rfl, fun h5 hw hs => (hlast hw hs).1 h5, fun h6 hw hs => by rw [(hlast hw hs).2 h6]; exact ⟨rfl, rfl⟩⟩
    case bundle =>
      intro synced corr hflip hwf
      have hscrub : s.scrub k unit granule = synced.scrubBundle unit (granule - 32768) := h0 ▸ State.scrub_bundle hlo hhi hu hgw
      show tget 0 (s.bgServed k served unit granule).srams.imemFlips _ = 0 ∧ ((s.bgServed k served unit granule).core unit).count.corr = _
      rw [State.srams_bgServed, State.core_bgServed, hscrub]
      exact State.scrubBundle_corrects hflip hwf
  case period =>
    by_cases hw : a.work = 0
    · let t := s.modAct k fun a => a.renew work (bgPeriod k s.nvm.patrolDays)
      have hact : t.bgAct k = a.renew work (bgPeriod k s.nvm.patrolDays) := s.bgAct_modAct_self ..
      refine ⟨t, periodEnd_served hw, ?_⟩
      rw [hact]
      exact ⟨rfl, rfl, rfl, rfl, rfl, rfl, rfl, rfl, fun _ => ⟨rfl, rfl⟩, fun h => absurd hw h⟩
    · obtain ⟨es, hgoes⟩ := periodEnd_missed (u := u) (work := work) hw
      refine ⟨_, hgoes, ?_⟩
      rw [State.bgAct_bgMissed]
      have htold : s.missedEvent k u ∈ s.evq.travelling ++ [s.missedEvent k u] ++ es := by simp
      exact ⟨rfl, rfl, rfl, rfl, rfl, rfl, rfl, rfl, fun h => absurd h hw, fun _ => ⟨a.miss_missed, _, htold, rfl, rfl, rfl⟩⟩
  case reads =>
    refine ⟨smbusBlockRead_off, fun hv ha => ?_⟩
    have hon := smbusBlockRead_on (code := code) hv ha
    refine ⟨?panelId, ?powerIn, fun h9 h0 h2 => ?mirrored, fun h9 => ?unlisted⟩
    case panelId =>
      rintro rfl
      exact hon
    case powerIn =>
      rintro rfl
      exact hon
    case mirrored =>
      rw [State.smbusReg_mirrored h9 (fun h => h0 (BitVec.eq_of_toNat_eq h)) (fun h => h2 (BitVec.eq_of_toNat_eq h))] at hon
      exact hon
    case unlisted =>
      rw [State.smbusReg_unlisted h9] at hon
      exact hon
  case removed =>
    let s1 : State := { s with mc := { s.mc with removed := bay.val :: s.mc.removed.filter (· ≠ bay.val) } }
    let cs := [4 * bay.val, 4 * bay.val + 1, 4 * bay.val + 2, 4 * bay.val + 3]
    have hgone : ∀ j < 4, ((s1.each (fun s c => s.channelOut c none) cs).chan (4 * bay.val + j)).Gone :=
      fun j hj => s1.gone_each_of_mem (by simp [cs]; omega)
    obtain ⟨n, e, hout⟩ := channelsOut_frame s1 cs
    rw [hout] at hgone
    exact ⟨_, congrArg Host.Outcome.next hout, List.mem_cons_self, rfl, rfl, hgone⟩

end Sys2Proof.Machine
end
